-- ==== Sys2Proof/Word.lean ====
section
/-! DEFINITION. The identifiers the manual numbers, and the shape of a sparse table. -/

namespace Sys2Proof

/-- A byte of memory, of an object's value or of a message. -/
abbrev Byte := BitVec 8

/-- HL0 or HL1 (R504). -/
abbrev HostPort := Fin 2
/-- A hawser port H00 to H31 (R35). -/
abbrev HawserPort := Fin 32
/-- A global tile id, die × 144 + logical index (R21). -/
abbrev TileId := Fin 2304
/-- A dock id, global tile id × 8 + k (R21). -/
abbrev DockId := Fin 18432
/-- A compute die (R16). -/
abbrev DieId := Fin 16
/-- A context (R330). -/
abbrev CtxId := Fin 64
/-- A domain access channel of a port (R53). -/
abbrev DacCh := Fin 4

/-- A sparse table: keys strictly rising, an absent key stands for a default that its reader names. -/
abbrev AMap (α : Type) := List (Nat × α)

/-- A value of a floating-point format: NaN with its binary32 pattern, an infinity, a signed zero, or a finite number that
is not 0 (R180, R208). -/
inductive Num where
  | nan (pattern : Nat)
  | inf (neg : Bool)
  | zero (neg : Bool)
  | fin (v : Rat)
  deriving DecidableEq, Repr

end Sys2Proof
end

