-- ==== Sys2Proof/Syntax.lean ====
section
/-! DEFINITION. The commands of the block, one constructor per row of the opcode table, and the data they carry. -/

namespace Sys2Proof

/-- The path by which a dictionary access arrives (R41): a CXL window, or ODP. -/
inductive Src where
  | win (port : HostPort)
  | odp
  deriving DecidableEq, Repr

/-- Where an ODP datagram was addressed (R55). -/
inductive OdpDst where
  | device | allNodes | other
  deriving DecidableEq, Repr

/-- One received ODP datagram (R55, R56): the header's fields but TYPE, which the row of the table gives
(ODP_UNKNOWN_FRAME reads `typ`); `short` marks a datagram shorter than the header. -/
structure OdpFrame where
  srcAddr : Nat
  srcPort : Nat
  linkLocal : Bool
  short : Bool
  dst : OdpDst
  dstPort : Nat
  version : Nat
  typ : Nat
  tid : Nat
  index : Nat
  sub : Nat
  flags : Nat
  offset : Nat
  plen : Nat
  payload : List Byte
  deriving DecidableEq, Repr

/-- Convoy credit in a link control flit: the convoy, the child that returns it, its flits, and whether that child's own children
hold its returns (R372, R373). -/
structure EdgeCredit where
  convoy : Nat
  child : Nat
  flits : Nat
  held : Bool
  deriving DecidableEq, Repr

/-- What a link control flit acknowledges beside its credit: the sequence number that the peer expects next, and credit of convoy edges
(R359, R362, R372). -/
structure LinkAck where
  seq : Nat
  edges : List EdgeCredit
  deriving DecidableEq, Repr

/-- What a tile's SRAM read served as it mismatched its parity: a task, or something else, which reads once more and may mismatch twice
(R350). -/
inductive SramRead where
  | task
  | other (twice : Bool)
  deriving DecidableEq, Repr

/-- How the completion work of a pass comes out (R156, R160): outputs whose spare has a cell that fails
verify in the fill, once for each spare that fails, and whether a parity error strikes the work. -/
structure CloseResult where
  failing : List Nat
  fault : Bool
  deriving DecidableEq, Repr

/-- How a die's calibration comes out: the die, and its docks that fail (R168, R170). -/
structure DieResult where
  die : DieId
  failing : List DockId
  deriving DecidableEq, Repr

/-- A fabric message (R365). The TYPE byte of a received message is the row's own; the other rows set it when they send. -/
structure Msg where
  typ : Nat
  vc : Nat
  express : Bool
  last : Bool
  srcDom : Nat
  srcPkg : Nat
  dstDom : Nat
  dstPkg : Nat
  ctx : Nat
  hops : Nat
  dstAddr : Nat
  srcAddr : Nat
  plen : Nat
  convoy : Nat
  bollard : Nat
  increment : Nat
  transfer : Nat
  step : Nat
  epoch : Nat
  typeData : List Byte
  payload : List Byte
  /-- The root's source address, which every node of a convoy must know for a DETACH (R373) and for which R365 gives the header of
  an MCAST_PUT no field: it travels outside the header (DESIGN CHOICE, log 33). -/
  origin : Nat
  deriving DecidableEq, Repr

/-- What held a task for HANG_TIMEOUT (R318). -/
inductive HangKind where
  | wait | chainSlot | fence | barrier | invalidation
  deriving DecidableEq, Repr

/-- How a DRAM read went wrong (R350). -/
inductive DramError where
  | corrected | parity | uncorrectable
  deriving DecidableEq, Repr

/-- A configuration or BAR4 request of a host (R505 to R508, R516). -/
inductive CfgReq where
  | read (offset : Nat)
  | write (offset value : Nat)
  | decoderCommit (bytes : Nat)
  | msixEnable (on : Bool)
  | msixMask (vector : Fin 3) (masked : Bool)
  | msixTarget (vector : Fin 3) (addr data : Nat)
  deriving DecidableEq, Repr

/-- One host access to a 64-byte line of device memory (R511): whether the host keeps the line after it. -/
inductive HdmOp where
  | read (keep : Bool)
  | write (data : List Byte) (keep : Bool)
  deriving DecidableEq, Repr

/-- The paths an SPDM request arrives by (R527). -/
inductive SpdmPath where
  | doe (port : HostPort)
  | odp
  deriving DecidableEq, Repr

/-- The commands: one per row of the opcode table. -/
inductive Instr where
  /-- INPUT_UNDERVOLTAGE (R5): Input stays below 40 V for more than 1 ms, so the device leaves RUN, READY or IDLE and enters AUX. -/
  | inputUndervoltage
  /-- INPUT_OVERVOLTAGE (R5): Input rises above 60 V, so the input stage disconnects the 6 V converters and the device is OFF. -/
  | inputOvervoltage
  /-- POWER_ON (R487): 48 V comes into range at either clamp, and the device goes from OFF to AUX. -/
  | powerOn
  /-- CLAMP_CHECK (R33): Every 100 ms until it passes, the lighthouse compares the two +48 V clamp voltages before it enables the converters. -/
  | clampCheck (neMv swMv : Nat)
  /-- CONVERTER_FAILURE (R26): A bus converter fails; beyond two failures the power loop caps package power and logs 0x8004. -/
  | converterFailure (n : Fin 24)
  /-- REGULATOR_FAULT (R479): A regulator stays out of regulation for 100 µs, so the package enters AUX with 0x8009. -/
  | regulatorFault
  /-- PKG_RESET_ASSERT (R491): PKG_RESET_N is asserted: the device is held in AUX, volatile objects default and the timer restarts. -/
  | pkgResetAssert
  /-- PKG_RESET_RELEASE (R491): PKG_RESET_N is released: the lighthouse restarts and the device enters BOOT if AUTO_START is 1. -/
  | pkgResetRelease
  /-- POWER_START (R487): POWER_COMMAND START takes the device from AUX, or from SLEEP, into BOOT. -/
  | powerStart (src : Src)
  /-- POWER_NAP (R488): POWER_COMMAND NAP is accepted and held until its entry conditions hold. -/
  | powerNap (src : Src)
  /-- NAP_ENTRY (R488): A held NAP command takes effect once the device is READY or IDLE with no load, copy or open pass. -/
  | napEntry
  /-- POWER_WAKE (R488): POWER_COMMAND WAKE leaves NAP or SLEEP, or cancels a held NAP command. -/
  | powerWake (src : Src)
  /-- POWER_SLEEP (R489): POWER_COMMAND SLEEP in READY discards volatile state and keeps DRAM in self-refresh. -/
  | powerSleep (src : Src)
  /-- POWER_SHUTDOWN (R490): POWER_COMMAND SHUTDOWN in READY starts the orderly shutdown. -/
  | powerShutdown (src : Src)
  /-- SHUTDOWN_DONE (R490): The event ring, the ageing history and the orderly flag are saved, the rails go down, and the device is in AUX. -/
  | shutdownDone
  /-- IDLE_TIMEOUT (R487): With no work for IDLE_DELAY_US, the device goes from RUN to IDLE. -/
  | idleTimeout
  /-- FIRMWARE_VERIFY_DONE (R523): The boot ROM finishes verifying the harbourmaster section and either continues start-up or moves to the next slot. -/
  | firmwareVerifyDone (pass : Bool)
  /-- STARTUP_REGULATORS_UP (R497): The 6 V bus and the regulators come up in order, and PWR_GOOD goes high. -/
  | startupRegulatorsUp
  /-- HARBOURMASTER_START (R498): The harbourmaster starts, takes the lighthouse event ring and applies the saved objects that steps 4 and 5 consult. -/
  | harbourmasterStart
  /-- HARBOURMASTER_START_TIMEOUT (R497): The harbourmaster has not started within 10 s, so the device goes to AUX with 0x800B. -/
  | harbourmasterStartTimeout
  /-- DRAM_TRAINING_DONE (R497): DRAM training ends; compute-die regulators come up, dock metadata is read and self-test begins, or a failed stack sends the device to AUX. -/
  | dramTrainingDone (failedStacks badMetaDocks : List Nat)
  /-- DRAM_TRAINING_TIMEOUT (R497): DRAM training exceeds 60 s, giving a device fault 0x800A and AUX. -/
  | dramTrainingTimeout
  /-- SETTLE_CAP_TIMEOUT (R169): 10 s after the regulators come up, the start-up cold calibration starts without settling, logging 0x800D. -/
  | settleCapTimeout
  /-- DEFAULT_OBJECTS_LOADED (R498): At start-up step 6 the remaining saved objects are applied and the device becomes READY. -/
  | defaultObjectsLoaded
  /-- POWER_LOOP_TICK (R483): Every 100 µs the power control loop checks the limits, steps die clocks and adjusts take gating. -/
  | powerLoopTick (neMv swMv neDa swDa : Nat)
  /-- DVFS_STEP_DONE (R482): A die completes one change of operating point, in rail and divider. -/
  | dvfsStepDone (die : DieId)
  /-- INPUT_DROOP (R484): The input falls below 42.0 V, so every die goes to 0.9 GHz at once and 0x8005 is logged. -/
  | inputDroop
  /-- DROOP_RECOVERY (R484): The input has held at or above 44.0 V for 10 ms, so the droop cap lifts. -/
  | droopRecovery
  /-- DICT_WRITE (R44): A write to an object that has no row of its own is checked in full and applied, or refused with its abort code. -/
  | dictWrite (port : HostPort) (offset size value : Nat)
  /-- WINDOW_ACCESS_REFUSED (R50): A direct-region access of the wrong form returns all ones or changes nothing, and is recorded with 0xA011. -/
  | windowAccessRefused (port : HostPort) (offset size : Nat) (isWrite : Bool) (value : Nat)
  /-- LAST_ABORT_READ (R52): A read of LAST_ABORT returns the code and then clears it. -/
  | lastAbortRead (port : HostPort)
  /-- DAC_SET_TARGET (R534): A DAC_CTRL write with CMD 0 sets INDEX, SUBINDEX and DIR. -/
  | dacSetTarget (port : HostPort) (ch : DacCh) (ctrl : Nat)
  /-- DAC_PARAM_WRITE (R534): A write to DAC_SIZE, DAC_OFFSET or DAC_LENGTH is accepted or refused according to the channel state. -/
  | dacParamWrite (port : HostPort) (ch : DacCh) (reg value : Nat)
  /-- DAC_OPEN (R54): The OPEN command opens a segmented transfer, taking the snapshot for an upload. -/
  | dacOpen (port : HostPort) (ch : DacCh) (ctrl : Nat)
  /-- DAC_XFER (R54): The XFER command starts moving one segment between the buffer and the object, entering BUSY. -/
  | dacXfer (port : HostPort) (ch : DacCh) (ctrl : Nat) (buf : List Byte)
  /-- DAC_SEGMENT_DONE (R54): A segment transfer finishes and the channel enters SEGMENT_DONE. -/
  | dacSegmentDone (port : HostPort) (ch : DacCh)
  /-- DAC_CLOSE (R54): The CLOSE command ends a transfer: a download is validated and applied whole, and an upload releases its snapshot. -/
  | dacClose (port : HostPort) (ch : DacCh) (ctrl : Nat)
  /-- DAC_ABORT (R54): The ABORT command ends the transfer at once with 0xA00D. -/
  | dacAbort (port : HostPort) (ch : DacCh) (ctrl : Nat)
  /-- DAC_TIMEOUT (R54): A channel sees no command for 10 s while OPEN or SEGMENT_DONE, and is aborted with 0xA00C. -/
  | dacTimeout (port : HostPort) (ch : DacCh)
  /-- ODP_READ_REQ (R57): A READ_REQ frame is answered with READ_RESP or with ABORT. -/
  | odpReadReq (f : OdpFrame)
  /-- ODP_WRITE_REQ (R57): A WRITE_REQ frame writes an object and is answered with WRITE_RESP or with ABORT. -/
  | odpWriteReq (f : OdpFrame)
  /-- ODP_UPLOAD_INIT (R58): An UPLOAD_INIT frame opens an ODP upload with a snapshot. -/
  | odpUploadInit (f : OdpFrame)
  /-- ODP_UPLOAD_SEG_REQ (R57): An UPLOAD_SEG_REQ frame is answered with the requested range of the snapshot. -/
  | odpUploadSegReq (f : OdpFrame)
  /-- ODP_DOWNLOAD_INIT (R58): A DOWNLOAD_INIT frame opens an ODP download of a given total size. -/
  | odpDownloadInit (f : OdpFrame)
  /-- ODP_DOWNLOAD_SEG (R58): A DOWNLOAD_SEG frame stores a segment, and its LAST segment validates and applies the whole content. -/
  | odpDownloadSeg (f : OdpFrame)
  /-- ODP_TRANSFER_ABORT (R57): A TRANSFER_ABORT frame ends the named transfer with 0xA00D. -/
  | odpTransferAbort (f : OdpFrame)
  /-- ODP_DISCOVER (R57): A DISCOVER frame is answered with DISCOVER_RESP carrying the identity record. -/
  | odpDiscover (f : OdpFrame)
  /-- ODP_UNKNOWN_FRAME (R57): A frame of an unknown type or version is answered with ABORT 0xA00B or 0xA015. -/
  | odpUnknownFrame (f : OdpFrame)
  /-- ODP_TRANSFER_TIMEOUT (R58): An ODP transfer receives no frame for 5 s and is aborted silently with 0xA00C. -/
  | odpTransferTimeout (n : Nat)
  /-- STORE_SAVE (R62): A write of 1 to STORE_SAVE starts a save of the saved objects into the other bank. -/
  | storeSave (src : Src)
  /-- STORE_DEFAULTS (R64): A write of 1 to STORE_DEFAULTS sets every user-saved object to its default and then saves. -/
  | storeDefaults (src : Src)
  /-- STORE_SAVE_DONE (R62): A save finishes with the commit flag written last, or fails erase or verify with 0xA00E. -/
  | storeSaveDone (ok : Bool)
  /-- EVENT_LOG_PERSIST (R73): Ring entries at or above PERSIST_LEVEL are written to the flash log in SEQ order, and the oldest sector is erased when the log is full. -/
  | eventLogPersist
  /-- POSITION_APPLY (R69): A write of 1 to POSITION_APPLY applies the staged position members together, or refuses them. -/
  | positionApply (src : Src) (value : Nat)
  /-- PLAN_LOAD (R84): PLAN_COMMAND LOAD copies the image into harbourmaster memory and begins validation. -/
  | planLoad (src : Src)
  /-- PLAN_LOAD_COMPLETE (R85): Configuration of the tiles and objects finishes and PLAN_STATE becomes LOADED. -/
  | planLoadComplete
  /-- PLAN_CONFIG_WRITE_FAIL (R86): A configuration write fails during CONFIGURING, so everything written is rolled back and 0x1114 is reported. -/
  | planConfigWriteFail
  /-- PLAN_UNLOAD (R87): PLAN_COMMAND UNLOAD starts returning tiles, berths, bollards, holds, passes and objects to the unloaded state. -/
  | planUnload (src : Src)
  /-- PLAN_UNLOAD_COMPLETE (R87): The unload ends and PLAN_STATE returns to NONE. -/
  | planUnloadComplete
  /-- SELF_TEST_RUN (R109): A write of 1 to SELF_TEST_RUN starts an on-demand self-test pass. -/
  | selfTestRun (src : Src)
  /-- SELF_TEST_COMPLETE (R109): A self-test pass ends: tiles are substituted or made absent, spares are updated, and cold calibrations are queued. -/
  | selfTestComplete (failed : List Nat)
  /-- DOORBELL (R290, R513): A write to a berth doorbell queues a manifest, or is refused and counted; a read (no value) returns the
  berth's QUEUED and STATE. -/
  | doorbell (port : HostPort) (offset size : Nat) (value : Option Nat)
  /-- MANIFEST_FETCH (R292): The fetch engine starts reading the next queued manifest of the highest-priority eligible berth into a free buffer. -/
  | manifestFetch (t : TileId)
  /-- MANIFEST_ARRIVE (R291): A 4 KiB manifest burst arrives, its status area is zeroed on the first fetch, and a parity mismatch is retried. -/
  | manifestArrive (t : TileId)
  /-- BERTH_FLUSH (R294): A write to BERTH_FLUSH drops queued manifests and cancels the berth's unstarted tasks. -/
  | berthFlush (src : Src) (berth : Nat)
  /-- TASK_TAKE (R106): The execute engine takes the next task from a berth and validates it, rejecting it with the first failing code. -/
  | taskTake (t : TileId)
  /-- DMA_SUSPEND (R346): A COPY, TRANSPOSE or SECURE_COPY that stopped at a unit end has drained, and is suspended with its progress kept. -/
  | dmaSuspend (t : TileId)
  /-- TRANSFER_ACK (R296): An inbound or outbound transfer of a task is acknowledged and its transfer entry is freed. -/
  | transferAck (t : TileId) (task : Nat)
  /-- TASK_END (R293): A task ends its work, writes its status word and releases its ferry slots. -/
  | taskEnd (t : TileId)
  /-- TASK_SIGNAL (R308): Once all of a task's writes and its status word are acknowledged, the task raises its signal bollard. -/
  | taskSignal (t : TileId)
  /-- TALLY_SAMPLE_COPY_DONE (R226): The slot copy of a sampled task finishes, and the task's bollard is then signalled. -/
  | tallySampleCopyDone (c : CtxId) (slot : Nat)
  /-- TALLY (R228): A checker tile runs a device-built TALLY task that recomputes the sample wide. -/
  | tally (t : TileId) (wrong : List (Nat × Num))
  /-- TALLY_TIMEOUT (R230): A tally not finished within TALLY_TIMEOUT is abandoned and counted as skipped. -/
  | tallyTimeout (c : CtxId) (slot : Nat)
  /-- GATE_EVALUATE (R231): A gate task's outstanding tallies have ended, so every layer of the context is evaluated and the gate passes, trips or skips. -/
  | gateEvaluate (t : TileId)
  /-- REPLAY_REWIND (R233): With running tasks complete, berths, bollards, holds and counters rewind to the step mark and the attempt rises. -/
  | replayRewind (c : CtxId)
  /-- DOCK_MVM (R123): A DOCK_MVM task starts on its docks after the lag, calibration and refusal checks. -/
  | dockMvm (t : TileId)
  /-- DOCK_PHASE_DONE (R120): A dock phase ends: counts are corrected, saturated outputs are flagged for a clip retry, and a saturation at gain x1 aborts the task. -/
  | dockPhaseDone (d : DockId) (counts : List Nat)
  /-- DOCK_VECTOR_DONE (R128): Every selected dock has finished a vector, so the periphery completes it and the next vector starts. -/
  | dockVectorDone (t : TileId)
  /-- DOCK_REFIT (R150): A DOCK_REFIT task in REFIT mode projects master rows and programs the rows that need it. -/
  | dockRefit (t : TileId) (failing : List Nat)
  /-- DOCK_REFIT_SCAN (R152): A DOCK_REFIT task in SCAN mode records SCAN_MAX over its master rows. -/
  | dockRefitScan (t : TileId)
  /-- DOCK_REFIT_READBACK (R158): A DOCK_REFIT task in READBACK mode reads cell levels and metadata into the fitted image. -/
  | dockRefitReadback (t : TileId) (metaBad : Bool)
  /-- DOCK_REFIT_DONE (R155): A dock finishes a DOCK_REFIT task, which then ends. -/
  | dockRefitDone (d : DockId)
  /-- REFIT_PASS_CLOSE (R156): The pass completion work after a LAST task ends: spares are filled, metadata and registers are written and counts advance. -/
  | refitPassClose (d : DockId) (r : CloseResult)
  /-- DOCK_CAL_NATIVE (R171): A DOCK_CAL task of kind native queues calibrations for its docks. -/
  | dockCalNative (t : TileId)
  /-- DOCK_CAL_COLD (R171): A DOCK_CAL task of kind cold queues cold calibrations for its docks. -/
  | dockCalCold (t : TileId)
  /-- DOCK_CAL_QUICK_VERIFY (R171): A DOCK_CAL task of kind quick verify queues quick verifies for its docks. -/
  | dockCalQuickVerify (t : TileId)
  /-- CALIBRATION_START (R167): A queued dock calibration begins once the dock is free and the tile's reference is available. -/
  | calibrationStart (t : TileId)
  /-- CALIBRATION_DONE (R165): A dock calibration or verify ends, setting gains and trims or failing and repeating, and raises DONE_BOLLARD. -/
  | calibrationDone (d : DockId) (pass : Bool)
  /-- DIE_CALIBRATION (R168): In the interrupting mode, once running dock tasks have completed, the whole die calibrates. -/
  | dieCalibration (die : DieId)
  /-- DIE_CALIBRATION_DONE (R168): The 2.4 ms die calibration ends and waiting dock tasks start. -/
  | dieCalibrationDone (r : DieResult)
  /-- RESTORE_WINDOW_TIMEOUT (R175): RESTORE_TIMEOUT expires, so the restore window closes and docks without trims are cold-calibrated. -/
  | restoreWindowTimeout
  /-- GEMM (R255): A GEMM task computes D = A × B on the arrays, or on the matrix-vector unit when it is thin. -/
  | gemm (t : TileId)
  /-- MATVEC (R255): A MATVEC task computes a product on the matrix-vector unit. -/
  | matvec (t : TileId)
  /-- GEMM_BWD_PAIR (R262): A GEMM_BWD_PAIR task forms dX and dW from one dY on the two arrays. -/
  | gemmBwdPair (t : TileId)
  /-- ATTN_FWD_BLOCK (R266): An ATTN_FWD_BLOCK task updates the running attention state for a block of keys. -/
  | attnFwdBlock (t : TileId)
  /-- ATTN_BWD_BLOCK (R267): An ATTN_BWD_BLOCK task recomputes the scores and accumulates dQ, dK and dV. -/
  | attnBwdBlock (t : TileId)
  /-- NORM_FORWARD (R199): A NORM task in a forward mode normalises rows in LayerNorm or RMSNorm. -/
  | normForward (t : TileId)
  /-- NORM_BACKWARD (R199): A NORM task in a backward mode forms dX and accumulates dγ and dβ. -/
  | normBackward (t : TileId)
  /-- ACT (R200): An ACT task with ACT_MODE 0 applies an activation function. -/
  | act (t : TileId)
  /-- ACT_DERIVATIVE (R200): An ACT task with ACT_MODE 1 writes dY × f′(z). -/
  | actDerivative (t : TileId)
  /-- SOFTMAX_FORWARD (R201): A SOFTMAX task with SM_MODE 0 computes the softmax and optionally the log-sum-exp. -/
  | softmaxForward (t : TileId)
  /-- SOFTMAX_BACKWARD (R201): A SOFTMAX task with SM_MODE 1 computes the softmax gradient. -/
  | softmaxBackward (t : TileId)
  /-- CONVERT (R191): A CONVERT task converts elements between formats in the chosen scale and rounding mode. -/
  | convert (t : TileId)
  /-- RNG_FILL (R203): An RNG_FILL task writes counter-based random values. -/
  | rngFill (t : TileId)
  /-- COPY (R342): A COPY task moves or zero-fills bytes in 4 KiB destination units. -/
  | copy (t : TileId) (units : Nat)
  /-- TRANSPOSE (R343): A TRANSPOSE task writes the transpose of a raw-element matrix through the staging buffer. -/
  | transpose (t : TileId) (units : Nat)
  /-- HOLD_PUSH (R273): A HOLD_PUSH task pushes an entry onto the tile's hold, or records a mark in recompute mode. -/
  | holdPush (t : TileId)
  /-- HOLD_POP (R274): A HOLD_POP task removes the top entry and writes it, or recomputes segments for a mark. -/
  | holdPop (t : TileId)
  /-- HOLD_SPILL (R277): Tier 1 falls below its headroom, so the controller starts moving the deepest 64 KiB or extent down a tier. -/
  | holdSpill (t : TileId)
  /-- HOLD_PREFETCH (R278): Tier 1 has room and lower tiers hold bytes, so the controller starts moving the newest bytes up a tier. -/
  | holdPrefetch (t : TileId)
  /-- HOLD_MOVE_DONE (R280): The last write of a segment or extent move is acknowledged, and it is recounted in its destination tier. -/
  | holdMoveDone (t : TileId)
  /-- SIGNAL (R311): A SIGNAL task raises a local bollard, or sends a SIGNAL message to another package. -/
  | signal (t : TileId)
  /-- WAIT (R305): A WAIT task waits on two bollards at once. -/
  | wait (t : TileId)
  /-- FENCE (R310): A FENCE task waits for every earlier write of its berth to be acknowledged. -/
  | fence (t : TileId)
  /-- FENCE_DONE (R310): All earlier writes of the berth are acknowledged or detached, so the FENCE ends. -/
  | fenceDone (t : TileId)
  /-- BARRIER (R313): A BARRIER arrives; the last participant's arrival raises the epoch, realigns bollards, advances the step if asked, and ends every BARRIER. -/
  | barrier (t : TileId)
  /-- HANG_TIMEOUT (R318): A wait, chain slot, FENCE, barrier or invalidation has held a task for HANG_TIMEOUT, and it is a hang. -/
  | hangTimeout (w : HangKind) (t : TileId)
  /-- FERRY_FORWARD (R302): A loaded chunk starts forwarding to the next member once the downstream slot is free. -/
  | ferryForward (chain member : Nat)
  /-- FERRY_FORWARD_DONE (R302): The forward's last write is acknowledged, and the chunk is loaded at the next member. -/
  | ferryForwardDone (chain member : Nat)
  /-- CTX_OPEN (R331): A write to CTX_OPEN opens a context in HALTED, or is refused. -/
  | ctxOpen (src : Src) (n : Nat)
  /-- CTX_RESUME (R332): CTX_COMMAND RESUME clears the fault record, and the context takes tasks again. -/
  | ctxResume (src : Src) (c : CtxId)
  /-- CTX_HALT (R332): CTX_COMMAND HALT stops the context's tiles from taking tasks, and the context enters HALTING. -/
  | ctxHalt (src : Src) (c : CtxId)
  /-- CTX_CLOSE (R333): CTX_COMMAND CLOSE drops the context's TLB entries, suspended tasks and fault record. -/
  | ctxClose (src : Src) (c : CtxId)
  /-- TLB_WALK_DONE (R336): A page-table walk ends, caching a leaf or raising a translation fault. -/
  | tlbWalkDone (t : TileId) (c : CtxId) (va : Nat) (write : Bool)
  /-- TLB_INVALIDATE_RANGE (R339): INV_APPLY 1 starts invalidating the staged range of a context. -/
  | tlbInvalidateRange (src : Src)
  /-- TLB_INVALIDATE_CONTEXT (R339): INV_APPLY 2 starts invalidating a whole context. -/
  | tlbInvalidateContext (src : Src)
  /-- TLB_INVALIDATE_DONE (R339): No entry covers the range and its transfers are acknowledged, so INV_STATE reads 2. -/
  | tlbInvalidateDone
  /-- SRAM_PARITY_ERROR (R350): A tile SRAM read mismatches its parity, aborting a task as a data error or retrying and poisoning a read that serves no task. -/
  | sramParityError (t : TileId) (offset : Nat) (read : SramRead)
  /-- MESH_FLIT_ERROR (R350): A mesh flit fails parity; it is retried up to 4 times and then its data is poisoned. -/
  | meshFlitError (t : TileId) (pa retries : Nat)
  /-- DRAM_READ_ERROR (R350): A DRAM read reports a corrected error, a parity mismatch or an uncorrectable error. -/
  | dramReadError (pa : Nat) (kind : DramError)
  /-- HOST_POISON_RECEIVED (R350): Data arrives marked poisoned by the host, which is an uncorrectable memory error. -/
  | hostPoisonReceived (port : HostPort) (pa : Nat) (t : TileId)
  /-- FLIT_RESEND_REQUEST (R359): A bad CRC or a sequence gap makes the receiver ask for a resend, and the sender resends from its replay buffer. -/
  | flitResendRequest (p : HawserPort) (seq : Nat)
  /-- CREDIT_TIMEOUT (R361): A credit has not been returned within CREDIT_TIMEOUT_US, so the link retrains. -/
  | creditTimeout (p : HawserPort) (vc : Nat)
  /-- LANE_BER_CHECK (R361): A lane's pre-FEC error ratio averaged over 10 ms exceeds 2.4 × 10^−4, so the link retrains. -/
  | laneBerCheck (p : HawserPort) (lane ber : Nat)
  /-- LINK_RETRAIN_DONE (R361): A retrain ends and the replay buffer is resent, or the port enters FAILED. -/
  | linkRetrainDone (p : HawserPort) (ok : Bool)
  /-- LINK_TRAINING_DONE (R371): A hawser link finishes training and the fairway peer identity is checked, holding the port down on a mismatch. -/
  | linkTrainingDone (p : HawserPort) (dom pkg peerPort : Nat)
  /-- PUT (R380): A PUT task sends its bytes to a remote package as PUT messages. -/
  | put (t : TileId)
  /-- GET (R380): A GET task sends a GET_REQ for remote bytes. -/
  | get (t : TileId)
  /-- MCAST (R372): An MCAST task issues MCAST_PUT messages from the root of its convoy. -/
  | mcast (t : TileId)
  /-- ACC (R415): An ACC task sends one factor round's buckets to the owner as contributions. -/
  | acc (t : TileId)
  /-- DISPATCH (R376): A DISPATCH task places tokens into expert slots and sends them with the index lists. -/
  | dispatch (t : TileId)
  /-- COMBINE (R378): A COMBINE task returns an owned expert's results to the source packages. -/
  | combine (t : TileId)
  /-- MSG_PUT (R366): An arriving PUT message writes its payload and is acknowledged. -/
  | msgPut (p : HawserPort) (m : Msg)
  /-- MSG_GET_REQ (R366): An arriving GET_REQ is read and answered with GET_RESP messages, and the root refuses stale recovery. -/
  | msgGetReq (p : HawserPort) (m : Msg)
  /-- MSG_GET_RESP (R366): An arriving GET_RESP writes at the requester, and it may complete a convoy recovery. -/
  | msgGetResp (p : HawserPort) (m : Msg)
  /-- MSG_ACC (R401): An arriving contribution is checked, accumulated exactly or refused, and answered with REPLY. -/
  | msgAcc (p : HawserPort) (m : Msg)
  /-- MSG_SIGNAL (R311): An arriving SIGNAL message raises its bollard, or is dropped when the bollard lies in no range. -/
  | msgSignal (p : HawserPort) (m : Msg)
  /-- MSG_MCAST_PUT (R372): An arriving MCAST_PUT is written locally and forwarded to the attached children. -/
  | msgMcastPut (p : HawserPort) (m : Msg)
  /-- MSG_DISPATCH (R377): An arriving DISPATCH message writes a token or an index list. -/
  | msgDispatch (p : HawserPort) (m : Msg)
  /-- MSG_COMBINE (R378): An arriving COMBINE message writes a returned token. -/
  | msgCombine (p : HawserPort) (m : Msg)
  /-- MSG_ACK (R366): An arriving ACK completes a message at its source. -/
  | msgAck (p : HawserPort) (m : Msg)
  /-- MSG_NACK (R367): An arriving NACK aborts the issuing task with 0x5005. -/
  | msgNack (p : HawserPort) (m : Msg)
  /-- MSG_REPLY (R404): An arriving REPLY finalises a contribution, asks for a resend or re-admits a convoy child. -/
  | msgReply (p : HawserPort) (m : Msg)
  /-- MSG_DETACH (R373): An arriving DETACH makes the node detach its children and start recovery GETs. -/
  | msgDetach (p : HawserPort) (m : Msg)
  /-- MSG_UNKNOWN (R366): An arriving message of unknown type or on a wrong PORT_IN is dropped with 0x5003. -/
  | msgUnknown (p : HawserPort) (m : Msg)
  /-- MESSAGE_FORWARD (R369): A message for another package is forwarded in transit, or dropped at the hop limit. -/
  | messageForward (p : HawserPort) (m : Msg)
  /-- ACK_TIMEOUT (R366): A message has had no answer after ACK_TIMEOUT_MS, so the peer is lost. -/
  | ackTimeout (xfer : Nat)
  /-- CONVOY_STALL_LIMIT (R373): A convoy edge has waited without credit for STALL_LIMIT_US, so the child is detached. -/
  | convoyStallLimit (convoy child : Nat)
  /-- BUCKET_DEADLINE (R402): DEADLINE_US passes after the owner's commit, so the bucket instance closes with its accepted count. -/
  | bucketDeadline (entry round bucket : Nat)
  /-- BUCKET_CLOSE_ACKED (R398): A close's landing writes are acknowledged, CLOSE_BOLLARD rises and the exponent record is updated. -/
  | bucketCloseAcked (entry round bucket : Nat)
  /-- LOWRANK_PROJECT (R412): A LOWRANK_PROJECT task forms a low-rank factor, optionally folding the residual first. -/
  | lowrankProject (t : TileId)
  /-- ORTHO_GRAM (R414): An ORTHO task in GRAM mode accumulates a Gram matrix. -/
  | orthoGram (t : TileId)
  /-- ORTHO_FACTOR (R414): An ORTHO task in FACTOR mode factors the Gram matrix and marks deficient columns. -/
  | orthoFactor (t : TileId)
  /-- ORTHO_APPLY (R414): An ORTHO task in APPLY mode orthonormalises rows, refreshing deficient columns. -/
  | orthoApply (t : TileId)
  /-- RECONSTRUCT_OWNER (R413): A RECONSTRUCT task in owner mode forms the reduced gradient. -/
  | reconstructOwner (t : TileId)
  /-- RECONSTRUCT_RESIDUAL (R413): A RECONSTRUCT task in residual mode updates the error-feedback residual, skipping refused Q buckets. -/
  | reconstructResidual (t : TileId)
  /-- OPT_STEP_SGD (R407): An OPT_STEP task with OPT_KIND 0 applies SGD with momentum, optionally broadcasting. -/
  | optStepSgd (t : TileId)
  /-- OPT_STEP_ADAMW (R407): An OPT_STEP task with OPT_KIND 1 applies AdamW, optionally broadcasting. -/
  | optStepAdamw (t : TileId)
  /-- REQUEST_TARGET (R434): A write to REQUEST_TARGET requests a securing and sends the target to the secure group. -/
  | requestTarget (src : Src) (value : Nat)
  /-- SECURE_COPY (R439): A SECURE_COPY task copies one chunk of the frozen half to the stores. -/
  | secureCopy (t : TileId) (units : Nat)
  /-- SECURE_COMMIT (R440): Every chunk is acknowledged at every store, so the commit record is written and the swap begins. -/
  | secureCommit
  /-- SWAP_DONE (R433): The swap ends: the other half is live, and the committed step, LOCAL_VALID and DONE_BOLLARD are updated. -/
  | swapDone
  /-- SECURE_TIMEOUT (R441): SECURE_TIMEOUT_MS passes with no commit, so the copy is abandoned and the swap runs. -/
  | secureTimeout
  /-- RESTORE_LOAD (R445): RESTORE_COMMAND LOAD starts restoring a committed record after the stream check. -/
  | restoreLoad (src : Src) (remote : List Byte)
  /-- RESTORE_LOAD_DONE (R445): LOAD finishes writing and checking the chunks, sets STEP and advances MASTER_VERSION by 2, or fails. -/
  | restoreLoadDone (remote : List Byte)
  /-- RESTORE_VERIFY (R447): RESTORE_COMMAND VERIFY starts comparing chunk digests with the replicas. -/
  | restoreVerify (src : Src)
  /-- RESTORE_VERIFY_DONE (R447): VERIFY finishes, reaching VERIFIED or failing with 0x7013. -/
  | restoreVerifyDone (replicas : List (List Nat))
  /-- SEQUENCER_ROUND (R461): A round of conversions starts at the full or the sleep period, with the plausibility pair first when it is due. -/
  | sequencerRound
  /-- ADC_CONVERSION_DONE (R459): A converter result lands and is filtered; the last result of a round evaluates plausibility and the rules. -/
  | adcConversionDone (conv : Fin 2) (code : Int)
  /-- ADC_DATA_READ (R459): A read of ADC0_DATA or ADC1_DATA in direct mode returns the result and clears VALID and OVR. -/
  | adcDataRead (src : Src) (conv : Fin 2)
  /-- FILTER_WRITE (R463): A write to a channel's filter mode or shift resets the filter, or a write to a threshold is re-evaluated. -/
  | filterWrite (src : Src) (ch : Fin 64) (member value : Nat)
  /-- RULE_WRITE (R466): A write to a decision rule is checked, and it releases the rule if it holds. -/
  | ruleWrite (src : Src) (rule : Fin 64) (value : Nat)
  /-- OSC_RECALIBRATION (R455): Every 10 s the lighthouse RC oscillator is recalibrated against MREF25. -/
  | oscRecalibration
  /-- RISK_UPDATE (R471): Every 10 ms the risk estimate is recomputed and may request a securing. -/
  | riskUpdate
  /-- AGEING_SAMPLE (R468): Once a minute the ageing indicators are sampled and the end-of-life predictions refreshed. -/
  | ageingSample (slow : List Int) (drift : List (Nat × Nat)) (corrected : List Nat)
  /-- AGEING_DAY_END (R470): Once a day the daily means are kept and the ageing history is saved. -/
  | ageingDayEnd
  /-- HL_PERST_ASSERT (R508): HLx_PERST_N is asserted, which resets only that CXL port. -/
  | hlPerstAssert (port : HostPort)
  /-- HL_PERST_RELEASE (R507): HLx_PERST_N is released and the port enters link training. -/
  | hlPerstRelease (port : HostPort)
  /-- CXL_LINK_UP (R508): A CXL port reaches L0, and WINDOW_READY is restored past start-up. -/
  | cxlLinkUp (port : HostPort) (rate width : Nat)
  /-- CXL_LINK_DOWN (R511): A CXL link goes down, dropping its snoop filter lines. -/
  | cxlLinkDown (port : HostPort)
  /-- CXL_CONFIG_REQUEST (R507): A configuration request is served, or completed with RRS before WINDOW_READY. -/
  | cxlConfigRequest (port : HostPort) (req : CfgReq)
  /-- HDM_ACCESS (R511): A host read or write of context DRAM is served at the coherence point, possibly after back-invalidation. -/
  | hdmAccess (port : HostPort) (pa : Nat) (op : HdmOp)
  /-- BI_SNOOP_RESPONSE (R511): A host's response to a back-invalidation snoop arrives, releasing the waiting access. -/
  | biSnoopResponse (port : HostPort) (line : Nat) (data : Option (List Byte))
  /-- WAKE_N_TIMEOUT (R509): HLx_WAKE_N has been asserted for 1 s without the link reaching L0, and is released. -/
  | wakeNTimeout (port : HostPort)
  /-- NOTICE_WRITE_DONE (R516): A notice write is acknowledged, so MSI-X vector 0 may be sent. -/
  | noticeWriteDone
  /-- NOTICE_CONSUMER_WRITE (R515): A write to CONSUMER advances the consumer index and rearms vector 0. -/
  | noticeConsumerWrite (port : HostPort) (value : Nat)
  /-- RING_ENABLE (R515): RING_APPLY 1 enables the notice ring with the staged members and zeroes the indices. -/
  | ringEnable (port : HostPort)
  /-- RING_DISABLE (R515): RING_APPLY 0 disables the notice ring. -/
  | ringDisable (port : HostPort)
  /-- DOE_DISCOVERY (R517): A DOE Discovery request is answered with the supported protocols. -/
  | doeDiscovery (port : HostPort) (index : Nat)
  /-- DOE_TABLE_ACCESS (R517): A Table Access request returns the CDAT. -/
  | doeTableAccess (port : HostPort) (entry : Nat)
  /-- SPDM_GET_VERSION (R527): GET_VERSION resets its path's SPDM state and returns the version. -/
  | spdmGetVersion (path : SpdmPath)
  /-- SPDM_GET_CAPABILITIES (R527): GET_CAPABILITIES returns the responder's capabilities. -/
  | spdmGetCapabilities (path : SpdmPath)
  /-- SPDM_NEGOTIATE_ALGORITHMS (R527): NEGOTIATE_ALGORITHMS selects SHA-384 with brainpoolP384r1, or returns ERROR. -/
  | spdmNegotiateAlgorithms (path : SpdmPath) (offersP384 offersSha384 : Bool)
  /-- SPDM_GET_DIGESTS (R527): GET_DIGESTS returns the certificate chain digests. -/
  | spdmGetDigests (path : SpdmPath)
  /-- SPDM_GET_CERTIFICATE (R526): GET_CERTIFICATE returns the slot 0 chain. -/
  | spdmGetCertificate (path : SpdmPath) (slot offset length : Nat)
  /-- SPDM_CHALLENGE (R527): CHALLENGE is answered with a response signed by the alias key. -/
  | spdmChallenge (path : SpdmPath) (slot : Nat) (nonce : List Byte)
  /-- SPDM_GET_MEASUREMENTS (R528): GET_MEASUREMENTS returns the measurement blocks. -/
  | spdmGetMeasurements (path : SpdmPath) (index : Nat) (signed : Bool) (nonce : List Byte)
  /-- SPDM_UNSUPPORTED (R527): An unsupported or malformed SPDM request is answered with ERROR. -/
  | spdmUnsupported (path : SpdmPath) (request : Nat) (malformed : Bool)
  /-- DAD_COMPLETE (R519): Duplicate address detection ends, and the address becomes preferred or duplicate. -/
  | dadComplete (duplicate : Bool)
  /-- NEIGHBOUR_SOLICITATION (R519): A neighbour solicitation is answered. -/
  | neighbourSolicitation (srcAddr target : Nat)
  /-- ECHO_REQUEST (R519): An echo request is answered. -/
  | echoRequest (srcAddr : Nat) (data : List Byte)
  /-- PLCA_BEACON_TIMEOUT (R518): A follower hears no beacon for 4 ms, stops sending and reports status 2. -/
  | plcaBeaconTimeout
  /-- TEST_RESET (R520): A test reset selects IDCODE. -/
  | testReset
  /-- EXTEST (R520): The EXTEST instruction drives the boundary register in AUX, and acts as BYPASS otherwise. -/
  | extest (bits : Nat)
  /-- IDCODE (R520): The IDCODE instruction selects the identification register. -/
  | idcode
  /-- SAMPLE_PRELOAD (R520): The SAMPLE/PRELOAD instruction captures or preloads the boundary register. -/
  | samplePreload (bits : Nat)
  /-- HIGHZ (R520): The HIGHZ instruction floats the boundary outputs in AUX, and acts as BYPASS otherwise. -/
  | highz
  /-- CLAMP (R520): The CLAMP instruction holds the boundary outputs and selects bypass, in AUX only. -/
  | clamp
  /-- BYPASS (R520): The BYPASS instruction, or any undefined opcode, selects the bypass register. -/
  | bypass
  /-- PRIVATE_INSTRUCTION (R520): A private opcode acts only while debug access is enabled, and as BYPASS otherwise. -/
  | privateInstruction (opcode : Nat)
  /-- FW_IMAGE_DOWNLOAD (R524): A FW_IMAGE download closes: it is validated, the target slot's record is erased, and writing begins. -/
  | fwImageDownload (src : Src) (image : List Byte)
  /-- FW_WRITE_DONE (R524): The firmware image is written and verified in the slot that is not running. -/
  | fwWriteDone (ok : Bool)
  /-- FW_ACTIVATE (R524): A write of 1 to FW_ACTIVATE commits the target slot with the next ACTIVE_SEQ. -/
  | fwActivate (src : Src)
  /-- SVN_COMMIT (R525): A write of 1 to SVN_COMMIT raises the fused ARB_COUNTER to the running SVN. -/
  | svnCommit (src : Src)
  /-- DEBUG_KEY_HASH_SET (R529): A one-time download sets the fused DEBUG_KEY_HASH. -/
  | debugKeyHashSet (hash : List Byte)
  /-- DEBUG_TOKEN (R529): A downloaded debug token is checked and enables debug access, or is refused and consumes the nonce. -/
  | debugToken (token : List Byte)
  /-- DEBUG_END (R529): A write of 1 to DEBUG_END ends debug access. -/
  | debugEnd (src : Src)
  /-- DEBUG_EXPIRY (R529): The token's duration expires and debug access ends. -/
  | debugExpiry
  /-- POWER_LOSS (R490): 48 V is lost at both clamps, so the lighthouse loses its supply and the device falls to OFF with no orderly shutdown. -/
  | powerLoss
  /-- MANAGEMENT_REFERENCE_LOSS (R494): The 25 MHz MREF25 reference disappears, so the 10BASE-T1S port stops and the lighthouse timing falls back to its ±5 % oscillator. -/
  | managementReferenceLoss
  /-- MANAGEMENT_REFERENCE_RETURN (R518): MREF25 returns, so the management port starts again with duplicate address detection and the oscillator recalibration resumes. -/
  | managementReferenceReturn
  /-- PLCA_BEACON (R518): A PLCA beacon is heard by a follower that had reported no beacon, so it resumes sending in its transmit opportunity. -/
  | plcaBeacon
  /-- CREDIT_RETURN (R362): Credit returns and flit acknowledgements arrive in a link control flit, freeing sender credits and replay-buffer entries so that waiting flits may be sent. -/
  | creditReturn (p : HawserPort) (vc n : Nat) (ack : LinkAck)
  deriving DecidableEq, Repr

end Sys2Proof
end

