-- ==== Sys2Proof/Decode.lean ====
section
/-! DEFINITION. Decoding by the table's bits: spec/opcode_table.json gives no row bits. -/

namespace Sys2Proof

/-- The command a word spells by the bits of the table: no row of the table has bits, so none. -/
def decodeTableWord (_nbits _w : Nat) : Option Instr := none

end Sys2Proof
end

