-- ==== Sys2Proof/Machine/Map.lean ====
section
/-! DEFINITION. Sparse tables, memory cells in canonical form, and the bit and byte helpers every chapter uses. -/

namespace Sys2Proof.Machine

/-- The value a table holds at a key, if it holds one. -/
def mget? {α : Type} : AMap α → Nat → Option α
  | [], _ => none
  | (j, v) :: r, k => if j = k then some v else mget? r k

/-- The value at a key, or the default the caller names. -/
def mgetD {α : Type} (m : AMap α) (k : Nat) (d : α) : α := (mget? m k).getD d

/-- Write one key, keeping the keys rising. -/
def mset {α : Type} : AMap α → Nat → α → AMap α
  | [], k, v => [(k, v)]
  | (j, w) :: r, k, v =>
    if k < j then (k, v) :: (j, w) :: r
    else if j = k then (k, v) :: r
    else (j, w) :: mset r k v

/-- Remove one key. -/
def merase {α : Type} : AMap α → Nat → AMap α
  | [], _ => []
  | (j, w) :: r, k => if j = k then merase r k else (j, w) :: merase r k

/-- Change the value at a key (from the default where absent). -/
def mmod {α : Type} (m : AMap α) (k : Nat) (d : α) (f : α → α) : AMap α := mset m k (f (mgetD m k d))

/-- Keep only the keys a test accepts. -/
def mfilter {α : Type} (p : Nat → Bool) (m : AMap α) : AMap α := m.filter (fun e => p e.1)

/-- Keys strictly rising. -/
def mwf {α : Type} : AMap α → Bool
  | [] => true
  | [_] => true
  | (j, _) :: (k, w) :: r => decide (j < k) && mwf ((k, w) :: r)

/-- Bits hi:lo of a number (R6). -/
def bits (v hi lo : Nat) : Nat := (v >>> lo) % 2 ^ (hi + 1 - lo)

/-- Bit n of a number. -/
def bit (v n : Nat) : Bool := v.testBit n

/-- A number with bits hi:lo replaced. -/
def setBits (v hi lo x : Nat) : Nat :=
  (v >>> (hi + 1)) <<< (hi + 1) + (x % 2 ^ (hi + 1 - lo)) <<< lo + v % 2 ^ lo

/-- A number with one bit set or cleared. -/
def setBit (v n : Nat) (b : Bool) : Nat := setBits v n n (if b then 1 else 0)

/-- The n low bytes of a number, least significant first (R39). -/
def leBytes : Nat → Nat → List Byte
  | 0, _ => []
  | n + 1, v => BitVec.ofNat 8 v :: leBytes n (v / 256)

/-- The number a little-endian byte string holds. -/
def ofLe : List Byte → Nat
  | [] => 0
  | b :: r => b.toNat + 256 * ofLe r

/-- The number a big-endian byte string holds. -/
def ofBe (l : List Byte) : Nat := ofLe l.reverse

/-- The n low bytes of a number, most significant first. -/
def beBytes (n v : Nat) : List Byte := (leBytes n v).reverse

/-- The field of `len` bytes at `off` of a byte string, little-endian; bytes beyond the end count as 0. -/
def field (l : List Byte) (off len : Nat) : Nat := ofLe ((l.drop off).take len)

/-- Read n bits as two's complement. -/
def toSigned (n v : Nat) : Int := if v % 2 ^ n < 2 ^ (n - 1) then (v % 2 ^ n : Nat) else (v % 2 ^ n : Nat) - (2 ^ n : Nat)

/-- Write an integer in n bits of two's complement. -/
def ofSigned (n : Nat) (v : Int) : Nat := (v % (2 ^ n : Nat)).toNat

/-- Counters that saturate (R52, R75, R531). -/
def satAdd (w v n : Nat) : Nat := min (2 ^ w - 1) (v + n)

/-- A number held to a range. -/
def clampInt (lo hi v : Int) : Int := max lo (min hi v)

/-- The largest k with 2^k ≤ n, and 0 for 0. -/
def ilog2 (n : Nat) : Nat := Nat.log2 n

/-- A byte string of n zeros. -/
def zeros (n : Nat) : List Byte := List.replicate n 0

/-- Replace bytes of a string from an offset. -/
def patch (l : List Byte) (off : Nat) (new : List Byte) : List Byte :=
  l.take off ++ new ++ l.drop (off + new.length)

/-- The elements of a list at the given positions, absent positions left out. -/
def pickAt {α : Type} (l : List α) (idx : List Nat) : List α := idx.filterMap (fun i => l[i]?)

/-- Cut a list into pieces of n elements (at most `fuel` pieces). -/
def chunks {α : Type} (n : Nat) : Nat → List α → List (List α)
  | 0, _ => []
  | _, [] => []
  | k + 1, l => l.take n :: chunks n k (l.drop n)

/-- Apply a function once per number from 0 to n − 1, in order. -/
def iter {σ : Type} : Nat → (Nat → σ → σ) → σ → σ
  | 0, _, s => s
  | n + 1, f, s => f n (iter n f s)

/-- CRC-32, IEEE 802.3 polynomial, reflected, initial and final value all ones (R72; the reflection is PRESUMED, log 15). -/
def crc32Step (c : Nat) : Nat := if c % 2 = 1 then (c / 2) ^^^ 0xEDB88320 else c / 2

def crc32Byte (c : Nat) (b : Byte) : Nat :=
  iter 8 (fun _ x => crc32Step x) (c ^^^ b.toNat)

def crc32 (l : List Byte) : Nat := (l.foldl crc32Byte 0xFFFFFFFF) ^^^ 0xFFFFFFFF

end Sys2Proof.Machine
end

