-- ==== Sys2Proof/Machine/Ecdsa.lean ====
section
/-! DEFINITION. ECDSA verification on brainpoolP384r1 (R521, R529). The curve's constants are PRESUMED from RFC 5639 (log 15). -/

namespace Sys2Proof.Machine

namespace Ec

def p : Nat := 0x8CB91E82A3386D280F5D6F7E50E641DF152F7109ED5456B412B1DA197FB71123ACD3A729901D1A71874700133107EC53
def a : Nat := 0x7BC382C63D8C150C3C72080ACE05AFA0C2BEA28E4FB22787139165EFBA91F90F8AA5814A503AD4EB04A8C7DD22CE2826
def b : Nat := 0x04A8C7DD22CE28268B39B55416F0447C2FB77DE107DCD2A62E880EA53EEB62D57CB4390295DBC9943AB78696FA504C11
def gx : Nat := 0x1D1C64F068CF45FFA2A63A81B7C13F6B8847A3E77EF14FE3DB7FCAFE0CBD10E8E826E03436D646AAEF87B2E247D4AF1E
def gy : Nat := 0x8ABE1D7520F9C2A45CB1EB8E95CFD55262B70B29FEEC5864E19C054FF99129280E4646217791811142820341263C5315
def n : Nat := 0x8CB91E82A3386D280F5D6F7E50E641DF152F7109ED5456B31F166E6CAC0425A7CF3AB6AF6B7FC3103B883202E9046565

/-- A point in Jacobian coordinates; z = 0 is the point at infinity. -/
structure Pt where
  x : Nat
  y : Nat
  z : Nat
  deriving DecidableEq, Repr

def sub (u v : Nat) : Nat := (u + p - v % p) % p

def dbl (q : Pt) : Pt :=
  if q.z = 0 ∨ q.y = 0 then ⟨1, 1, 0⟩ else
  let yy := q.y * q.y % p
  let s := 4 * q.x * yy % p
  let zz := q.z * q.z % p
  let m := (3 * q.x * q.x + a * (zz * zz % p)) % p
  let x' := sub (m * m % p) (2 * s)
  ⟨x', sub (m * sub s x' % p) (8 * yy * yy), 2 * q.y * q.z % p⟩

def add (q r : Pt) : Pt :=
  if q.z = 0 then r else if r.z = 0 then q else
  let z1 := q.z * q.z % p
  let z2 := r.z * r.z % p
  let u1 := q.x * z2 % p
  let u2 := r.x * z1 % p
  let s1 := q.y * z2 % p * r.z % p
  let s2 := r.y * z1 % p * q.z % p
  if u1 = u2 then (if s1 = s2 then dbl q else ⟨1, 1, 0⟩) else
  let h := sub u2 u1
  let rr := sub s2 s1
  let hh := h * h % p
  let hhh := hh * h % p
  let v := u1 * hh % p
  let x' := sub (sub (rr * rr % p) hhh) (2 * v)
  ⟨x', sub (rr * sub v x' % p) (s1 * hhh), q.z * r.z % p * h % p⟩

/-- k · q, k below 2^bits. -/
def mulGo : Nat → Nat → Pt → Pt
  | 0, _, _ => ⟨1, 1, 0⟩
  | i + 1, k, q => let r := dbl (mulGo i (k / 2) q); if k % 2 = 1 then add r q else r

def mul (k : Nat) (q : Pt) : Pt := mulGo 384 k q

/-- x^e mod m, e below 2^bits. -/
def powGo (m x : Nat) : Nat → Nat → Nat
  | 0, _ => 1
  | i + 1, e => let r := powGo m x i (e / 2); if e % 2 = 1 then r * r % m * x % m else r * r % m

def inv (m x : Nat) : Nat := powGo m (x % m) 384 (m - 2)

def onCurve (x y : Nat) : Bool := decide (x < p ∧ y < p) && (y * y % p == (x * x % p * x + a * x + b) % p)

/-- The affine x of a point modulo the group order. -/
def xMod (q : Pt) : Nat := (q.x * inv p (q.z * q.z % p) % p) % n

end Ec

/-- Verify a signature r ‖ s (96 bytes) over a message with SHA-384, by an uncompressed public point (97 bytes). -/
def ecdsaVerify (key msg sig : List Byte) : Bool :=
  let x := ofBe ((key.drop 1).take 48)
  let y := ofBe ((key.drop 49).take 48)
  let r := ofBe (sig.take 48)
  let s := ofBe ((sig.drop 48).take 48)
  let e := ofBe (sha384 msg)
  key.length == 97 && sig.length == 96 && key.headD 0 == 4 && Ec.onCurve x y
  && decide (0 < r ∧ r < Ec.n ∧ 0 < s ∧ s < Ec.n)
  && (let w := Ec.inv Ec.n s
      let q := Ec.add (Ec.mul (e * w % Ec.n) ⟨Ec.gx, Ec.gy, 1⟩) (Ec.mul (r * w % Ec.n) ⟨x, y, 1⟩)
      q.z != 0 && Ec.xMod q == r)

end Sys2Proof.Machine
end

