-- ==== Sys2Proof/Config.lean ====
section
/-! DEFINITION. What the manual leaves to the device at hand or leaves open: constants with no body, of which no proof can know a value. -/

namespace Sys2Proof.Config

/-- A fresh value where the manual says only that there is one: the n-th that the model draws (log 7). -/
opaque freeNat : Nat → Nat

/-- Fused and marked values of the device at hand (log 6). -/
opaque dateCode : Nat
opaque macAddress : Nat
/-- The packing of the device at hand: an even value is S, one package in a sealed case, an odd one T, a tray (R36, log 6). -/
opaque packing : Nat
/-- The serial number's two site letters and its ten digits, year, week and sequence, each of them reduced to its range (R37, log 6). -/
opaque serialSite : Nat → Nat
opaque serialDigit : Nat → Nat
opaque fwKeyHash : List Byte
opaque vendorId : Nat
opaque jedecId : Nat
/-- Fused F32 calibration of a lighthouse channel, scale and offset, as binary32 patterns (R456, log 6). -/
opaque channelScale : Nat → Nat
opaque channelOffset : Nat → Nat
/-- Fresh ring-oscillator frequency in kHz of ring n (R476, log 6). -/
opaque roBaseline : Nat → Nat
/-- The image the device was shipped with: its VERSION_STRING, SVN and section digests (log 4). -/
opaque shippedVersion : List Byte
opaque shippedSvn : Nat
opaque shippedLhDigest : List Byte
opaque shippedHmDigest : List Byte
/-- Digest of the boot ROM (R528). -/
opaque romDigest : List Byte
/-- The fused configuration that measurement block 4 covers beside SVN and ARB_COUNTER (R528, log 6). -/
opaque fusedConfig : List Byte

/-- How far the local timer moves on a step with no command (log 2). -/
opaque tick : Nat → Nat

/-- The bytes of 0x9302 whose layout the manual does not give (R476): position to byte, for the n-th draw (log 7). -/
opaque ageingByte : Nat → Nat → Byte

/-- Certificates (R526): the two of Harzan and the identity certificate before and after its subject's serial number, the alias
certificate for a lighthouse digest and
an SVN, and a signature by the alias key for the n-th draw (log 11). -/
opaque rootCert : List Byte
opaque intermediateCert : List Byte
opaque identityCertHead : List Byte
opaque identityCertTail : List Byte
opaque aliasCert : List Byte → Nat → List Byte
opaque aliasSignature : Nat → List Byte → List Byte

/-- The bytes of the CXL and PCIe standards' configuration space the manual only names (R505; log 15). -/
opaque standardConfig : Nat → Nat

/-- The ZD1's implementation of a function (R208): function's number and binary32 pattern of the argument to the pattern of the result
(log 7). -/
opaque zd1Fn : Nat → Nat → Nat

/-- Which of the four binary32 values within 2 units in the last place of the exact result the vector unit's function gives (R197), for
a function's number and the binary32 pattern of its argument (log 7). -/
opaque vecUlp : Nat → Nat → Nat

/-- The order code as marked, ZD2-P36-ss-k for stepping B0 (R36). -/
def orderCode : List Byte :=
  [0x5A, 0x44, 0x32, 0x2D, 0x50, 0x33, 0x36, 0x2D, 0x42, 0x30, 0x2D, if packing % 2 = 0 then 0x53 else 0x54]

/-- The serial number as marked: two letters, then ten digits (R37). -/
def serial : List Byte :=
  [BitVec.ofNat 8 (65 + serialSite 0 % 26), BitVec.ofNat 8 (65 + serialSite 1 % 26)]
    ++ (List.range 10).map (fun i => BitVec.ofNat 8 (48 + serialDigit i % 10))

/-- The identity certificate: its subject's serial number is the serial of the identity objects (R37, R526). -/
def identityCert : List Byte := identityCertHead ++ serial ++ identityCertTail

/-- The range of a class whose history's maximum times 2^MARGIN_EXP lies beyond binary32, for the pattern of that maximum: R220 states
none (log 7). -/
opaque rangeBeyond : Nat → BitVec 32

end Sys2Proof.Config
end

