-- ==== Sys2Proof/Machine/Objects.lean ====
section
/-! DEFINITION. The object table: type, access, persistence, default, range and write condition of every object of the dictionary, as its chapter gives them (R40). -/

namespace Sys2Proof.Machine

/-- Types of R39; a DOMAIN with its fixed size, its bound, or a size per LAYERS or REDUCTIONS entry of the plan. -/
inductive OType where
  | bool | u8 | u16 | u32 | u64 | i8 | i16 | i32 | f32 | vstr
  | dom (size : Nat) | domMax (bound : Nat) | domLayers (per extra : Nat) | domReductions (per : Nat)
  deriving DecidableEq, Repr

/-- Access classes (R41). -/
inductive Access where
  | const | ro | wo | rw | rwMgmt
  deriving DecidableEq, Repr

/-- Persistence classes (R42). -/
inductive Persist where
  | volatile | saved | fused | none
  deriving DecidableEq, Repr

/-- Write conditions (R43): `halted` of the owning context, `haltedAll` of an object no single context owns, `secure` of
the objects tied to SECURE_CONTEXT (R449), `trim` of the trim domains (R174). -/
inductive Cond where
  | any | idle | halted | haltedAll | secure | trim
  deriving DecidableEq, Repr

/-- Ranges of values (R40). -/
inductive Range where
  | any
  | between (lo hi : Nat)
  | oneOf (vs : List Nat)
  | orElse (hi other : Nat)
  | multiple (lo hi k : Nat)
  | aligned (k : Nat)
  | pow2 (lo hi : Nat)
  | forbid (mask : Nat)
  | f32 (lo hi : Nat)
  | root
  | rule
  deriving DecidableEq, Repr

/-- One row of the table: a range of indices and of subindices that share a definition. -/
structure ObjDef where
  idxLo : Nat
  idxHi : Nat
  subLo : Nat
  subHi : Nat
  type : OType
  access : Access
  persist : Persist
  dflt : Nat
  range : Range
  cond : Cond
  /-- Not reachable in NAP (R48). -/
  nap : Bool
  hostOnly : Bool
  live : Bool
  staged : Bool
  /-- Device-maintained (R64). -/
  dev : Bool
  deriving DecidableEq, Repr

def objRows1 : List ObjDef := [
  ⟨0x1000, 0x1000, 0, 0, .u32, .const, .fused, 0x5A440236, .any, .any, false, false, false, false, false⟩ /- DEVICE_TYPE R66 -/,
  ⟨0x1008, 0x1008, 0, 0, .vstr, .const, .fused, 0, .any, .any, false, false, false, false, false⟩ /- DEVICE_NAME R66 -/,
  ⟨0x100A, 0x100A, 0, 0, .vstr, .ro, .volatile, 0, .any, .any, false, false, false, false, false⟩ /- FIRMWARE_VERSION R66 -/,
  ⟨0x1010, 0x1010, 1, 1, .u8, .wo, .none, 0, (.oneOf [1]), .any, false, false, false, false, false⟩ /- STORE_SAVE R66 -/,
  ⟨0x1010, 0x1010, 2, 2, .u8, .wo, .none, 0, (.oneOf [1]), .any, false, false, false, false, false⟩ /- STORE_DEFAULTS R66 -/,
  ⟨0x1011, 0x1011, 1, 1, .u8, .ro, .volatile, 0, .any, .any, false, false, false, false, false⟩ /- STORE_STATE R66 -/,
  ⟨0x1011, 0x1011, 2, 2, .u32, .ro, .volatile, 0, .any, .any, false, false, false, false, false⟩ /- STORE_GENERATION R66 -/,
  ⟨0x1011, 0x1011, 3, 3, .u16, .ro, .volatile, 0, .any, .any, false, false, false, false, false⟩ /- STORE_RESULT R66 -/,
  ⟨0x1018, 0x1018, 1, 1, .u32, .const, .fused, 0x4841525A, .any, .any, false, false, false, false, false⟩ /- VENDOR_CODE R66 -/,
  ⟨0x1018, 0x1018, 2, 2, .vstr, .const, .fused, 0, .any, .any, false, false, false, false, false⟩ /- ORDER_CODE R66 -/,
  ⟨0x1018, 0x1018, 3, 3, .vstr, .const, .fused, 0, .any, .any, false, false, false, false, false⟩ /- STEPPING R66 -/,
  ⟨0x1018, 0x1018, 4, 4, .vstr, .const, .fused, 0, .any, .any, false, false, false, false, false⟩ /- SERIAL R66 -/,
  ⟨0x1018, 0x1018, 5, 5, .u16, .const, .fused, 0, .any, .any, false, false, false, false, false⟩ /- DATE_CODE R66 -/,
  ⟨0x1018, 0x1018, 6, 6, .u64, .const, .fused, 0, .any, .any, false, false, false, false, false⟩ /- MAC_ADDRESS R66 -/,
  ⟨0x1100, 0x1100, 1, 1, .u16, .rwMgmt, .saved, 33280, (.between 1024 65535), .any, false, false, false, false, false⟩ /- ODP_PORT R66 -/,
  ⟨0x1100, 0x1100, 2, 2, .u64, .rwMgmt, .saved, 0, .any, .any, false, false, false, false, false⟩ /- EVENT_SUBSCRIBER R66 -/,
  ⟨0x1100, 0x1100, 3, 3, .u16, .rwMgmt, .saved, 33281, (.between 1024 65535), .any, false, false, false, false, false⟩ /- EVENT_SUB_PORT R66 -/,
  ⟨0x1200, 0x1201, 1, 1, .bool, .ro, .volatile, 0, .any, .any, false, false, false, false, false⟩ /- WINDOW_READY R52 -/,
  ⟨0x1200, 0x1201, 2, 2, .u16, .ro, .volatile, 0, .any, .any, false, false, false, false, false⟩ /- LAST_ABORT R52 -/,
  ⟨0x1200, 0x1201, 3, 3, .u32, .ro, .volatile, 0, .any, .any, false, false, false, false, false⟩ /- LAST_TARGET R52 -/,
  ⟨0x1200, 0x1201, 4, 4, .u32, .ro, .volatile, 0, .any, .any, false, false, false, false, false⟩ /- ABORT_COUNT R52 -/,
  ⟨0x1300, 0x1301, 1, 1, .u8, .ro, .volatile, 0, .any, .any, false, false, false, false, false⟩ /- LINK_STATE R531 -/,
  ⟨0x1300, 0x1301, 2, 2, .u8, .ro, .volatile, 0, .any, .any, false, false, false, false, false⟩ /- RATE_GT R531 -/,
  ⟨0x1300, 0x1301, 3, 3, .u8, .ro, .volatile, 0, .any, .any, false, false, false, false, false⟩ /- WIDTH R531 -/,
  ⟨0x1300, 0x1301, 4, 4, .u64, .ro, .volatile, 0, .any, .any, false, false, false, false, false⟩ /- LINK_DOWNS R531 -/,
  ⟨0x1300, 0x1301, 5, 5, .u64, .ro, .volatile, 0, .any, .any, false, false, false, false, false⟩ /- BI_SNOOPS R531 -/,
  ⟨0x1300, 0x1301, 6, 6, .u64, .ro, .volatile, 0, .any, .any, false, false, false, false, false⟩ /- POISON_RX R531 -/,
  ⟨0x1310, 0x1310, 1, 1, .u64, .rw, .volatile, 0, (.aligned 4096), .any, false, true, false, true, false⟩ /- RING_BASE R515 -/,
  ⟨0x1310, 0x1310, 2, 2, .u32, .rw, .volatile, 1024, (.pow2 64 65536), .any, false, true, false, true, false⟩ /- RING_ENTRIES R515 -/,
  ⟨0x1310, 0x1310, 3, 3, .u8, .rw, .volatile, 0, (.between 0 1), .any, false, true, false, true, false⟩ /- RING_PORT R515 -/,
  ⟨0x1310, 0x1310, 4, 4, .u8, .wo, .none, 0, (.between 0 1), .any, false, true, false, false, false⟩ /- RING_APPLY R515 -/,
  ⟨0x1310, 0x1310, 5, 5, .u32, .ro, .volatile, 0, .any, .any, false, true, false, false, false⟩ /- PRODUCER R515 -/,
  ⟨0x1310, 0x1310, 6, 6, .u32, .rw, .volatile, 0, .any, .any, false, true, false, false, false⟩ /- CONSUMER R515 -/,
  ⟨0x1310, 0x1310, 7, 7, .u32, .ro, .volatile, 0, .any, .any, false, true, false, false, false⟩ /- NOTICES_DROPPED R515 -/,
  ⟨0x1311, 0x1311, 1, 1, .u8, .rw, .saved, 2, (.between 0 3), .any, false, false, false, false, false⟩ /- IRQ_EVENT_LEVEL R516 -/,
  ⟨0x1400, 0x1400, 1, 1, .u8, .rwMgmt, .saved, 255, .any, .any, false, false, false, false, false⟩ /- PLCA_NODE_ID R518 -/,
  ⟨0x1400, 0x1400, 2, 2, .u8, .rwMgmt, .saved, 8, (.between 1 255), .any, false, false, false, false, false⟩ /- PLCA_NODE_COUNT R518 -/,
  ⟨0x1400, 0x1400, 3, 3, .u8, .rwMgmt, .saved, 32, (.between 1 255), .any, false, false, false, false, false⟩ /- PLCA_TO_TIMER R518 -/,
  ⟨0x1400, 0x1400, 4, 4, .u8, .rwMgmt, .saved, 0, .any, .any, false, false, false, false, false⟩ /- PLCA_BURST_COUNT R518 -/,
  ⟨0x1400, 0x1400, 5, 5, .u8, .rwMgmt, .saved, 128, .any, .any, false, false, false, false, false⟩ /- PLCA_BURST_TIMER R518 -/,
  ⟨0x1400, 0x1400, 6, 6, .u8, .ro, .volatile, 0, .any, .any, false, false, false, false, false⟩ /- PLCA_STATUS R518 -/,
  ⟨0x1400, 0x1400, 7, 7, .u8, .ro, .volatile, 0, .any, .any, false, false, false, false, false⟩ /- ADDRESS_STATE R518 -/,
  ⟨0x1400, 0x1400, 8, 8, .u64, .ro, .volatile, 0, .any, .any, false, false, false, false, false⟩ /- FRAMES_RX R518 -/,
  ⟨0x1400, 0x1400, 9, 9, .u64, .ro, .volatile, 0, .any, .any, false, false, false, false, false⟩ /- FRAMES_TX R518 -/]

def objRows2 : List ObjDef := [
  ⟨0x2000, 0x2000, 1, 1, .u8, .const, .fused, 16, .any, .any, false, false, false, false, false⟩ /- COMPUTE_DIES R67 -/,
  ⟨0x2000, 0x2000, 2, 2, .u8, .const, .fused, 144, .any, .any, false, false, false, false, false⟩ /- TILES_PER_DIE R67 -/,
  ⟨0x2000, 0x2000, 3, 3, .u16, .ro, .volatile, 0, .any, .any, false, false, false, false, false⟩ /- TILES_PRESENT R67 -/,
  ⟨0x2000, 0x2000, 4, 4, .u64, .ro, .volatile, 0, .any, .any, false, false, false, false, false⟩ /- SPARES_LEFT R67 -/,
  ⟨0x2000, 0x2000, 5, 5, .u16, .ro, .saved, 0, .any, .any, false, false, false, false, true⟩ /- DOCKS_RETIRED R67 -/,
  ⟨0x2000, 0x2000, 6, 6, .u8, .const, .fused, 8, .any, .any, false, false, false, false, false⟩ /- DRAM_STACKS R67 -/,
  ⟨0x2100, 0x210F, 1, 144, .u32, .ro, .volatile, 0, .any, .any, false, false, false, false, false⟩ /- TILE_MAP R68 -/,
  ⟨0x2200, 0x2200, 1, 1, .u8, .rwMgmt, .saved, 0xFF, (.oneOf [0, 1, 0xFF]), .idle, false, false, false, true, false⟩ /- DOMAIN_ID R69 -/,
  ⟨0x2200, 0x2200, 2, 2, .u16, .rwMgmt, .saved, 0xFFFF, (.orElse 16383 0xFFFF), .idle, false, false, false, true, false⟩ /- PACKAGE_INDEX R69 -/,
  ⟨0x2200, 0x2200, 3, 3, .u16, .rwMgmt, .saved, 0xFFFF, (.orElse 16383 0xFFFF), .idle, false, false, false, true, false⟩ /- RACK_SLOT R69 -/,
  ⟨0x2200, 0x2200, 4, 4, .u8, .wo, .none, 0, (.oneOf [1]), .idle, false, false, false, false, false⟩ /- POSITION_APPLY R69 -/,
  ⟨0x2210, 0x2210, 0, 0, .u32, .rwMgmt, .saved, 0, (.between 0 0xFFFFFFFE), .idle, false, false, false, false, false⟩ /- POWER_DOMAIN_ID R70 -/,
  ⟨0x2400, 0x2400, 1, 1, .u64, .rw, .volatile, 0, .any, .idle, false, false, false, false, false⟩ /- PLAN_ADDRESS R82 -/,
  ⟨0x2400, 0x2400, 2, 2, .u32, .rw, .volatile, 0, .any, .idle, false, false, false, false, false⟩ /- PLAN_LENGTH R82 -/,
  ⟨0x2400, 0x2400, 3, 3, .u8, .wo, .none, 0, (.oneOf [1, 2]), .any, false, false, false, false, false⟩ /- PLAN_COMMAND R82 -/,
  ⟨0x2400, 0x2400, 4, 4, .u8, .ro, .volatile, 0, .any, .any, false, false, false, false, false⟩ /- PLAN_STATE R82 -/,
  ⟨0x2400, 0x2400, 5, 5, .u16, .ro, .volatile, 0, .any, .any, false, false, false, false, false⟩ /- PLAN_RESULT R82 -/,
  ⟨0x2400, 0x2400, 6, 6, .u16, .ro, .volatile, 0xFFFF, .any, .any, false, false, false, false, false⟩ /- PLAN_FAULT_SECTION R82 -/,
  ⟨0x2400, 0x2400, 7, 7, .u32, .ro, .volatile, 0xFFFFFFFF, .any, .any, false, false, false, false, false⟩ /- PLAN_FAULT_ENTRY R82 -/,
  ⟨0x2400, 0x2400, 8, 8, .u64, .ro, .volatile, 0, .any, .any, false, false, false, false, false⟩ /- PLAN_ID_LOADED R82 -/,
  ⟨0x2500, 0x2500, 1, 1, .u8, .wo, .none, 0, (.oneOf [1]), .idle, false, false, false, false, false⟩ /- SELF_TEST_RUN R110 -/,
  ⟨0x2500, 0x2500, 2, 2, .u8, .ro, .volatile, 0, .any, .any, false, false, false, false, false⟩ /- SELF_TEST_STATE R110 -/,
  ⟨0x2500, 0x2500, 3, 3, .u16, .ro, .volatile, 0, .any, .any, false, false, false, false, false⟩ /- FAILED_LAST_PASS R110 -/,
  ⟨0x2500, 0x2500, 4, 4, (.dom 96), .ro, .saved, 0, .any, .any, false, false, false, false, true⟩ /- SUBSTITUTION_MAP R110 -/,
  ⟨0x2500, 0x2500, 5, 5, .u32, .ro, .saved, 0, .any, .any, false, false, false, false, true⟩ /- SUBSTITUTIONS R110 -/,
  ⟨0x2600, 0x2600, 1, 1, .u16, .rw, .saved, 1024, (.multiple 64 8192 64), .idle, false, false, false, false, false⟩ /- SPILL_HEADROOM_KIB R285 -/,
  ⟨0x2600, 0x2600, 2, 2, .u16, .rw, .saved, 2048, (.multiple 128 12288 64), .idle, false, false, false, false, false⟩ /- PREFETCH_ROOM_KIB R285 -/,
  ⟨0x2600, 0x2600, 3, 3, .u16, .const, .fused, 8192, .any, .any, false, false, false, false, false⟩ /- MARK_LIMIT R285 -/,
  ⟨0x2601, 0x2601, 0, 0, (.dom 73728), .ro, .volatile, 0, .any, .any, true, false, true, false, false⟩ /- HOLD_STATE R286 -/,
  ⟨0x2602, 0x2602, 1, 10, .u64, .ro, .volatile, 0, .any, .any, true, false, false, false, false⟩ /- HOLD_COUNTERS R287 -/,
  ⟨0x2610, 0x2610, 1, 6, .u64, .ro, .volatile, 0, .any, .any, true, false, false, false, false⟩ /- ARRAY_COUNTERS R287 -/]

def objRows3 : List ObjDef := [
  ⟨0x3000, 0x3000, 1, 1, .u8, .wo, .none, 0, (.orElse 63 0xFF), .any, false, false, false, false, false⟩ /- CTX_OPEN R351 -/,
  ⟨0x3000, 0x3000, 2, 2, .u8, .ro, .volatile, 0xFF, .any, .any, false, false, false, false, false⟩ /- CTX_LAST_OPENED R351 -/,
  ⟨0x3000, 0x3000, 3, 3, .u8, .ro, .volatile, 0, .any, .any, false, false, false, false, false⟩ /- CTX_OPEN_COUNT R351 -/,
  ⟨0x3001, 0x3001, 1, 1, .u8, .rw, .volatile, 0, (.between 0 63), .any, false, false, false, true, false⟩ /- INV_CONTEXT R353 -/,
  ⟨0x3001, 0x3001, 2, 2, .u64, .rw, .volatile, 0, (.multiple 0 0xFFFFFFFFFFFF 65536), .any, false, false, false, true, false⟩ /- INV_VA R353 -/,
  ⟨0x3001, 0x3001, 3, 3, .u64, .rw, .volatile, 65536, (.multiple 65536 0x1000000000000 65536), .any, false, false, false, true, false⟩ /- INV_BYTES R353 -/,
  ⟨0x3001, 0x3001, 4, 4, .u8, .wo, .none, 0, (.oneOf [1, 2]), .any, false, false, false, false, false⟩ /- INV_APPLY R353 -/,
  ⟨0x3001, 0x3001, 5, 5, .u8, .ro, .volatile, 0, .any, .any, false, false, false, false, false⟩ /- INV_STATE R353 -/,
  ⟨0x3003, 0x3003, 1, 1, .u64, .const, .fused, 0x00FF00000000, .any, .any, false, false, false, false, false⟩ /- CONTEXT_DRAM_BYTES R354 -/,
  ⟨0x3003, 0x3003, 2, 2, .u64, .const, .fused, 0x00FF00000000, .any, .any, false, false, false, false, false⟩ /- RESERVED_BASE R354 -/,
  ⟨0x3003, 0x3003, 3, 3, .u64, .const, .fused, 0x010000000000, .any, .any, false, false, false, false, false⟩ /- SRAM_WINDOW_BASE R354 -/,
  ⟨0x3003, 0x3003, 4, 4, .u64, .const, .fused, 0x8000000000000, .any, .any, false, false, false, false, false⟩ /- HL0_WINDOW_BASE R354 -/,
  ⟨0x3003, 0x3003, 5, 5, .u64, .const, .fused, 0xC000000000000, .any, .any, false, false, false, false, false⟩ /- HL1_WINDOW_BASE R354 -/,
  ⟨0x3003, 0x3003, 6, 6, .u64, .const, .fused, 0x4000000000000, .any, .any, false, false, false, false, false⟩ /- HOST_WINDOW_BYTES R354 -/,
  ⟨0x3020, 0x3020, 1, 9, .u64, .ro, .volatile, 0, .any, .any, true, false, false, false, false⟩ /- MEMORY_COUNTERS R355 -/,
  ⟨0x3100, 0x313F, 1, 1, .u64, .rw, .volatile, 0, .root, .halted, false, false, false, false, false⟩ /- ROOT_TABLE R352 -/,
  ⟨0x3100, 0x313F, 2, 2, .u8, .ro, .volatile, 0, .any, .any, false, false, false, false, false⟩ /- CTX_STATE R352 -/,
  ⟨0x3100, 0x313F, 3, 3, .u8, .wo, .none, 0, (.oneOf [1, 2, 3]), .any, false, false, false, false, false⟩ /- CTX_COMMAND R352 -/,
  ⟨0x3100, 0x313F, 4, 4, .u16, .ro, .volatile, 0, .any, .any, false, false, false, false, false⟩ /- FAULT_CODE R352 -/,
  ⟨0x3100, 0x313F, 5, 5, .u64, .ro, .volatile, 0, .any, .any, false, false, false, false, false⟩ /- FAULT_VA R352 -/,
  ⟨0x3100, 0x313F, 6, 6, .u32, .ro, .volatile, 0xFFF00000, .any, .any, false, false, false, false, false⟩ /- FAULT_INFO R352 -/,
  ⟨0x3100, 0x313F, 7, 7, .u32, .ro, .volatile, 0, .any, .any, false, false, false, false, false⟩ /- FAULT_COUNT R352 -/]

def objRows4 : List ObjDef := [
  ⟨0x4000, 0x4000, 1, 1, .u8, .rw, .saved, 4, (.between 1 16), .idle, false, false, false, false, false⟩ /- RUN_AHEAD R320 -/,
  ⟨0x4000, 0x4000, 2, 2, .u32, .rw, .saved, 10000, (.between 10 600000), .any, false, false, false, false, false⟩ /- HANG_TIMEOUT R320 -/,
  ⟨0x4000, 0x4000, 3, 3, .u16, .rw, .saved, 1, (.between 1 65535), .idle, false, false, false, false, false⟩ /- REALIGN_EVERY R320 -/,
  ⟨0x4001, 0x4001, 1, 64, .u64, .rw, .volatile, 0, .any, .halted, false, false, false, false, false⟩ /- STEP R321 -/,
  ⟨0x4002, 0x4002, 1, 64, .u32, .ro, .volatile, 0, .any, .any, false, false, false, false, false⟩ /- EPOCH R321 -/,
  ⟨0x4003, 0x4003, 1, 64, .u8, .ro, .volatile, 0, .any, .any, false, false, false, false, false⟩ /- ATTEMPT R321 -/,
  ⟨0x4010, 0x4010, 1, 1, .u16, .rw, .volatile, 0, .any, .any, false, false, false, false, false⟩ /- BOLLARD_SELECT R321 -/,
  ⟨0x4010, 0x4010, 2, 2, .u32, .rw, .volatile, 0, .any, .halted, false, false, false, false, false⟩ /- BOLLARD_COUNT R321 -/,
  ⟨0x4010, 0x4010, 3, 3, .u8, .ro, .volatile, 0xFF, .any, .any, false, false, false, false, false⟩ /- BOLLARD_OWNER R321 -/,
  ⟨0x4010, 0x4010, 4, 4, .u16, .ro, .volatile, 0, .any, .any, false, false, false, false, false⟩ /- BOLLARD_WAITERS R321 -/,
  ⟨0x4011, 0x4011, 0, 0, (.dom 262144), .ro, .volatile, 0, .any, .any, false, false, true, false, false⟩ /- BOLLARD_COUNTS R321 -/,
  ⟨0x4020, 0x4020, 0, 0, (.dom 131072), .ro, .volatile, 0, .any, .any, true, false, true, false, false⟩ /- BERTH_STATE R322 -/,
  ⟨0x4021, 0x4021, 0, 0, .u16, .wo, .none, 0, .any, .any, false, false, false, false, false⟩ /- BERTH_FLUSH R321 -/,
  ⟨0x4030, 0x4030, 1, 10, .u64, .ro, .volatile, 0, .any, .any, false, false, false, false, false⟩ /- STREAM_COUNTERS R323 -/]

def objRows5 : List ObjDef := [
  ⟨0x5000, 0x5000, 1, 1, .u8, .rw, .volatile, 0, (.between 0 1), .idle, false, false, false, false, false⟩ /- NUM_MODE R210 -/,
  ⟨0x5000, 0x5000, 2, 2, .u8, .rw, .saved, 2, (.forbid 0x2C), .any, false, false, false, false, false⟩ /- LOG_MASK R210 -/,
  ⟨0x5001, 0x5001, 1, 9, .u64, .ro, .volatile, 0, .any, .any, true, false, false, false, false⟩ /- NUMERIC_COUNTERS R211 -/,
  ⟨0x5100, 0x5100, 0, 0, (.domLayers 32 0), .ro, .volatile, 0, .any, .any, false, false, true, false, false⟩ /- WIDTH_MAP R241 -/,
  ⟨0x5102, 0x5102, 0, 0, (.domLayers 784 16), .rw, .volatile, 0, .any, .haltedAll, false, false, false, false, false⟩ /- SCALE_HISTORY R243 -/,
  ⟨0x5110, 0x5110, 0, 0, (.domLayers 32 0), .rw, .volatile, 0, .any, .haltedAll, false, false, false, false, false⟩ /- WIDE_BINDING R242 -/,
  ⟨0x5120, 0x5120, 0, 0, (.domLayers 64 0), .ro, .volatile, 0, .any, .any, false, false, true, false, false⟩ /- LAYER_COUNTERS R244 -/,
  ⟨0x5200, 0x5200, 1, 1, .u8, .rw, .saved, 16, (.between 1 64), .idle, false, false, false, false, false⟩ /- HISTORY_STEPS R245 -/,
  ⟨0x5200, 0x5200, 2, 2, .u8, .rw, .saved, 1, (.between 0 4), .any, false, false, false, false, false⟩ /- MARGIN_EXP R245 -/,
  ⟨0x5300, 0x5300, 1, 1, .u16, .rw, .saved, 64, (.between 1 65535), .any, false, false, false, false, false⟩ /- SAT_LIMIT R246 -/,
  ⟨0x5300, 0x5300, 2, 2, .u16, .rw, .saved, 3277, (.between 1 65535), .any, false, false, false, false, false⟩ /- UFL_LIMIT R246 -/,
  ⟨0x5300, 0x5300, 3, 3, .u32, .rw, .saved, 4096, (.between 1 0xFFFFFFFF), .any, false, false, false, false, false⟩ /- MIN_ELEMENTS R246 -/,
  ⟨0x5300, 0x5300, 4, 4, .u8, .rw, .saved, 4, (.between 1 8), .idle, false, false, false, false, false⟩ /- FALLBACK_FWD_WIDTH R246 -/,
  ⟨0x5300, 0x5300, 5, 5, .u8, .rw, .saved, 8, (.between 4 8), .idle, false, false, false, false, false⟩ /- FALLBACK_GRAD_WIDTH R246 -/,
  ⟨0x5300, 0x5300, 6, 6, .u32, .rw, .saved, 512, .any, .any, false, false, false, false, false⟩ /- RECOVER_STEPS R246 -/,
  ⟨0x5300, 0x5300, 7, 7, .bool, .rw, .saved, 1, .any, .any, false, false, false, false, false⟩ /- NONFINITE_TRIP R246 -/,
  ⟨0x5300, 0x5300, 8, 8, .u8, .rw, .volatile, 0xFF, (.oneOf [0, 1, 2, 0xFF]), .haltedAll, false, false, false, false, false⟩ /- FORCE_LEVEL R246 -/,
  ⟨0x5300, 0x5300, 9, 9, .u64, .ro, .volatile, 0, .any, .any, false, false, false, false, false⟩ /- TRIPS R246 -/,
  ⟨0x5300, 0x5300, 10, 10, .u64, .ro, .volatile, 0, .any, .any, false, false, false, false, false⟩ /- REPLAYS R246 -/,
  ⟨0x5300, 0x5300, 11, 11, .u64, .ro, .volatile, 0, .any, .any, false, false, false, false, false⟩ /- SKIPPED_UPDATES R246 -/,
  ⟨0x5400, 0x5400, 1, 1, .u16, .rw, .saved, 64, .any, .any, false, false, false, false, false⟩ /- TALLY_RATE R247 -/,
  ⟨0x5400, 0x5400, 2, 2, .f32, .rw, .saved, 0x3F800000, (.f32 0x3F800000 0x41800000), .any, false, false, false, false, false⟩ /- BOUND_FACTOR R247 -/,
  ⟨0x5400, 0x5400, 3, 3, .u16, .rw, .saved, 20, (.between 1 1000), .any, false, false, false, false, false⟩ /- TALLY_TIMEOUT R247 -/,
  ⟨0x5400, 0x5400, 4, 4, .u8, .rw, .saved, 8, (.between 1 64), .idle, false, false, false, false, false⟩ /- SLOTS R247 -/,
  ⟨0x5400, 0x5400, 5, 5, .u64, .ro, .volatile, 0, .any, .any, false, false, false, false, false⟩ /- SAMPLES R247 -/,
  ⟨0x5400, 0x5400, 6, 6, .u64, .ro, .volatile, 0, .any, .any, false, false, false, false, false⟩ /- OUT_OF_BOUND R247 -/,
  ⟨0x5400, 0x5400, 7, 7, .u64, .ro, .volatile, 0, .any, .any, false, false, false, false, false⟩ /- EXPLAINED R247 -/,
  ⟨0x5400, 0x5400, 8, 8, .u64, .ro, .volatile, 0, .any, .any, false, false, false, false, false⟩ /- SKIPPED R247 -/,
  ⟨0x5410, 0x5410, 1, 64, .u64, .rw, .volatile, 0, (.multiple 0 0xFFFFFFFFFFFF 4194304), .halted, false, false, false, false, false⟩ /- TALLY_AREA R247 -/]

def objRows6 : List ObjDef := [
  ⟨0x6000, 0x6000, 0, 0, (.dom 73728), .ro, .volatile, 0, .any, .any, false, false, true, false, false⟩ /- DOCK_STATE R144 -/,
  ⟨0x6001, 0x6001, 1, 6, .u64, .ro, .volatile, 0, .any, .any, true, false, false, false, false⟩ /- DOCK_COUNTERS R145 -/,
  ⟨0x6100, 0x6100, 1, 1, .u8, .ro, .volatile, 0, .any, .any, false, false, false, false, false⟩ /- CAL_MODE R176 -/,
  ⟨0x6100, 0x6100, 2, 2, .f32, .rw, .saved, 0x40800000, (.f32 0x3F800000 0x41700000), .any, false, false, false, false, false⟩ /- CAL_DELTA_T R176 -/,
  ⟨0x6100, 0x6100, 3, 3, .u16, .rw, .saved, 64, .any, .any, false, false, false, false, false⟩ /- CLIP_RECAL R176 -/,
  ⟨0x6100, 0x6100, 4, 4, .u8, .rw, .saved, 1, (.oneOf [1, 2, 4, 8]), .any, false, false, false, false, false⟩ /- COLD_GAIN R176 -/,
  ⟨0x6100, 0x6100, 5, 5, .u8, .rw, .saved, 0, (.between 0 1), .any, false, false, false, false, false⟩ /- TRIM_RESTORE R176 -/,
  ⟨0x6100, 0x6100, 6, 6, .u16, .rw, .saved, 20, (.between 1 600), .any, false, false, false, false, false⟩ /- RESTORE_TIMEOUT R176 -/,
  ⟨0x6100, 0x6100, 7, 7, .u16, .rw, .saved, 20, (.between 5 200), .any, false, false, false, false, false⟩ /- VERIFY_TOL R176 -/,
  ⟨0x6100, 0x6100, 8, 8, .u64, .ro, .volatile, 0, .any, .any, false, false, false, false, false⟩ /- CALIBRATIONS R176 -/,
  ⟨0x6100, 0x6100, 9, 9, .u32, .ro, .volatile, 0, .any, .any, false, false, false, false, false⟩ /- COLD_CALS R176 -/,
  ⟨0x6100, 0x6100, 10, 10, .u32, .ro, .volatile, 0, .any, .any, false, false, false, false, false⟩ /- VERIFY_REJECTS R176 -/,
  ⟨0x6200, 0x6200, 1, 1, .u8, .rw, .saved, 12, (.between 8 64), .any, false, false, false, false, false⟩ /- REFIT_THRESHOLD R177 -/,
  ⟨0x6200, 0x6200, 2, 2, .u8, .rw, .saved, 64, (.between 16 192), .any, false, false, false, false, false⟩ /- RESCALE_LOW R177 -/,
  ⟨0x6200, 0x6200, 3, 3, .u32, .const, .fused, 10000000, .any, .any, false, false, false, false, false⟩ /- WEAR_LIMIT R177 -/,
  ⟨0x6200, 0x6200, 4, 4, .u64, .ro, .volatile, 0, .any, .any, false, false, false, false, false⟩ /- PASSES R177 -/,
  ⟨0x6200, 0x6200, 5, 5, .u64, .ro, .volatile, 0, .any, .any, false, false, false, false, false⟩ /- CELLS_PROGRAMMED R177 -/,
  ⟨0x6200, 0x6200, 6, 6, .u32, .ro, .volatile, 0, .any, .any, false, false, false, false, false⟩ /- SPARES_ENGAGED R177 -/,
  ⟨0x6200, 0x6200, 7, 7, .bool, .ro, .volatile, 0, .any, .any, false, false, false, false, false⟩ /- REFIT_SUSPECT R177 -/,
  ⟨0x6201, 0x6201, 1, 64, .u8, .rw, .volatile, 0, (.between 0 1), .halted, false, false, false, false, false⟩ /- FORWARD_LAG R178 -/,
  ⟨0x6202, 0x6202, 0, 0, (.domLayers 4 0), .ro, .volatile, 0, .any, .any, true, false, true, false, false⟩ /- MASTER_VERSIONS R178 -/,
  ⟨0x6203, 0x6203, 0, 0, (.dom 73728), .ro, .volatile, 0, .any, .any, true, false, true, false, false⟩ /- DOCK_FIT R178 -/,
  ⟨0x6204, 0x6204, 0, 0, (.dom 73728), .ro, .volatile, 0, .any, .any, true, false, true, false, false⟩ /- DOCK_WEAR R178 -/,
  ⟨0x6800, 0x680F, 0, 0, (.dom 9750592), .rw, .volatile, 0, .any, .trim, true, false, false, false, false⟩ /- TRIM_DOMAIN R173 -/]

def objRows7 : List ObjDef := [
  ⟨0x7000, 0x7000, 0, 0, (.dom 131072), .rw, .volatile, 0, .any, .haltedAll, false, false, false, false, false⟩ /- ROUTE_TABLE R385 -/,
  ⟨0x7001, 0x7001, 1, 1, .u16, .rw, .saved, 100, (.between 10 10000), .idle, false, false, false, false, false⟩ /- CREDIT_TIMEOUT_US R384 -/,
  ⟨0x7001, 0x7001, 2, 2, .u16, .rw, .saved, 5, (.between 1 1000), .idle, false, false, false, false, false⟩ /- ACK_TIMEOUT_MS R384 -/,
  ⟨0x7001, 0x7001, 3, 3, .u32, .rw, .saved, 200, (.between 20 1000000), .idle, false, false, false, false, false⟩ /- STALL_LIMIT_US R384 -/,
  ⟨0x7001, 0x7001, 4, 4, .u8, .rw, .saved, 3, (.between 1 20), .idle, false, false, false, false, false⟩ /- RETRAIN_LIMIT R384 -/,
  ⟨0x7001, 0x7001, 5, 5, .u8, .rw, .saved, 4, (.between 1 8), .idle, false, false, false, false, false⟩ /- HOP_LIMIT R384 -/,
  ⟨0x7001, 0x7001, 6, 6, .u16, .rw, .saved, 256, (.between 16 1024), .idle, false, false, false, false, false⟩ /- CONVOY_CREDITS R384 -/,
  ⟨0x7010, 0x702F, 1, 1, .u8, .ro, .volatile, 0, .any, .any, false, false, false, false, false⟩ /- PORT_MODE R386 -/,
  ⟨0x7010, 0x702F, 2, 2, .u8, .ro, .volatile, 0, .any, .any, false, false, false, false, false⟩ /- LINK_STATE R386 -/,
  ⟨0x7010, 0x702F, 3, 3, .u32, .ro, .volatile, 0xFFFFFFFF, .any, .any, false, false, false, false, false⟩ /- PEER_SEEN R386 -/,
  ⟨0x7010, 0x702F, 4, 4, .u16, .ro, .volatile, 0xFFFF, .any, .any, false, false, false, false, false⟩ /- PEER_PACKAGE_SEEN R386 -/,
  ⟨0x7010, 0x702F, 5, 5, .u64, .ro, .volatile, 0, .any, .any, false, false, false, false, false⟩ /- FEC_CORRECTED R386 -/,
  ⟨0x7010, 0x702F, 6, 6, .u64, .ro, .volatile, 0, .any, .any, false, false, false, false, false⟩ /- FLIT_RETRIES R386 -/,
  ⟨0x7010, 0x702F, 7, 7, .u32, .ro, .volatile, 0, .any, .any, false, false, false, false, false⟩ /- RETRAINS R386 -/,
  ⟨0x7010, 0x702F, 8, 15, .i8, .ro, .volatile, 0, .any, .any, false, false, false, false, false⟩ /- LANE_MARGIN R386 -/,
  ⟨0x7030, 0x7030, 1, 8, .u16, .rw, .saved, 768, (.between 16 6144), .idle, false, false, false, false, false⟩ /- VC_CREDITS R385 -/,
  ⟨0x7040, 0x7040, 1, 9, .u64, .ro, .volatile, 0, .any, .any, false, false, false, false, false⟩ /- FABRIC_COUNTERS R385 -/,
  ⟨0x7050, 0x7050, 0, 0, .u64, .ro, .volatile, 0, .any, .any, false, false, false, false, false⟩ /- LOCAL_TIMER R385 -/,
  ⟨0x7100, 0x7100, 1, 255, .u16, .rw, .volatile, 0xFFFF, .any, .haltedAll, false, false, false, false, false⟩ /- EXPERT_GROUP R385 -/,
  ⟨0x7110, 0x7110, 0, 0, (.dom 65536), .rw, .volatile, 0, .any, .haltedAll, false, false, false, false, false⟩ /- EXPERT_MAP R385 -/]

def objRows8 : List ObjDef := [
  ⟨0x8000, 0x8000, 1, 1, .u32, .rw, .saved, 2000, (.between 50 1000000), .any, false, false, false, false, false⟩ /- DEADLINE_US R417 -/,
  ⟨0x8000, 0x8000, 2, 2, .u8, .rw, .saved, 2, (.between 0 8), .any, false, false, false, false, false⟩ /- MAX_RESENDS R417 -/,
  ⟨0x8010, 0x8010, 0, 0, (.domReductions 64), .rw, .volatile, 0, .any, .haltedAll, false, false, false, false, false⟩ /- REDUCTION_BINDING R418 -/,
  ⟨0x8020, 0x8020, 1, 10, .u64, .ro, .volatile, 0, .any, .any, false, false, false, false, false⟩ /- WEIGHBRIDGE_COUNTERS R419 -/,
  ⟨0x8200, 0x8200, 1, 1, .u8, .rw, .volatile, 0xFF, (.orElse 63 0xFF), .idle, false, false, false, false, false⟩ /- SECURE_CONTEXT R449 -/,
  ⟨0x8200, 0x8200, 2, 2, .u64, .rw, .volatile, 0, (.aligned 4096), .secure, false, false, false, false, false⟩ /- STORE_ADDR R449 -/,
  ⟨0x8200, 0x8200, 3, 3, .u64, .rw, .volatile, 0, (.aligned 4096), .secure, false, false, false, false, false⟩ /- SLOT_BYTES R449 -/,
  ⟨0x8200, 0x8200, 4, 4, .u64, .rw, .volatile, 0, .any, .secure, false, false, false, false, false⟩ /- HOST_STORE_ADDR R449 -/,
  ⟨0x8200, 0x8200, 5, 5, .bool, .rwMgmt, .saved, 0, .any, .idle, false, false, false, false, false⟩ /- SAME_DOMAIN_OVERRIDE R449 -/,
  ⟨0x8200, 0x8200, 6, 6, .u16, .rw, .saved, 40000, (.between 1 65535), .any, false, false, false, false, false⟩ /- RISK_THRESHOLD R449 -/,
  ⟨0x8200, 0x8200, 7, 7, .u16, .rw, .saved, 4000, .any, .any, false, false, false, false, false⟩ /- RISK_HYSTERESIS R449 -/,
  ⟨0x8200, 0x8200, 8, 8, .u32, .rw, .saved, 0, .any, .any, false, false, false, false, false⟩ /- SECURE_INTERVAL R449 -/,
  ⟨0x8200, 0x8200, 9, 9, .u8, .rw, .saved, 2, (.between 1 16), .any, false, false, false, false, false⟩ /- SECURE_LEAD R449 -/,
  ⟨0x8200, 0x8200, 10, 10, .u32, .rw, .saved, 10000, (.between 100 600000), .any, false, false, false, false, false⟩ /- SECURE_TIMEOUT_MS R449 -/,
  ⟨0x8200, 0x8200, 11, 11, .u16, .rw, .volatile, 0, .any, .secure, false, false, false, false, false⟩ /- START_BOLLARD R449 -/,
  ⟨0x8200, 0x8200, 12, 12, .u16, .rw, .volatile, 0, .any, .secure, false, false, false, false, false⟩ /- DONE_BOLLARD R449 -/,
  ⟨0x8200, 0x8200, 13, 13, .u16, .rw, .volatile, 0, .any, .secure, false, false, false, false, false⟩ /- REQUEST_BOLLARD R449 -/,
  ⟨0x8200, 0x8200, 14, 14, .u64, .rw, .volatile, 0, .any, .secure, false, false, false, false, false⟩ /- MAILBOX_ADDR R449 -/,
  ⟨0x8200, 0x8200, 15, 15, .u64, .rw, .volatile, 0, .any, .secure, false, false, false, false, false⟩ /- DIGEST_ADDR R449 -/,
  ⟨0x8201, 0x8201, 1, 1, .u64, .wo, .none, 0, .any, .any, false, false, false, false, false⟩ /- REQUEST_TARGET R450 -/,
  ⟨0x8201, 0x8201, 2, 2, .u64, .ro, .volatile, 0xFFFFFFFFFFFFFFFF, .any, .any, false, false, false, false, false⟩ /- PENDING_TARGET R450 -/,
  ⟨0x8201, 0x8201, 3, 3, .u8, .ro, .volatile, 0, .any, .any, false, false, false, false, false⟩ /- COPY_STATE R450 -/,
  ⟨0x8201, 0x8201, 4, 4, .u64, .ro, .volatile, 0, .any, .any, false, false, false, false, false⟩ /- RECORD_SEQ R450 -/,
  ⟨0x8201, 0x8201, 5, 5, .u64, .ro, .volatile, 0xFFFFFFFFFFFFFFFF, .any, .any, false, false, false, false, false⟩ /- COMMITTED_STEP R450 -/,
  ⟨0x8201, 0x8201, 6, 6, .bool, .ro, .volatile, 0, .any, .any, false, false, false, false, false⟩ /- LOCAL_VALID R450 -/,
  ⟨0x8201, 0x8201, 7, 7, .u32, .ro, .volatile, 0, .any, .any, false, false, false, false, false⟩ /- CHUNKS_LEFT R450 -/,
  ⟨0x8202, 0x8202, 1, 1, .u8, .rw, .volatile, 0, (.between 0 2), .any, false, false, false, false, false⟩ /- RESTORE_SOURCE R450 -/,
  ⟨0x8202, 0x8202, 2, 2, .u64, .rw, .volatile, 0, .any, .any, false, false, false, false, false⟩ /- RESTORE_STEP R450 -/,
  ⟨0x8202, 0x8202, 3, 3, .u64, .rw, .volatile, 0, .any, .any, false, false, false, false, false⟩ /- RESTORE_DATA_STEP R450 -/,
  ⟨0x8202, 0x8202, 4, 4, .u8, .wo, .none, 0, (.oneOf [1, 2]), .secure, false, false, false, false, false⟩ /- RESTORE_COMMAND R450 -/,
  ⟨0x8202, 0x8202, 5, 5, .u8, .ro, .volatile, 0, .any, .any, false, false, false, false, false⟩ /- RESTORE_STATE R450 -/,
  ⟨0x8202, 0x8202, 6, 6, .u16, .ro, .volatile, 0, .any, .any, false, false, false, false, false⟩ /- RESTORE_RESULT R450 -/,
  ⟨0x8203, 0x8203, 0, 0, (.domMax 32768), .rw, .volatile, 0, .any, .secure, false, false, false, false, false⟩ /- SECURE_GROUP R451 -/,
  ⟨0x8210, 0x8210, 0, 0, (.domMax 2048), .rw, .volatile, 0, .any, .secure, false, false, false, false, false⟩ /- SECURE_REGIONS R451 -/,
  ⟨0x8220, 0x8220, 1, 8, .u64, .ro, .volatile, 0, .any, .any, false, false, false, false, false⟩ /- RESILIENCE_COUNTERS R452 -/]

def objRows9 : List ObjDef := [
  ⟨0x9000, 0x9000, 1, 1, .u8, .rw, .saved, 0, (.between 0 1), .any, false, false, false, false, false⟩ /- ADC0_MODE R473 -/,
  ⟨0x9000, 0x9000, 2, 2, .u8, .rw, .saved, 0, (.between 0 1), .any, false, false, false, false, false⟩ /- ADC1_MODE R473 -/,
  ⟨0x9000, 0x9000, 3, 3, .u8, .rw, .saved, 0, (.between 0 3), .any, false, false, false, false, false⟩ /- ALIGN R473 -/,
  ⟨0x9000, 0x9000, 4, 4, .u16, .rw, .saved, 100, (.between 20 65535), .any, false, false, false, false, false⟩ /- SEQ_PERIOD_US R473 -/,
  ⟨0x9000, 0x9000, 5, 5, .u16, .rw, .saved, 100, (.between 10 10000), .any, false, false, false, false, false⟩ /- SLEEP_PERIOD_MS R473 -/,
  ⟨0x9000, 0x9000, 6, 6, .u16, .rw, .saved, 1, (.between 1 1000), .any, false, false, false, false, false⟩ /- PLAUS_PERIOD_MS R473 -/,
  ⟨0x9000, 0x9000, 7, 7, .u16, .rw, .saved, 8, (.between 1 256), .any, false, false, false, false, false⟩ /- PLAUS_WINDOW R473 -/,
  ⟨0x9000, 0x9000, 8, 8, .u16, .rw, .saved, 24, (.between 8 256), .any, false, false, false, false, false⟩ /- BANDGAP_TOL R473 -/,
  ⟨0x9000, 0x9000, 9, 9, .u8, .ro, .volatile, 0, .any, .any, false, false, false, false, false⟩ /- PLAUS_STATE R473 -/,
  ⟨0x9000, 0x9000, 10, 10, .u32, .ro, .volatile, 0, .any, .any, false, false, false, false, false⟩ /- OVERRUNS R473 -/,
  ⟨0x9001, 0x9001, 0, 0, .u32, .ro, .volatile, 0, .any, .any, false, false, false, false, false⟩ /- ADC0_DATA R474 -/,
  ⟨0x9002, 0x9002, 0, 0, .u32, .ro, .volatile, 0, .any, .any, false, false, false, false, false⟩ /- ADC1_DATA R474 -/,
  ⟨0x9010, 0x9010, 1, 64, .f32, .const, .fused, 0, .any, .any, false, false, false, false, false⟩ /- CHANNEL_SCALE R474 -/,
  ⟨0x9011, 0x9011, 1, 64, .f32, .const, .fused, 0, .any, .any, false, false, false, false, false⟩ /- CHANNEL_OFFSET R474 -/,
  ⟨0x9020, 0x9020, 1, 64, .u16, .rw, .saved, 0, (.forbid 0x3FC0), .any, false, false, false, false, false⟩ /- SEQUENCE_0 R461 -/,
  ⟨0x9021, 0x9021, 1, 64, .u16, .rw, .saved, 0, (.forbid 0x3FC0), .any, false, false, false, false, false⟩ /- SEQUENCE_1 R461 -/,
  ⟨0x9100, 0x913F, 1, 1, .u8, .rw, .saved, 3, (.between 0 3), .any, false, false, false, false, false⟩ /- FILTER_MODE R475 -/,
  ⟨0x9100, 0x913F, 2, 2, .u8, .rw, .saved, 3, (.between 0 8), .any, false, false, false, false, false⟩ /- IIR_SHIFT R475 -/,
  ⟨0x9100, 0x913F, 3, 3, .i16, .rw, .saved, 32767, .any, .any, false, false, false, false, false⟩ /- HI_THRESHOLD R475 -/,
  ⟨0x9100, 0x913F, 4, 4, .u16, .rw, .saved, 16, (.between 0 4095), .any, false, false, false, false, false⟩ /- HI_HYST R475 -/,
  ⟨0x9100, 0x913F, 5, 5, .i16, .rw, .saved, 0x8000, .any, .any, false, false, false, false, false⟩ /- LO_THRESHOLD R475 -/,
  ⟨0x9100, 0x913F, 6, 6, .u16, .rw, .saved, 16, (.between 0 4095), .any, false, false, false, false, false⟩ /- LO_HYST R475 -/,
  ⟨0x9100, 0x913F, 7, 7, .i32, .ro, .volatile, 0, .any, .any, false, false, false, false, false⟩ /- FILTERED R475 -/,
  ⟨0x9100, 0x913F, 8, 8, .u8, .ro, .volatile, 0, .any, .any, false, false, false, false, false⟩ /- FILTER_STATE R475 -/,
  ⟨0x9200, 0x9204, 0, 0, .u64, .const, .fused, 0, .any, .any, false, false, false, false, false⟩ /- RULE_FIXED R467 -/,
  ⟨0x9205, 0x923F, 0, 0, .u64, .rw, .saved, 0, .rule, .any, false, false, false, false, false⟩ /- RULE R464 -/,
  ⟨0x9300, 0x9300, 1, 32, .u32, .const, .fused, 0, .any, .any, false, false, false, false, false⟩ /- RO_BASELINE R476 -/,
  ⟨0x9301, 0x9301, 1, 32, .i16, .ro, .volatile, 0, .any, .any, false, false, false, false, false⟩ /- RO_SLOWDOWN R476 -/,
  ⟨0x9302, 0x9302, 0, 0, (.dom 4732992), .ro, .saved, 0, .any, .any, false, false, false, false, true⟩ /- AGEING_HISTORY R476 -/,
  ⟨0x9303, 0x9303, 1, 1, .u32, .rw, .saved, 800, .any, .any, false, false, false, false, false⟩ /- AGE_DIE R476 -/,
  ⟨0x9303, 0x9303, 2, 2, .u32, .rw, .saved, 10000000, .any, .any, false, false, false, false, false⟩ /- AGE_DOCK_WEAR R476 -/,
  ⟨0x9303, 0x9303, 3, 3, .u32, .rw, .saved, 16, .any, .any, false, false, false, false, false⟩ /- AGE_DOCK_SPARES R476 -/,
  ⟨0x9303, 0x9303, 4, 4, .u32, .rw, .saved, 2500, .any, .any, false, false, false, false, false⟩ /- AGE_DOCK_DRIFT R476 -/,
  ⟨0x9303, 0x9303, 5, 5, .u32, .rw, .saved, 100000, .any, .any, false, false, false, false, false⟩ /- AGE_STACK R476 -/,
  ⟨0x9303, 0x9303, 6, 6, .u32, .rw, .saved, 10, .any, .any, false, false, false, false, false⟩ /- AGE_PORT R476 -/,
  ⟨0x9400, 0x9400, 0, 0, (.dom 295808), .ro, .volatile, 0, .any, .any, false, false, true, false, false⟩ /- END_OF_LIFE R476 -/,
  ⟨0x9401, 0x9401, 1, 1, .u16, .ro, .volatile, 65535, .any, .any, false, false, false, false, false⟩ /- MIN_LOW R476 -/,
  ⟨0x9401, 0x9401, 2, 2, .u8, .ro, .volatile, 0, .any, .any, false, false, false, false, false⟩ /- MIN_KIND R476 -/,
  ⟨0x9401, 0x9401, 3, 3, .u16, .ro, .volatile, 0, .any, .any, false, false, false, false, false⟩ /- MIN_ID R476 -/,
  ⟨0x9500, 0x9500, 1, 1, .u16, .ro, .volatile, 0, .any, .any, false, false, false, false, false⟩ /- RISK R477 -/,
  ⟨0x9500, 0x9500, 2, 2, .u16, .ro, .volatile, 0, .any, .any, false, false, false, false, false⟩ /- TERM_T R477 -/,
  ⟨0x9500, 0x9500, 3, 3, .u16, .ro, .volatile, 0, .any, .any, false, false, false, false, false⟩ /- TERM_E R477 -/,
  ⟨0x9500, 0x9500, 4, 4, .u16, .ro, .volatile, 0, .any, .any, false, false, false, false, false⟩ /- TERM_K R477 -/,
  ⟨0x9500, 0x9500, 5, 5, .u16, .ro, .volatile, 0, .any, .any, false, false, false, false, false⟩ /- TERM_A R477 -/,
  ⟨0x9500, 0x9500, 6, 6, .u16, .ro, .volatile, 0, .any, .any, false, false, false, false, false⟩ /- TERM_U R477 -/,
  ⟨0x9500, 0x9500, 7, 7, .u8, .rw, .saved, 70, (.between 40 94), .any, false, false, false, false, false⟩ /- RISK_T0 R477 -/,
  ⟨0x9500, 0x9500, 8, 8, .u16, .rw, .saved, 500, .any, .any, false, false, false, false, false⟩ /- W_TEMP R477 -/,
  ⟨0x9500, 0x9500, 9, 9, .u16, .rw, .saved, 6000, .any, .any, false, false, false, false, false⟩ /- W_ERROR R477 -/,
  ⟨0x9500, 0x9500, 10, 10, .u16, .rw, .saved, 20, .any, .any, false, false, false, false, false⟩ /- W_CORRECTED R477 -/,
  ⟨0x9500, 0x9500, 11, 11, .u16, .rw, .saved, 2000, .any, .any, false, false, false, false, false⟩ /- W_RETRAIN R477 -/,
  ⟨0x9500, 0x9500, 12, 12, .u16, .rw, .saved, 30, (.between 1 3650), .any, false, false, false, false, false⟩ /- AGE_HORIZON_D R477 -/,
  ⟨0x9500, 0x9500, 13, 13, .u16, .rw, .saved, 40000, .any, .any, false, false, false, false, false⟩ /- W_AGEING R477 -/,
  ⟨0x9500, 0x9500, 14, 14, .u16, .rw, .saved, 600, (.between 10 65535), .any, false, false, false, false, false⟩ /- HALF_LIFE_S R477 -/,
  ⟨0x9500, 0x9500, 15, 15, .u16, .rw, .saved, 16000, (.between 1 65535), .any, false, false, false, false, false⟩ /- TERM_CAP R477 -/]

def objRowsA : List ObjDef := [
  ⟨0xA000, 0xA000, 0, 0, (.domMax 4294967295), .ro, .none, 0, .any, .any, false, false, false, false, false⟩ /- EVENT_LOG R75 -/,
  ⟨0xA001, 0xA001, 1, 1, .u64, .rw, .volatile, 1, .any, .any, false, false, false, false, false⟩ /- READ_FROM_SEQ R75 -/,
  ⟨0xA001, 0xA001, 2, 2, .u64, .ro, .volatile, 0, .any, .any, false, false, false, false, false⟩ /- OLDEST_SEQ R75 -/,
  ⟨0xA001, 0xA001, 3, 3, .u32, .ro, .volatile, 0, .any, .any, false, false, false, false, false⟩ /- LOST R75 -/,
  ⟨0xA001, 0xA001, 4, 4, .u64, .ro, .volatile, 0, .any, .any, false, false, false, false, false⟩ /- NEWEST_SEQ R75 -/,
  ⟨0xA002, 0xA002, 1, 1, .u8, .rw, .saved, 1, (.between 0 3), .any, false, false, false, false, false⟩ /- PERSIST_LEVEL R75 -/,
  ⟨0xA002, 0xA002, 2, 2, .u8, .rwMgmt, .saved, 2, (.between 0 3), .any, false, false, false, false, false⟩ /- NOTIFY_LEVEL R75 -/,
  ⟨0xA010, 0xA010, 1, 10, .u64, .ro, .volatile, 0, .any, .any, false, false, false, false, false⟩ /- CLASS_COUNT R75 -/]

def objRowsB : List ObjDef := [
  ⟨0xB000, 0xB000, 1, 1, .u8, .ro, .volatile, 0, .any, .any, false, false, false, false, false⟩ /- POWER_STATE R501 -/,
  ⟨0xB000, 0xB000, 2, 2, .u8, .wo, .none, 0, (.oneOf [1, 2, 3, 4, 5]), .any, false, false, false, false, false⟩ /- POWER_COMMAND R501 -/,
  ⟨0xB000, 0xB000, 3, 3, .bool, .rwMgmt, .saved, 1, .any, .any, false, false, false, false, false⟩ /- AUTO_START R501 -/,
  ⟨0xB000, 0xB000, 4, 4, .u32, .rw, .saved, 14000, (.between 2000 14000), .any, false, false, false, false, false⟩ /- POWER_LIMIT R501 -/,
  ⟨0xB000, 0xB000, 5, 5, .u32, .rw, .saved, 1000, (.between 10 1000000), .any, false, false, false, false, false⟩ /- IDLE_DELAY_US R501 -/,
  ⟨0xB000, 0xB000, 6, 6, .u16, .ro, .volatile, 0, .any, .any, false, false, false, false, false⟩ /- LAST_DOWN_CAUSE R501 -/,
  ⟨0xB010, 0xB010, 1, 16, .u16, .rw, .saved, 1400, (.multiple 900 1600 100), .any, false, false, false, false, false⟩ /- DIE_FREQ_MAX R502 -/,
  ⟨0xB011, 0xB011, 1, 16, .u16, .ro, .volatile, 900, .any, .any, false, false, false, false, false⟩ /- DIE_FREQ R502 -/,
  ⟨0xB012, 0xB012, 1, 16, .u8, .ro, .volatile, 0, .any, .any, false, false, false, false, false⟩ /- DIE_CAP_CAUSE R502 -/,
  ⟨0xB020, 0xB020, 1, 1, .u32, .ro, .volatile, 0, .any, .any, false, false, false, false, false⟩ /- INPUT_POWER_W R502 -/,
  ⟨0xB020, 0xB020, 2, 2, .u32, .ro, .volatile, 0, .any, .any, false, false, false, false, false⟩ /- INPUT_MV R502 -/,
  ⟨0xB020, 0xB020, 3, 3, .u16, .ro, .volatile, 0, .any, .any, false, false, false, false, false⟩ /- CLAMP_NE_DA R502 -/,
  ⟨0xB020, 0xB020, 4, 4, .u16, .ro, .volatile, 0, .any, .any, false, false, false, false, false⟩ /- CLAMP_SW_DA R502 -/,
  ⟨0xB020, 0xB020, 5, 5, .u32, .ro, .volatile, 0xFFFFFF, .any, .any, false, false, false, false, false⟩ /- CONVERTERS_OK R502 -/,
  ⟨0xB020, 0xB020, 6, 6, .u64, .ro, .volatile, 0, .any, .any, false, false, false, false, false⟩ /- THROTTLE_NS R502 -/,
  ⟨0xB020, 0xB020, 7, 7, .u64, .ro, .volatile, 0, .any, .any, false, false, false, false, false⟩ /- TAKE_GATED_NS R502 -/]

def objRowsC : List ObjDef := [
  ⟨0xC001, 0xC001, 0, 0, (.dom 48), .const, .fused, 0, .any, .any, false, false, false, false, false⟩ /- FW_KEY_HASH R530 -/,
  ⟨0xC011, 0xC011, 0, 0, .u8, .ro, .fused, 0, .any, .any, false, false, false, false, false⟩ /- ARB_COUNTER R530 -/,
  ⟨0xC012, 0xC012, 0, 0, .u8, .wo, .none, 0, (.oneOf [1]), .idle, false, false, false, false, false⟩ /- SVN_COMMIT R530 -/,
  ⟨0xC020, 0xC020, 0, 0, (.domMax 66846720), .wo, .none, 0, .any, .any, false, false, false, false, false⟩ /- FW_IMAGE R530 -/,
  ⟨0xC021, 0xC021, 0, 0, .u8, .wo, .none, 0, (.oneOf [1]), .any, false, false, false, false, false⟩ /- FW_ACTIVATE R530 -/,
  ⟨0xC022, 0xC022, 1, 1, .u8, .ro, .volatile, 0, .any, .any, false, false, false, false, false⟩ /- RUNNING_SLOT R530 -/,
  ⟨0xC022, 0xC022, 2, 2, .u8, .ro, .volatile, 0, .any, .any, false, false, false, false, false⟩ /- SLOT_A_STATE R530 -/,
  ⟨0xC022, 0xC022, 3, 3, .u8, .ro, .volatile, 0, .any, .any, false, false, false, false, false⟩ /- SLOT_B_STATE R530 -/,
  ⟨0xC022, 0xC022, 4, 4, .u16, .ro, .volatile, 0, .any, .any, false, false, false, false, false⟩ /- SLOT_A_SVN R530 -/,
  ⟨0xC022, 0xC022, 5, 5, .u16, .ro, .volatile, 0, .any, .any, false, false, false, false, false⟩ /- SLOT_B_SVN R530 -/,
  ⟨0xC030, 0xC030, 1, 1, .u64, .ro, .volatile, 0, .any, .any, false, false, false, false, false⟩ /- DEBUG_NONCE R530 -/,
  ⟨0xC030, 0xC030, 2, 2, (.dom 224), .rwMgmt, .volatile, 0, .any, .any, false, false, false, false, false⟩ /- DEBUG_TOKEN R530 -/,
  ⟨0xC030, 0xC030, 3, 3, .bool, .ro, .volatile, 0, .any, .any, false, false, false, false, false⟩ /- DEBUG_STATE R530 -/,
  ⟨0xC030, 0xC030, 4, 4, .u8, .wo, .none, 0, (.oneOf [1]), .any, false, false, false, false, false⟩ /- DEBUG_END R530 -/,
  ⟨0xC031, 0xC031, 0, 0, (.dom 48), .rwMgmt, .fused, 0, .any, .idle, false, false, false, false, false⟩ /- DEBUG_KEY_HASH R530 -/,
  ⟨0xC100, 0xC100, 0, 0, (.domMax 4096), .rwMgmt, .volatile, 0, .any, .any, false, false, false, false, false⟩ /- SPDM_REQUEST R530 -/,
  ⟨0xC101, 0xC101, 0, 0, (.domMax 65536), .ro, .volatile, 0, .any, .any, false, false, false, false, false⟩ /- SPDM_RESPONSE R530 -/]

/-- The rows that can hold an index, by its leading digit. -/
def objRows (idx : Nat) : List ObjDef :=
  match idx / 4096 with
  | 1 => objRows1
  | 2 => objRows2
  | 3 => objRows3
  | 4 => objRows4
  | 5 => objRows5
  | 6 => objRows6
  | 7 => objRows7
  | 8 => objRows8
  | 9 => objRows9
  | 10 => objRowsA
  | 11 => objRowsB
  | 12 => objRowsC
  | _ => []

/-- The definition of index:subindex, if the object exists. -/
def objDef (idx sub : Nat) : Option ObjDef :=
  (objRows idx).find? (fun o => decide (o.idxLo ≤ idx ∧ idx ≤ o.idxHi ∧ o.subLo ≤ sub ∧ sub ≤ o.subHi))

/-- Whether an index holds an object at all (R65). -/
def idxDefined (idx : Nat) : Bool := (objRows idx).any (fun o => decide (o.idxLo ≤ idx ∧ idx ≤ o.idxHi))

/-- An object marked host-only: every management access to any of its subindices is refused (R41). -/
def idxHostOnly (idx : Nat) : Bool := (objRows idx).any (fun o => decide (o.idxLo ≤ idx ∧ idx ≤ o.idxHi) && o.hostOnly)

/-- The highest subindex of a RECORD or an ARRAY, which its subindex 0 reads (R38); none for a scalar. -/
def highestSub (idx : Nat) : Option Nat :=
  let rs := (objRows idx).filter (fun o => decide (o.idxLo ≤ idx ∧ idx ≤ o.idxHi))
  if rs.any (fun o => o.subLo == 0) then none
  else if rs.isEmpty then none
  else some (rs.foldl (fun m o => max m o.subHi) 0)

/-- The key of index:subindex in the tables of State. -/
def key (idx sub : Nat) : Nat := idx * 256 + sub

/-- Default sequences (R461): converter 0 converts channels 0 to 39, converter 1 channels 40 to 63. -/
def alwaysChannel (c : Nat) : Bool :=
  decide (32 ≤ c ∧ c ≤ 41) || [51, 52, 53, 58].contains c || decide (60 ≤ c ∧ c ≤ 63)

def seqDefault (first count sub : Nat) : Nat :=
  if sub ≤ count then 0x8000 + (if alwaysChannel (first + sub - 1) then 0x4000 else 0) + (first + sub - 1) else 0

/-- The fixed rules as words of R464's field map (R467): rules 0 to 2 test the ranges of channels by their own
comparison, of which SOURCE 1 is the nearest name. -/
def fixedRule (r : Nat) : Nat :=
  let mk (first last source hold action alert arg : Nat) : Nat :=
    first * 2 ^ 58 + last * 2 ^ 52 + source * 2 ^ 48 + hold * 2 ^ 32 + action * 2 ^ 29 + alert * 2 ^ 28 + 3 * 2 ^ 26 + arg
  if r = 0 then mk 0 15 1 100 4 0 0
  else if r = 1 then mk 16 31 1 100 4 0 0
  else if r = 2 then mk 32 39 1 100 4 0 0
  else if r = 3 then mk 0 0 3 0 2 1 900
  else mk 0 0 3 0 3 0 16000

/-- The default of a scalar object (R42): the table's value, or the device's own for a fused one (log 6). -/
def objDefault (k : Nat) : Nat :=
  let idx := k / 256
  let sub := k % 256
  if k = key 0x1018 5 then Config.dateCode
  else if k = key 0x1018 6 then Config.macAddress % 2 ^ 48
  else if idx = 0x9010 ∧ sub ≠ 0 then Config.channelScale (sub - 1)
  else if idx = 0x9011 ∧ sub ≠ 0 then Config.channelOffset (sub - 1)
  else if idx = 0x9300 ∧ sub ≠ 0 then Config.roBaseline (sub - 1)
  else if idx = 0x9020 ∧ sub ≠ 0 then seqDefault 0 40 sub
  else if idx = 0x9021 ∧ sub ≠ 0 then seqDefault 40 24 sub
  else if 0x9200 ≤ idx ∧ idx ≤ 0x9204 then fixedRule (idx - 0x9200)
  else if idx / 256 = 0x21 ∧ sub ≠ 0 then
    (let l := sub - 1; (l / 15) * 4096 + (l % 15) * 256)
  else match objDef idx sub with
    | some o => o.dflt
    | none => 0

/-- The size in bytes of a scalar type. -/
def OType.size : OType → Nat
  | .bool | .u8 | .i8 => 1
  | .u16 | .i16 => 2
  | .u32 | .i32 | .f32 => 4
  | .u64 => 8
  | _ => 0

/-- DOMAINs and VSTRINGs are not scalars of the direct region (R50). -/
def OType.scalar : OType → Bool
  | .vstr | .dom _ | .domMax _ | .domLayers _ _ | .domReductions _ => false
  | _ => true

def OType.isDomain : OType → Bool
  | .dom _ | .domMax _ | .domLayers _ _ | .domReductions _ => true
  | _ => false

def OType.signed : OType → Bool
  | .i8 | .i16 | .i32 => true
  | _ => false

end Sys2Proof.Machine
end

