-- ==== Sys2Proof/Machine/State.lean ====
section
/-! DEFINITION. The state of the block: everything the manual gives the machine, as plain data, and the machine right after reset. -/

namespace Sys2Proof.Machine

/-- Why the machine stops. No command of this model stops it: the manual gives every command an effect. -/
inductive Fault where
  /-- Raised by nobody: the manual names no event at which the block stops for good; safe. -/
  | stopped
  deriving DecidableEq, Repr

/-- Why a command has no meaning. -/
inductive Refusal where
  /-- Raised by exec's own arms for a command that is not modelled; safe. -/
  | notModelled (mnemonic : String)
  deriving DecidableEq, Repr

/-! ## What the block sends outwards -/

/-- One frame of ODP the device sends (R57). -/
structure OdpResp where
  typ : Nat
  tid : Nat
  index : Nat
  sub : Nat
  flags : Nat
  offset : Nat
  code : Nat
  payload : List Byte
  deriving DecidableEq, Repr

/-- What leaves the block, in the order it leaves (log 14). -/
inductive Output where
  /-- An ODP frame to an address and a UDP port (R57). -/
  | odp (addr port : Nat) (f : OdpResp)
  /-- An MSI-X message (R516). -/
  | msix (port vector addr data : Nat)
  /-- The bytes a window read returns (R50). -/
  | winData (port : Nat) (data : List Byte)
  /-- A configuration completion, or a completion with Request Retry Status (R507). -/
  | cfgData (port value : Nat)
  | rrs (port : Nat)
  /-- A back-invalidation snoop of a line (R511). -/
  | biSnoop (port line : Nat)
  /-- The line a host read returns, and whether it is poisoned (R511). -/
  | hdmData (port pa : Nat) (data : List Byte) (poisoned : Bool)
  | hdmWritten (port pa : Nat)
  /-- A fabric message leaving by a hawser port (R365). -/
  | fabric (port : Nat) (m : Msg)
  /-- A request for a resend on a link (R359), and a resent replay buffer. -/
  | linkResend (port fromSeq : Nat)
  | linkRetrain (port : Nat)
  /-- What this side sends as a fairway trains: its domain, package index and port (R371). -/
  | linkTrain (port dom pkg : Nat)
  /-- Credits of a channel that a port returns to its peer, with the sequence number that it expects next (R359, R362). -/
  | creditReturn (port vc n ackSeq : Nat)
  /-- Convoy credit that a node returns to its parent, and whether its own children hold its returns (R372, R373). -/
  | convoyCredit (convoy parent flits : Nat) (held : Bool)
  /-- DOE and SPDM responses (R517, R527). -/
  | doe (port : Nat) (data : List Byte)
  | spdm (path : SpdmPath) (data : List Byte)
  /-- Neighbour discovery and echo answers (R519). -/
  | neighbourAdv (dst target : Nat)
  | echoReply (dst : Nat) (data : List Byte)
  /-- The value a status read returns where the row is itself a read. -/
  | readData (src : Src) (data : List Byte)
  /-- The answer over ODP to a scalar write whose frame the row does not carry: WRITE_RESP (code 0) or ABORT (R60). -/
  | odpStatus (index sub code : Nat)
  deriving DecidableEq, Repr

/-! ## Event log (R72, R73) -/

structure LogEntry where
  seq : Nat
  time : Nat
  step : Nat
  epoch : Nat
  code : Nat
  severity : Nat
  kind : Nat
  id : Nat
  ctx : Nat
  persisted : Bool
  sent : Bool
  lostBefore : Bool
  /-- Sent as an EVENT frame whatever NOTIFY_LEVEL holds (R235, R426). -/
  force : Bool
  boot : Nat
  /-- Its CRC agrees: an entry whose writing to flash was cut off fails it and is treated as absent (R73). -/
  crcGood : Bool
  detail : List Byte
  deriving DecidableEq, Repr

structure EventLog where
  ring : List LogEntry
  flash : List LogEntry
  nextSeq : Nat
  bootCount : Nat
  /-- When a code that is logged at most once per second, or once per start-up, was last logged. -/
  lastAt : AMap Nat
  deriving DecidableEq, Repr

/-! ## The persistent store (R61 to R64) -/

/-- One bank: its generation, its commit flag, whether its CRC is good, and its records, key to value (a DOMAIN or a
VSTRING of the saved class is a record of `blobs`). -/
structure Bank where
  committed : Bool
  crcGood : Bool
  generation : Nat
  records : AMap Nat
  deriving DecidableEq, Repr

structure Store where
  bank0 : Bank
  bank1 : Bank
  /-- The snapshot of a save that is running. -/
  saving : Option (AMap Nat)
  /-- The image that start-up selected, R63. -/
  image : Option (AMap Nat)
  /-- The record of SUBSTITUTION_MAP can be read (R110). -/
  mapGood : Bool
  /-- Device-maintained records (R64): scalars and contents. -/
  devRec : AMap Nat
  devBlob : AMap (List Byte)
  /-- The orderly-shutdown flag (R490). -/
  orderly : Bool
  /-- The record of 0x9302 AGEING_HISTORY (R470): the days kept of each indicator; none while unreadable. -/
  ageing : Option (AMap (List Rat))
  deriving DecidableEq, Repr

/-! ## Power (R486 to R503) -/

inductive PState where
  | off | aux | boot | ready | run | idle | nap | sleep
  deriving DecidableEq, Repr

/-- The steps of start-up (R497). -/
inductive BootPhase where
  | clampCheck | firmware | regulators | harbourmaster | dram | selfTest | restoreWindow | calibration | defaults | done
  deriving DecidableEq, Repr

structure Power where
  pst : PState
  phase : BootPhase
  /-- A start is wanted and waits in AUX for the clamp check, and whether the check has passed since the converters were last
  off (R33). -/
  startPending : Bool
  clampGood : Bool
  napHeld : Bool
  napFrom : PState
  sleepBoot : Bool
  autoBlocked : Bool
  resetLow : Bool
  convertersOn : Bool
  pwrGood : Bool
  hmRunning : Bool
  restoreOpen : Bool
  restoredDies : List Nat
  /-- SHUTDOWN is under way (R490), and whether it is orderly for R162. -/
  shutdownBusy : Bool
  shutdownOrderly : Bool
  sleepHeld : Bool
  ovLatch : Bool
  resetLatch : Bool
  mref : Bool
  droop : Bool
  underPeriods : Nat
  gateN : Nat
  /-- Input power in W over the last 100 periods of 100 µs, newest first (R483). -/
  hist : List Nat
  /-- The settling cap or the settling itself has let cold calibration start (R169). -/
  settled : Bool
  /-- By die, since when its temperature has stayed within 0.5 °C of which value (R169). -/
  settle : AMap (Nat × Rat)
  /-- By die, its temperature in °C at its last calibration (R168). -/
  dieCal : AMap Nat
  /-- The operating point a die is stepping to, MHz (R482). -/
  goal : AMap Nat
  /-- Work was seen since the device last became idle (R486). -/
  workSince : Nat
  deriving DecidableEq, Repr

/-! ## Host ports (R504 to R516) -/

/-- A domain access channel (R53): its registers, its segment buffer, and the open transfer's bytes. -/
structure Dac where
  index : Nat
  sub : Nat
  download : Bool
  size : Nat
  offset : Nat
  length : Nat
  state : Nat
  abort : Nat
  buf : List Byte
  /-- Upload: the snapshot. Download: the bytes received. -/
  data : List Byte
  /-- The segment of a running XFER. -/
  busy : Option (Nat × Nat)
  deriving DecidableEq, Repr

/-- A host access that waits, numbered in its order of arrival at the coherence point, with the lines whose snoops are not answered
(R511). -/
structure HdmWait where
  no : Nat
  pa : Nat
  op : HdmOp
  lines : List (Nat × Nat)
  deriving DecidableEq, Repr

structure HostSt where
  perst : Bool
  /-- Written configuration dwords (offset to value), R505 to R508. -/
  config : AMap Nat
  decoder : Nat
  msixOn : Bool
  masked : List Bool
  pendingBits : List Bool
  targets : List (Nat × Nat)
  wakeN : Bool
  /-- Lines the host holds: line address to 1 (shared) or 2 (may be modified), oldest first. -/
  filter : AMap Nat
  waiting : List HdmWait
  dacs : List Dac
  deriving DecidableEq, Repr

structure Notice where
  on : Bool
  phase : Bool
  /-- Notices written and not yet acknowledged. -/
  unacked : Nat
  /-- A vector 0 message was sent since the host last wrote CONSUMER (R516). -/
  outstanding : Bool
  deriving DecidableEq, Repr

/-! ## ODP, management port (R55 to R60, R518, R519) -/

structure OdpXfer where
  addr : Nat
  tid : Nat
  index : Nat
  sub : Nat
  download : Bool
  total : Nat
  data : List Byte
  deriving DecidableEq, Repr

/-- A remembered request and its response (R59). -/
structure OdpMemo where
  addr : Nat
  tid : Nat
  typ : Nat
  offset : Nat
  resp : OdpResp
  deriving DecidableEq, Repr

structure Odp where
  xfers : List OdpXfer
  memo : List OdpMemo
  /-- Transfers aborted by time-out or power state, told on the client's next frame (R58). -/
  dead : List (Nat × Nat × Nat)
  deriving DecidableEq, Repr

structure Mgmt where
  running : Bool
  beacon : Bool
  deriving DecidableEq, Repr

/-! ## Security (R520 to R529) -/

/-- What downloaded the image being written (R524): a channel of a port, which stays BUSY, or an ODP transfer whose last
segment's response waits: address, UDP port, TRANSACTION_ID, index, subindex, offset. -/
inductive FwWriter where
  | dac (port ch : Nat)
  | odp (addr port tid index sub offset : Nat)
  deriving DecidableEq, Repr

/-- A firmware slot: the image it holds, and its slot record. -/
structure FwSlot where
  present : Bool
  digestsGood : Bool
  svn : Nat
  activeSeq : Nat
  committed : Bool
  version : List Byte
  lhDigest : List Byte
  hmDigest : List Byte
  deriving DecidableEq, Repr

structure Fw where
  slotA : FwSlot
  slotB : FwSlot
  running : Nat
  passedOver : List Nat
  bothFailed : Bool
  hmVerified : Bool
  /-- An image being written to the slot that is not running. -/
  writing : Option FwSlot
  /-- The channel or ODP transfer that downloads it (R524). -/
  writer : Option FwWriter
  deriving DecidableEq, Repr

structure SpdmConn where
  version : Bool
  capabilities : Bool
  algorithms : Bool
  /-- The messages of the connection, for the transcript a signature covers. -/
  transcript : List Byte
  deriving DecidableEq, Repr

inductive TapInstr where
  | extest | idcode | sample | highz | clamp | bypass | priv (opcode : Nat)
  deriving DecidableEq, Repr

structure Tap where
  ir : TapInstr
  boundary : Nat
  deriving DecidableEq, Repr

structure Debug where
  on : Bool
  tokenHash : List Byte
  nonce : Nat
  until_ : Nat
  deriving DecidableEq, Repr
/-! ## The stowage plan (R89 to R102), as the harbourmaster's validated copy holds it -/

/-- A TILE_PARTITION entry (R92). -/
structure TilePart where
  tile : Nat
  holdT1 : Nat
  ferryKib : Nat
  mbufs : Nat
  checker : Bool
  deriving DecidableEq, Repr

/-- A LAYERS entry (R93). -/
structure LayerDef where
  id : Nat
  path : Nat
  inW : Nat
  gradW : Nat
  actFn : Nat
  replicas : Nat
  k : Nat
  n : Nat
  first : Nat
  count : Nat
  ctx : Nat
  deriving DecidableEq, Repr

/-- A DOCK_MAP entry (R94). -/
structure DockMap where
  dock : Nat
  layerIdx : Nat
  rowTile : Nat
  colTile : Nat
  rowsUsed : Nat
  colsUsed : Nat
  replica : Nat
  blockWidth : Nat
  deriving DecidableEq, Repr

/-- A FERRY_CHAINS record (R95). -/
structure ChainDef where
  id : Nat
  credits : Nat
  ctx : Nat
  tiles : List Nat
  deriving DecidableEq, Repr

/-- A HOLD entry (R96). -/
structure HoldDef where
  ctx : Nat
  t2Base : Nat
  t2Size : Nat
  t3Base : Nat
  t3Size : Nat
  deriving DecidableEq, Repr

/-- A BOLLARDS entry (R97). -/
structure BolRange where
  first : Nat
  count : Nat
  ctx : Nat
  initial : Nat
  expect : Nat
  deriving DecidableEq, Repr

/-- A BERTHS entry (R98). -/
structure BerthDef where
  berth : Nat
  tile : Nat
  ctx : Nat
  prio : Nat
  depth : Nat
  deriving DecidableEq, Repr

/-- A node of a convoy, and a CONVOYS record (R99). -/
structure ConvoyNode where
  pkg : Nat
  parent : Nat
  portIn : Nat
  deriving DecidableEq, Repr

structure ConvoyDef where
  id : Nat
  nodes : List ConvoyNode
  deriving DecidableEq, Repr

/-- A REDUCTION entry (R100). -/
structure ReductionDef where
  layerIdx : Nat
  rank : Nat
  owner : Nat
  buckets : Nat
  projConvoy : Nat
  paramConvoy : Nat
  deriving DecidableEq, Repr

/-- A FABRIC entry (R101). -/
structure FabricDef where
  port : Nat
  mode : Nat
  peerDom : Nat
  peerPort : Nat
  peerPkg : Nat
  vcMask : Nat
  deriving DecidableEq, Repr

/-- The PARTNER entry (R102). -/
structure PartnerDef where
  dom : Nat
  pkg : Nat
  powerDom : Nat
  deriving DecidableEq, Repr

structure Plan where
  planId : Nat
  jobSeed : Nat
  zd1 : Bool
  pkgCount : Nat
  digest : List Byte
  tiles : List TilePart
  layers : List LayerDef
  docks : List DockMap
  chains : List ChainDef
  holds : List HoldDef
  bollards : List BolRange
  berths : List BerthDef
  convoys : List ConvoyDef
  reductions : List ReductionDef
  fabric : List FabricDef
  partner : Option PartnerDef
  deriving DecidableEq, Repr

/-! ## Tasks, tiles, berths and bollards (R104, R289 to R313, R338) -/

inductive TaskSt where
  /-- Validated, its wait not granted: not yet taken (R296). -/
  | waiting
  /-- Taken and not started. -/
  | taken
  | running
  /-- Suspended at a 4 KiB unit (R346). -/
  | suspended
  /-- A DOCK_REFIT handed to its dock (R155), or a BARRIER that holds (R313). -/
  | handed
  /-- Ended; its status word is written, its signal not yet raised (R308). -/
  | ended
  deriving DecidableEq, Repr

/-! ## What the tally compares (R226, R228) -/

/-- One product of a task as it was computed: rows of the left operand, columns of the right one, the block scale of each
element of the weight operand and its stored format (0 where it has no master to differ from), where its master begins,
whether its columns run along the master's rows, the accumulators it started from and ended with, and which outputs have
an input element at the largest magnitude of its grid. -/
structure CapProd where
  rows : List (List Num)
  cols : List (List Num)
  scales : List (List Rat)
  fmt : Nat
  master : Bool
  row0 : Nat
  col0 : Nat
  swap : Bool
  init : List Num
  acc : List Num
  big : List Bool
  deriving DecidableEq, Repr

/-- What one dock gave to one output: its entry among the layer's in DOCK_MAP, the master row of its first row, its inputs, the
sum of the magnitudes of its quantised inputs, its scales and its analogue bound. -/
structure CapTerm where
  entry : Nat
  row0 : Nat
  x : List Num
  q : Rat
  sIn : Rat
  wScale : Rat
  analog : Rat
  deriving DecidableEq, Repr

/-- One output of one vector of a dock product: its master column, its periphery bias, its value, its docks' terms, whether an
input code has the largest magnitude, and whether the vector was poisoned (R114). -/
structure CapOut where
  col : Nat
  bias : Num
  z : Num
  terms : List CapTerm
  big : Bool
  poisoned : Bool
  deriving DecidableEq, Repr

structure Cap where
  /-- 0 a dock product, 1 a narrow digital product, 2 a product at WIDE or of a PATH 2 layer. -/
  product : Nat
  layer : Nat
  prods : List CapProd
  outs : List CapOut
  inSat : Bool
  behind : Bool
  deriving DecidableEq, Repr

/-- A task the execute engine has validated. -/
structure Task where
  id : Nat
  words : List Nat
  berth : Nat
  /-- Number of its manifest since plan load, its virtual address, and the slot. -/
  man : Nat
  manVa : Nat
  slot : Nat
  st : TaskSt
  /-- It completes as a no-op, with STATE 2 (R9, R234, R235). -/
  noop : Bool
  /-- 0: no gate; 1: a gate that waits for its evaluation; 2: a gate that has passed (R231). -/
  gate : Nat
  /-- Samples of its context when it was taken: the gate waits for the tallies before that one (R231). -/
  gateSeq : Nat
  /-- 4 KiB destination units moved, or parts of a split task done (R345). -/
  units : Nat
  /-- Its work is finished, so it ends when its turn comes. -/
  worked : Bool
  /-- Transfers it has outstanding (R296). -/
  outstanding : Nat
  /-- Fabric messages of it not yet answered (R308). -/
  unanswered : List Nat
  /-- Virtual ranges it has written, address and length (R298). -/
  written : List (Nat × Nat)
  /-- STATE and CODE it ends with, OP_STATUS so far (R293). -/
  endState : Nat
  code : Nat
  status : Nat
  /-- Ferry slots it read: chain and slot (R303); the chain and chunk it loads at a head (R301). -/
  slotsRead : List (Nat × Nat)
  chainLoad : Option (Nat × Nat)
  /-- It started in overlap with the task of that identity (R297). -/
  overlaps : Option Nat
  /-- The task taken just before it on its tile (R297). -/
  follows : Option Nat
  /-- The frame as its prologue read it, where it started in overlap (R297). -/
  frame : Option (List Byte)
  /-- Ranges that its operands take, as its descriptor and its frame gave them when it was taken (R296, R347). -/
  uses : List (Nat × Nat)
  /-- Transfers that wait for a free entry, and whether it has no further ones to make (R296, R301, R319). -/
  unissued : Nat
  issued : Bool
  /-- It was sampled by the tally: the slot it took, whose copy is under way (R226). -/
  sample : Option Nat
  /-- It completes as soon as its last write is issued (R309). -/
  express : Bool
  /-- A parameter bucket it delivers to its own package: layer index and bucket (R410). -/
  landing : Option (Nat × Nat)
  /-- A task of an alternate manifest, run for the pop of a mark (R283). -/
  alt : Bool
  /-- What the tally would compare (R226). -/
  cap : Option Cap
  deriving DecidableEq, Repr

/-- A manifest in a buffer of a tile: its berth, number, address, slots (words of each), and slots that are poisoned. -/
structure ManBuf where
  berth : Nat
  man : Nat
  va : Nat
  slots : List (List Nat)
  poisoned : List Nat
  deriving DecidableEq, Repr

/-- A TLB entry: virtual page, page bits (16, 21 or 30), physical page, READ and WRITE (R338). -/
structure TlbEntry where
  va : Nat
  sizeBits : Nat
  pa : Nat
  rd : Bool
  wr : Bool
  deriving DecidableEq, Repr

/-- A manifest a berth has accepted and not finished. -/
structure Man where
  no : Nat
  va : Nat
  /-- Fetched before, so a later fetch does not zero its status area (R292). -/
  zeroed : Bool
  deriving DecidableEq, Repr

structure Berth where
  queue : List Man
  nextNo : Nat
  /-- Manifest number and slot of the next task to take. -/
  curMan : Nat
  curSlot : Nat
  waiting : Option Task
  ended : Nat
  lastCode : Nat
  /-- At the step mark: the position (R233), and the manifests accepted since that the replay fetches again. -/
  markMan : Nat
  markSlot : Nat
  log : List Man
  /-- Tasks completed since the mark: manifest number × 64 + slot, with the attempt each ended in. -/
  completed : List (Nat × Nat)
  deriving DecidableEq, Repr

def Berth.empty : Berth := ⟨[], 0, 0, 0, none, 0, 0, 0, 0, [], []⟩

structure Bollard where
  count : Nat
  /-- Its count at the step mark, and the signals received since from the fabric or from other contexts (R233). -/
  mark : Nat
  ext : Nat
  /-- Berths whose waits stand here, in the order they reached it (R306). -/
  waits : List Nat
  deriving DecidableEq, Repr

/-- One member of a ferry chain: chunks loaded, forwarded and released so far, and a forward under way (R300 to R303). -/
structure ChainMember where
  loaded : Nat
  forwarded : Nat
  released : Nat
  moving : Bool
  deriving DecidableEq, Repr

/-- The task that started last on a tile (R297): virtual ranges it writes. -/
structure PrevTask where
  id : Nat
  berth : Nat
  product : Bool
  writes : List (Nat × Nat)
  deriving DecidableEq, Repr

/-- The engines of one tile: what its execute engine has taken, its manifest buffers, and its round-robin place. -/
structure Tile where
  /-- Taken and not yet ended, in taken order; the one that runs, is suspended or is handed among them. -/
  tasks : List Task
  /-- Ended, their signals not yet raised. -/
  ending : List Task
  bufs : List ManBuf
  /-- The berth whose manifest burst is in flight. -/
  fetching : Option Nat
  /-- The berth last served, at each priority (R295). -/
  lastBerth : AMap Nat
  /-- The task last taken (R297). -/
  lastTaken : Option Nat
  /-- The last task that started: its identity, berth, whether it can be overlapped, and the ranges it writes (R297). -/
  prev : Option PrevTask
  deriving DecidableEq, Repr

def Tile.empty : Tile := ⟨[], [], [], none, [], none, none⟩

/-- 0x3001: the invalidation in progress (R339). -/
structure Inval where
  ctx : Nat
  va : Nat
  bytes : Nat
  deriving DecidableEq, Repr


/-! ## Contexts (R233, R313, R423 to R429) -/

/-- A detected data error: its code, its place, and the berth position and attempt that detected it (R428, R429). -/
structure DataErr where
  code : Nat
  kind : Nat
  ids : List Nat
  berth : Nat
  man : Nat
  slot : Nat
  attempt : Nat
  deriving DecidableEq, Repr

/-- A barrier under way: the sequence number of the first arrival, the berths that have arrived, and whether any of them
carries ADVANCE (R313). -/
structure BarSt where
  seq : Nat
  arrived : List Nat
  advance : Bool
  deriving DecidableEq, Repr

structure CtxSt where
  /-- The berths have stopped for a replay (R233); the ladder's trip is among its causes. -/
  replaying : Bool
  tripReplay : Bool
  /-- Replays and trips of the step, and whether its update is skipped (R232, R235). -/
  replays : Nat
  trips : Nat
  skip : Bool
  /-- Manifest addresses logged since the mark (R233). -/
  manLog : Nat
  /-- Data errors of this attempt, and those of the attempt before that are not yet judged (R423, R429). -/
  errs : List DataErr
  prior : List DataErr
  barrier : Option BarSt
  /-- Whether a gate of the step has been reached (R237). -/
  gated : Bool
  /-- Samples since plan load (R230); 0x7106 logged in the step; 0x7108 logged since plan load. -/
  sampleSeq : Nat
  dropLogged : Bool
  noChecker : Bool
  /-- Eligible tasks of each layer on each tile in the step (tile × 65,536 + layer index), and those that owe a sample
  in place of a dropped one (R225, R226). -/
  eligible : AMap Nat
  owed : AMap Nat
  deriving DecidableEq, Repr

def CtxSt.empty : CtxSt :=
  { replaying := false, tripReplay := false, replays := 0, trips := 0, skip := false, manLog := 0, errs := [], prior := [],
    barrier := none, gated := false, sampleSeq := 0, dropLogged := false, noChecker := false, eligible := [], owed := [] }

/-! ## Layers (R213 to R244) -/

/-- One class of a layer (R218 to R222): its mode, its history newest first (binary32 patterns), its range in force (a
binary32 pattern), the largest magnitude recorded in the attempt, and its counts. -/
structure ClassSt where
  jit : Bool
  hist : List Nat
  range : Nat
  stepMax : Rat
  converted : Nat
  saturated : Nat
  nonzero : Nat
  underflowed : Nat
  fullSat : Nat
  deriving DecidableEq, Repr

structure LayerSt where
  level : Nat
  cin : ClassSt
  cout : ClassSt
  cgrad : ClassSt
  nonfinite : Nat
  /-- The tally found an explained result in this attempt (R229). -/
  tally : Bool
  clean : Nat
  trips : Nat
  /-- It tripped since the history began to refill (R232). -/
  tripped : Bool
  /-- The gate of the step has passed, and in which attempt (R231, R234). -/
  gate : Option Nat
  /-- The first gate task of the attempt has been taken (R231). -/
  gateSeen : Bool
  /-- The move of a trip, which takes effect with the rewind: level and classes (R233). -/
  trip : Option (Nat × List Nat)
  /-- It tripped in this step (R232). -/
  tripStep : Bool
  /-- A move found at the end of a step, for the next step start: level and modes (R237). -/
  pending : Option (Nat × List Nat)
  /-- MASTER_VERSION (R163), and parameter buckets landed since it last advanced (R410). -/
  version : Nat
  landed : Nat
  /-- What the counters of the three classes and NONFINITE held when the update of the step was skipped: the gate had evaluated it (R235,
  R237). -/
  seen : List Nat
  deriving DecidableEq, Repr

def ClassSt.empty : ClassSt := ⟨false, [], 0x3F800000, 0, 0, 0, 0, 0, 0⟩
def LayerSt.empty : LayerSt := ⟨0, ClassSt.empty, ClassSt.empty, ClassSt.empty, 0, false, 0, 0, false, none, false, none, false, none, 0, 0, []⟩

/-! ## The tally (R224 to R230, R430) -/

/-- A sampled task in a slot of its context's tally area. -/
structure TallySlot where
  seq : Nat
  tile : Nat
  /-- Position of its layer in LAYERS. -/
  layer : Nat
  takenAt : Nat
  step : Nat
  attempt : Nat
  task : Task
  /-- The slot copy is under way (R226). -/
  copying : Bool
  /-- An unexplained result is under diagnosis (R430). -/
  diag : Bool
  /-- CHECK_KIND of the TALLY that is due, and the checker that runs it. -/
  kind : Nat
  checker : Nat
  /-- Checkers used, first one first. -/
  tried : List Nat
  /-- Results of the first and the further checker. -/
  x1 : List Num
  x2 : List Num
  /-- Outputs that the first result found unexplained. -/
  open_ : List Nat
  /-- The step was advanced before it ended: whether that step had gates, and how many trips (R237, R425). -/
  late : Option (Bool × Nat)
  deriving DecidableEq, Repr
/-! ## The hold (R271 to R284) -/

/-- An entry or a mark (R272, R281): its header, and the payload of an entry. `stored`: the format in which the payload lies;
`size`: the bytes of its image, 0 for a mark. -/
structure HoldEntry where
  tag : Nat
  seg : Nat
  boundary : Bool
  mark : Bool
  fmtA : Nat
  stored : Nat
  len : Nat
  size : Nat
  alt : Nat
  restore : Nat
  step : Nat
  attempt : Nat
  payload : List Byte
  deriving DecidableEq, Repr

inductive HoldMoveKind where
  /-- The deepest bytes of tier 1 to the top of tier 2, or of tier 3 where the tile can hold no tier 2. -/
  | spill
  /-- The deepest extent of tier 2 to tier 3. -/
  | evict
  /-- The newest bytes of tier 2 to tier 1. -/
  | fetch
  /-- The newest extent of tier 3 to tier 2. -/
  | recall
  deriving DecidableEq, Repr

/-- The recompute of a pop under way (R282, R283): segments whose manifests are still to run, the one whose tasks run, and the
descriptors of its tasks still to be taken. -/
structure Redo where
  segs : List Nat
  running : Option Nat
  tasks : List (List Nat)
  /-- Segments recomputed before this pop began: what a fault of the pop leaves (R272). -/
  before : List Nat
  deriving DecidableEq, Repr

/-- The hold of a tile: entries and marks, newest first; bytes in tier 1; extents of tiers 2 and 3, deepest first, with the
bytes each holds; extents reserved for a push; recompute mode, whether it was logged in the step, the segment of the latest
boundary push, the alternate manifest of each segment and the segments recomputed in the attempt; the move in transit and its
bytes; bytes that a waiting push needs free in tier 1; whether a pop waits for its entry; since when either waits, and the task
that waits; bytes of the stack that moves met poisoned: their distance from the bottom of the stack, the address where they were met,
and the code (R279, R350). -/
structure HoldSt where
  entries : List HoldEntry
  t1 : Nat
  x2 : List (Nat × Nat)
  x3 : List (Nat × Nat)
  res2 : List Nat
  res3 : List Nat
  marking : Bool
  logged : Bool
  lastSeg : Option Nat
  alts : AMap Nat
  redone : List Nat
  move : Option (HoldMoveKind × Nat)
  need : Nat
  want : Bool
  since : Option Nat
  redo : Option Redo
  prep : Option Nat
  bad : List (Nat × Nat × Nat)
  deriving DecidableEq, Repr

def HoldSt.empty : HoldSt := ⟨[], 0, [], [], [], [], false, false, none, [], [], none, 0, false, none, none, none, []⟩

/-! ## Docks (R111 to R179) -/

/-- A refit pass that is open (R154, R156): the version recorded at FIRST, whether the dock was unprogrammed, the context, the
LAYER_ID, where the fitted image lies, the rows scanned and programmed, whether target scales have been set and whether one
changed, outputs that engaged a spare, groups that received a program event (physical output × 32 + group), the biases to load,
PERSIST_META, and whether LAST has ended so that the completion work is due. -/
structure Pass where
  version : Nat
  unprog : Bool
  ctx : Nat
  layer : Nat
  image : Nat
  scanned : List Nat
  rows : List Nat
  targeted : Bool
  changed : Bool
  engaged : List Nat
  touched : AMap Nat
  biases : Option (List Nat)
  persist : Bool
  closing : Bool
  deriving DecidableEq, Repr

/-- Where a dock's trims come from (R165, R172, R174): nothing yet; the last calibration, whose measured values are the free
values from that draw on; a restored block, one register per physical column. -/
inductive Trims where
  | none
  | measured (draw : Nat)
  | restored (regs : List Nat)
  deriving DecidableEq, Repr

/-- A dock. Cells are held as the weight code of each row and physical output (row × 528 + output), whose four levels follow
from R151; registers, metadata and the column map by logical output; groups by physical output × 32 + group; gain selections,
peak counts and saturation since the last calibration by physical output × 2 + slice; `cold` is the gain of every slice whose gain
is not listed. -/
structure Dock where
  programmed : Bool
  codes : AMap Int
  scale : AMap Nat
  bias : AMap Nat
  metaScale : AMap Nat
  metaBias : AMap Nat
  /-- Persisted wear units by physical output (R161). -/
  units : AMap Nat
  /-- The units as they stood at the last power-up (R161). -/
  upUnits : AMap Nat
  column : AMap Nat
  spares : Nat
  groups : AMap Nat
  gains : AMap Nat
  cold : Nat
  trims : Trims
  /-- CAL_TEMP: °C, 0xFF while not calibrated since power-up. -/
  calTemp : Nat
  peak : AMap Nat
  saturated : AMap Nat
  ran : Bool
  clips : Nat
  /-- Raw results of the last vector it computed (R132). -/
  last : List Num
  version : Nat
  suspect : List Nat
  pass : Option Pass
  /-- The DOCK_REFIT task it works on: its tile, its identity, whether it carries LAST. -/
  job : Option (Nat × Nat × Bool)
  deriving DecidableEq, Repr

def Dock.empty : Dock :=
  { programmed := false, codes := [], scale := [], bias := [], metaScale := [], metaBias := [], units := [], upUnits := [], column := [],
    spares := 0, groups := [], gains := [], cold := 0, trims := .none, calTemp := 0xFF, peak := [], saturated := [], ran := false, clips := 0,
    last := [], version := 0, suspect := [], pass := none, job := none }

inductive CalKind where
  | native | cold | verify
  deriving DecidableEq, Repr

/-- A calibration that is queued or runs on a tile (R131, R167): its dock, its kind, the bollards to raise at its end with
their contexts, whether it runs, failures so far, and the CAL_TEMP of the restored block where a restore asked for a verify. -/
structure CalReq where
  dock : Nat
  kind : CalKind
  dones : List (Nat × Nat)
  running : Bool
  fails : Nat
  restore : Option Nat
  deriving DecidableEq, Repr

/-- The calibration of a whole die in the interrupting mode (R168): bollards to raise with their contexts, whether it runs, and
the docks that it repeats because they failed once (R170). -/
structure DieCal where
  dones : List (Nat × Nat)
  running : Bool
  repeats : List Nat
  deriving DecidableEq, Repr

/-- A dock of a DOCK_MVM that runs: its DOCK_MAP fields, its input width and scale (R114), whether it contributes held results
(R132), the phases of the vector still to run (the rows each drives), outputs flagged for the clip retry of the phase at the
head, the corrected results of that phase before its retry, the sum of the phases so far, and for each output Σ E_p × oLSB_p. -/
structure MvmDock where
  dock : Nat
  entry : Nat
  rowTile : Nat
  colTile : Nat
  rows : Nat
  cols : Nat
  width : Nat
  sIn : Num
  stale : Bool
  phases : List (List Nat)
  flagged : List Nat
  phase : List Num
  raw : List Num
  err : List Rat
  idle : Bool
  deriving DecidableEq, Repr

/-- A vector that every dock has finished: per dock its raw results and error terms; none where the vector was poisoned. -/
structure MvmVec where
  docks : List (List Num × List Rat)
  poisoned : Bool
  deriving DecidableEq, Repr

/-- A DOCK_MVM that runs on a tile's docks: its task, its input elements vector by vector, its docks in ascending ROW_TILE, the
vectors finished so far, whether the one under way is poisoned, clip retries, whether an input was clamped, and what it read when
it started of its destination: the format's code, and the range of the class OUT, none in just-in-time mode (R190). -/
structure MvmRun where
  task : Nat
  ins : List (List Num)
  docks : List MvmDock
  done : List MvmVec
  poisoned : Bool
  retries : Nat
  clamped : Bool
  outFmt : Nat
  outRange : Option Nat
  deriving DecidableEq, Repr


/-! ## Hawser ports and messages (R356 to R374) -/

/-- The link layer of a port: credits it holds at the peer per virtual channel, flits sent and flits acknowledged so far (the
sequence number on the wire is the count modulo 4,096), the messages whose flits are in its replay buffer with the count at
their last flit, messages that wait with how many flits of each are still to go, when it retrained, and the flit last resent
with how often in succession; flits received in order so far, and the messages in its receive buffer that are still to be
forwarded, with their flits (R359 to R362). -/
structure Port where
  credits : List Nat
  tx : Nat
  acked : Nat
  replay : List (Nat × Msg)
  queue : List (Msg × Nat)
  retrains : List Nat
  retry : Nat × Nat
  rx : Nat
  held : List (Nat × Msg)
  deriving DecidableEq, Repr

/-- Who waits for the answers of a transfer. -/
inductive XOwner where
  /-- A task of a tile. -/
  | task (tile id : Nat)
  /-- A chunk of the open record, its header and history, its commit record, the clearing of the old one (R438). -/
  | chunk (i tile id : Nat)
  | header
  | commit
  /-- A message of the harbourmaster or of a weighbridge that nothing waits for (R406). -/
  | device
  /-- The target of a securing, written into a member's mailbox: the member's bollard is raised once it is acknowledged (R435). -/
  | target
  /-- A recovery GET of a detached convoy node (R373). -/
  | recovery (convoy : Nat)
  deriving DecidableEq, Repr

/-- A transfer with messages not yet answered; `group`: once all are, the member's group bollard is raised (R377, R378). -/
structure Xfer where
  owner : XOwner
  ctx : Nat
  dom : Nat
  pkg : Nat
  port : Nat
  left : Nat
  group : Bool
  deriving DecidableEq, Repr

/-- One child of a convoy node in a transfer: its package, and how many messages it has acknowledged. -/
structure RelayChild where
  pkg : Nat
  acked : Nat
  /-- Counted as having acknowledged: the edge was detached (R373). -/
  detached : Bool
  deriving DecidableEq, Repr

/-- A multicast transfer at a node: at the root, and at every node that forwards it (R372). -/
structure Relay where
  tid : Nat
  convoy : Nat
  ctx : Nat
  /-- Tile, berth and identity of the task that issued it, at the root. -/
  task : Option (Nat × Nat × Nat)
  /-- Where the transfer begins at the root and at the receivers, and its length (at the root) or what has arrived of it. -/
  src : Nat
  dst : Nat
  length : Nat
  bollard : Nat
  increment : Nat
  step : Nat
  express : Bool
  /-- Messages issued or received, whether the last is among them, and those acknowledged to the parent. -/
  count : Nat
  last : Bool
  acked : Nat
  children : List RelayChild
  deriving DecidableEq, Repr

/-- The edge from this node to one child: flits of credit in use, messages that wait for credit, whether the child is detached, and
whether its credit returns are marked as held by its own children (R372 to R374). -/
structure Edge where
  used : Nat
  waiting : List Msg
  detached : Bool
  held : Bool
  deriving DecidableEq, Repr

/-- A recovery at a detached node (R373): what it still has to fetch. -/
structure Recov where
  convoy : Nat
  tid : Nat
  ctx : Nat
  src : Nat
  dst : Nat
  off : Nat
  bollard : Nat
  increment : Nat
  step : Nat
  xfer : Nat
  done : Bool
  deriving DecidableEq, Repr

structure Fabric where
  ports : AMap Port
  nextSeq : Nat
  xfers : AMap Xfer
  relays : List Relay
  /-- Convoy × 65,536 + child package. -/
  edges : AMap Edge
  recovs : List Recov
  deriving DecidableEq, Repr

def Fabric.reset : Fabric := ⟨[], 0, [], [], [], []⟩
/-! ## The weighbridge (R388 to R406) -/

/-- One instance of a factor bucket at its owner: its step, its base exponent, its accumulators in units of 2^(E − 60), the
elements whose non-finite flag is set, the contributors accepted and those answered LATE or REFUSED, whether the owner's own
contribution is committed, when its timer started, its counts, 0 open, 1 closing, 2 closed, and the DEADLINE_US in force as it
was made (R417). -/
structure Inst where
  step : Nat
  exp : Int
  acc : List Int
  bad : List Bool
  accepted : List Nat
  refused : List Nat
  own : Bool
  timer : Option Nat
  saturated : Nat
  below : Nat
  phase : Nat
  deadline : Nat
  deriving DecidableEq, Repr

/-- A contribution that its sender has not seen answered for good: tile and task, the transfer, landing address, bucket,
round (1 for Q), resends so far, and the MAX_RESENDS that stood as it was first sent (R417). -/
structure AccOut where
  tile : Nat
  task : Nat
  xfer : Nat
  dst : Nat
  src : Nat
  len : Nat
  bucket : Nat
  q : Bool
  resends : Nat
  limit : Nat
  deriving DecidableEq, Repr

structure Weigh where
  /-- Instances, and the exponent the last close of a bucket recorded, by entry, round and bucket. -/
  insts : AMap Inst
  exps : AMap Int
  outs : List AccOut
  /-- Closed instances whose landing writes were not acknowledged when the next step's opened (R395, R398), by the same key. -/
  closing : List (Nat × Inst)
  deriving DecidableEq, Repr

def Weigh.reset : Weigh := ⟨[], [], [], []⟩

/-! ## Securing state (R431 to R447) -/

/-- One region of SECURE_REGIONS: its canonical range, its other range, its length, which half is live. -/
structure Region where
  a : Nat
  kind : Nat
  live : Nat
  b : Nat
  length : Nat
  replicaPkg : Nat
  replicaRegion : Nat
  deriving DecidableEq, Repr

/-- A chunk of the open record: the messages of it at the partner not yet acknowledged, the bytes of it written, whether
its table entry has been written, its digest. -/
structure ChunkSt where
  region : Nat
  idx : Nat
  length : Nat
  written : Bool
  outstanding : Nat
  digest : List Byte
  deriving DecidableEq, Repr

/-- The open copy (R436 to R441). `marks`: granules written since the open, region × 2^24 + granule. `stage`: 0 the clearing
of the slot's commit is unanswered, 1 the header's transfer is, 2 chunks are written, 3 the commit is unanswered, 4 it is
answered. -/
structure CopySt where
  seq : Nat
  step : Nat
  openedAt : Nat
  stage : Nat
  chunks : List ChunkSt
  marks : AMap Nat
  committed : Bool
  swapping : Bool
  header : List Byte
  history : List Byte
  deriving DecidableEq, Repr

structure Secure where
  copy : Option CopySt
  /-- The pending step was passed while a copy or swap ran: the step whose open waits (R436). -/
  deferred : Option Nat
  /-- RISK has fallen below RISK_THRESHOLD − RISK_HYSTERESIS since the last request it caused (R434). -/
  armed : Bool
  /-- The record LOAD has selected: its header, chunk table and history (R445). -/
  loading : List Byte
  /-- Header, chunk table and history of the record that the idle half holds (R444). -/
  record : List Byte
  deriving DecidableEq, Repr

def Secure.reset : Secure := ⟨none, none, true, [], []⟩
/-! ## Lighthouse (R454 to R478) -/

/-- One channel's filter (R463). -/
structure Filt where
  /-- The last results, newest first, at most three. -/
  recent : List Int
  y : Int
  hi : Bool
  lo : Bool
  sampled : Bool
  resetPending : Bool
  deriving DecidableEq, Repr

/-- One converter's schedule: whether it is disabled (R460), the channels it still has to convert in this round. -/
structure Conv where
  disabled : Bool
  todo : List Nat
  deriving DecidableEq, Repr

/-- A rule's hold (R465): when its source became true, whether it holds, whether its actions were taken. -/
structure RuleSt where
  since : Option Nat
  holding : Bool
  deriving DecidableEq, Repr

/-- One ageing indicator (R469): the daily means, oldest first, and the running day. -/
structure AgeInd where
  days : List Rat
  sum : Int
  count : Nat
  logged : Bool
  deriving DecidableEq, Repr

structure Lighthouse where
  filt : AMap Filt
  conv0 : Conv
  conv1 : Conv
  /-- A plausibility check of this round (R460): the two results as they land. -/
  plaus : Option (Option Int × Option Int)
  mismatches : Nat
  cleans : Nat
  lastPlaus : Option Nat
  overrunInRound : Bool
  roundOpen : Bool
  rules : AMap RuleSt
  /-- The thermal ranges (fixed rules 0 to 2) that THERMTRIP_N was asserted for (R467). -/
  trip : List Nat
  /-- PKG_ALERT_N is asserted (R464). -/
  alert : Bool
  riskE : Rat
  riskK : Rat
  riskAt : Nat
  ageing : AMap AgeInd
  trimmed : Bool
  /-- CONVERTER_CONTROL as the present round started with it: a write applies at the next round (R473). -/
  control : AMap Nat
  deriving DecidableEq, Repr
/-! ## The whole machine -/

structure State where
  pending : List Instr
  out : List Output
  draws : Nat
  /-- 0x7050 LOCAL_TIMER, ns since the last reset (R383). -/
  timer : Nat
  /-- Scalar objects in force: key index × 256 + subindex; an absent key holds its default. -/
  dict : AMap Nat
  /-- Staged members written since the last accepted apply (R45). -/
  staged : AMap Nat
  /-- Contents of DOMAIN objects that were downloaded. -/
  blobs : AMap (List Byte)
  /-- Device physical memory and the host windows (R326), canonical. -/
  mem : List Host.Cell
  /-- Poisoned bytes (R350): address to the code of the error that poisoned them. -/
  poison : AMap Nat
  power : Power
  store : Store
  log : EventLog
  hl0 : HostSt
  hl1 : HostSt
  notice : Notice
  odp : Odp
  mgmt : Mgmt
  lh : Lighthouse
  fw : Fw
  spdmHl0 : SpdmConn
  spdmHl1 : SpdmConn
  spdmOdp : SpdmConn
  tap : Tap
  dbg : Debug
  plan : Option Plan
  tiles : AMap Tile
  tlbs : AMap (List TlbEntry)
  berths : AMap Berth
  bollards : AMap Bollard
  /-- Per chain id, its members in order. -/
  chains : AMap (List ChainMember)
  inval : Option Inval
  nextTask : Nat
  ctxs : AMap CtxSt
  secure : Secure
  /-- Sampled tasks: context × 64 + slot. -/
  tallies : AMap TallySlot
  /-- Docks that are retired, ports that are marked failed, and how often a checker tile was outvoted since plan load. -/
  retiredDocks : AMap Nat
  failedPorts : AMap Nat
  outvoted : AMap Nat
  fabric : Fabric
  /-- By position in LAYERS. -/
  layers : AMap LayerSt
  /-- Tensors stored in a format that a level put in place of the descriptor's (R214, R215): physical address of the first byte
  to the format code. -/
  stored : AMap Nat
  /-- Weighbridge instances, exponent records and open contributions. -/
  weigh : Weigh
  /-- Holds by tile. -/
  holds : AMap HoldSt
  docks : AMap Dock
  /-- Calibrations queued or running, by tile, in order of arrival (R167); by die in the interrupting mode (R168). -/
  cals : AMap (List CalReq)
  dieCals : AMap DieCal
  /-- DOCK_MVM tasks that run, by tile. -/
  mvms : AMap MvmRun
  deriving DecidableEq, Repr

/-! ## Reset -/

def Bank.empty : Bank := ⟨false, false, 0, []⟩
def Power.reset : Power :=
  { pst := .off, phase := .clampCheck, startPending := false, clampGood := false, napHeld := false, napFrom := .ready, sleepBoot := false,
    autoBlocked := false, resetLow := false, convertersOn := false, pwrGood := false, 
    hmRunning := false, restoreOpen := false, restoredDies := [], shutdownBusy := false, shutdownOrderly := false,
    sleepHeld := false, settled := false, settle := [], dieCal := [], ovLatch := false, resetLatch := false, mref := false, droop := false, underPeriods := 0,
    gateN := 0, hist := [], goal := [], workSince := 0 }
def Dac.reset : Dac := ⟨0, 0, false, 0, 0, 0, 0, 0, [], [], none⟩
def HostSt.reset : HostSt :=
  { perst := true, config := [], decoder := 0, msixOn := false, masked := [true, true, true],
    pendingBits := [false, false, false], targets := [(0, 0), (0, 0), (0, 0)], wakeN := false, filter := [],
    waiting := [], dacs := [Dac.reset, Dac.reset, Dac.reset, Dac.reset] }
def Conv.reset : Conv := ⟨false, []⟩
def Lighthouse.reset : Lighthouse :=
  { filt := [], conv0 := Conv.reset, conv1 := Conv.reset, plaus := none, mismatches := 0, cleans := 0,
    lastPlaus := none, overrunInRound := false, roundOpen := false, rules := [], trip := [], alert := false, riskE := 0, riskK := 0,
    riskAt := 0, ageing := [], trimmed := false, control := [] }
/-- The factory's slots (log 4): slot A holds the shipped image, committed with ACTIVE_SEQ 1; slot B is empty. -/
def FwSlot.shipped : FwSlot :=
  { present := true, digestsGood := true, svn := Config.shippedSvn, activeSeq := 1, committed := true,
    version := Config.shippedVersion, lhDigest := Config.shippedLhDigest, hmDigest := Config.shippedHmDigest }
def FwSlot.empty : FwSlot := ⟨false, false, 0, 0, false, [], [], []⟩
def SpdmConn.reset : SpdmConn := ⟨false, false, false, []⟩

/-- The machine before 48 V is applied (log 4). -/
def State.reset : State :=
  { pending := [], out := [], draws := 0, timer := 0, dict := [], staged := [], blobs := [], mem := [], poison := [],
    power := Power.reset,
    store := { bank0 := Bank.empty, bank1 := Bank.empty, saving := none, image := none, mapGood := true, devRec := [], devBlob := [],
               orderly := true, ageing := some [] },
    log := { ring := [], flash := [], nextSeq := 1, bootCount := 0, lastAt := [] },
    hl0 := HostSt.reset, hl1 := HostSt.reset, notice := ⟨false, true, 0, false⟩, odp := ⟨[], [], []⟩,
    mgmt := ⟨false, false⟩, lh := Lighthouse.reset,
    fw := { slotA := FwSlot.shipped, slotB := FwSlot.empty, running := 0, passedOver := [], bothFailed := false,
            hmVerified := false, writing := none, writer := none },
    spdmHl0 := SpdmConn.reset, spdmHl1 := SpdmConn.reset, spdmOdp := SpdmConn.reset,
    tap := ⟨.idcode, 0⟩, dbg := ⟨false, [], 0, 0⟩,
    plan := none, tiles := [], tlbs := [], berths := [], bollards := [], chains := [], inval := none, nextTask := 0, ctxs := [],
    secure := Secure.reset, tallies := [], retiredDocks := [], failedPorts := [], outvoted := [], fabric := Fabric.reset, layers := [], stored := [], weigh := Weigh.reset,
    holds := [], docks := [], cals := [], dieCals := [], mvms := [] }

end Sys2Proof.Machine
end

