-- ==== Sys2Proof/Machine/Ops.lean ====
section
/-! DEFINITION. The named operations over State: objects, memory, outputs, the event log, interrupts and the power state. -/

namespace Sys2Proof.Machine

/-! ## Scalar objects -/

/-- The value in force of a scalar object (R42, R45). -/
def State.getK (s : State) (k : Nat) : Nat :=
  match mget? s.dict k with
  | some v => v
  | none => objDefault k

def State.get (s : State) (idx sub : Nat) : Nat := s.getK (key idx sub)

/-- Set the value in force. -/
def State.putK (s : State) (k v : Nat) : State := { s with dict := mset s.dict k v }

def State.put (s : State) (idx sub v : Nat) : State := s.putK (key idx sub) v

/-- Add to a counter object of w bits, saturating. -/
def State.count (s : State) (idx sub w n : Nat) : State := s.put idx sub (satAdd w (s.get idx sub) n)

/-- A hard fault that belongs to no context (R421): 0x8220:04 counts it while the harbourmaster, which holds it (R452), runs. -/
def State.countHard (s : State) : State := if s.power.hmRunning then s.count 0x8220 4 64 1 else s

/-- The staged value of a member: its value in force until it is written (R45). -/
def State.stagedK (s : State) (k : Nat) : Nat := (mget? s.staged k).getD (s.getK k)

/-- The members lo to hi of a RECORD take their staged values together, and the staged values are set to the values in
force again (R45). -/
def State.applyStaged (s : State) (idx lo hi : Nat) : State :=
  iter (hi + 1 - lo) (fun i s =>
    let k := key idx (lo + i)
    { s with dict := mset s.dict k (s.stagedK k), staged := merase s.staged k }) s

/-- The device's 0x3100 context register of context c. -/
def ctxIdx (c : Nat) : Nat := 0x3100 + c

/-! ## Free values -/

/-- Draw a free value: the step goes on with a number nothing constrains (log 7). -/
def State.draw (s : State) : Nat × State := (Config.freeNat s.draws, { s with draws := s.draws + 1 })

/-- n free bytes (log 7, log 10). -/
def State.drawBytes (s : State) (n : Nat) : List Byte × State :=
  ((List.range n).map (fun i => BitVec.ofNat 8 (Config.freeNat (s.draws + i))), { s with draws := s.draws + n })

/-- A step with no command: the local timer moves on by an amount nothing constrains (R383, log 2). -/
def State.idle (s : State) : State := { s with timer := s.timer + Config.tick s.timer }

/-! ## Memory (R326): cells in canonical form, an unlisted byte reads 0 (log 1) -/

def cellGet : List Host.Cell → Nat → Byte
  | [], _ => 0
  | (j, v) :: r, a => if j = a then v else cellGet r a

/-- Write one byte, keeping addresses rising and no byte 0 listed. -/
def cellSet : List Host.Cell → Nat → Byte → List Host.Cell
  | [], a, v => if v = 0 then [] else [(a, v)]
  | (j, w) :: r, a, v =>
    if a < j then (if v = 0 then (j, w) :: r else (a, v) :: (j, w) :: r)
    else if j = a then (if v = 0 then r else (a, v) :: r)
    else (j, w) :: cellSet r a v

/-- The canonical form. -/
def Memory.wf : List Host.Cell → Bool
  | [] => true
  | [(_, v)] => decide (v ≠ 0)
  | (j, v) :: (k, w) :: r => decide (j < k) && decide (v ≠ 0) && Memory.wf ((k, w) :: r)

def State.byteAt (s : State) (a : Nat) : Byte := cellGet s.mem a

/-- n bytes from an address. -/
def State.bytesAt (s : State) (a : Nat) : Nat → List Byte
  | 0 => []
  | n + 1 => s.byteAt a :: s.bytesAt (a + 1) n

def cellsSet (m : List Host.Cell) (a : Nat) : List Byte → List Host.Cell
  | [] => m
  | b :: r => cellsSet (cellSet m a b) (a + 1) r

/-- Write bytes at consecutive addresses; a write clears the poison of what it covers (R350), and what was known of a
tensor's stored format there. -/
def State.writeAt (s : State) (a : Nat) (bs : List Byte) : State :=
  { s with mem := cellsSet s.mem a bs, poison := s.poison.filter (fun e => decide (e.1 < a ∨ a + bs.length ≤ e.1)),
           stored := s.stored.filter (fun e => decide (e.1 < a ∨ a + bs.length ≤ e.1)) }

/-- Mark bytes poisoned (R350). -/
def State.poisonAt (s : State) (a n code : Nat) : State :=
  { s with poison := iter n (fun i p => mset p (a + i) code) s.poison }

def State.poisonedIn (s : State) (a n : Nat) : Bool := s.poison.any (fun e => decide (a ≤ e.1 ∧ e.1 < a + n))

/-- The address and the code of the first poisoned byte of a range. -/
def State.firstPoison (s : State) (a n : Nat) : Option (Nat × Nat) := s.poison.find? (fun e => decide (a ≤ e.1 ∧ e.1 < a + n))

/-- Forget the bytes of an address range: they count as never written (log 12). -/
def State.forget (s : State) (lo hi : Nat) : State :=
  { s with mem := s.mem.filter (fun e => decide (e.1 < lo ∨ hi ≤ e.1)),
           poison := s.poison.filter (fun e => decide (e.1 < lo ∨ hi ≤ e.1)),
           stored := s.stored.filter (fun e => decide (e.1 < lo ∨ hi ≤ e.1)) }

/-- Bounds of the physical map (R326, 0x3003). -/
def reservedBase : Nat := 0x00FF00000000
def sramBase : Nat := 0x010000000000
def sramBytes : Nat := 2304 * 16777216
def hostWindowBase (p : Nat) : Nat := if p = 0 then 0x8000000000000 else 0xC000000000000
def hostWindowBytes : Nat := 0x4000000000000
/-- Physical address of an offset in a tile's SRAM. -/
def tileAddr (t off : Nat) : Nat := sramBase + t * 16777216 + off

/-! ## Outputs -/

def State.emit (s : State) (o : Output) : State := { s with out := s.out ++ [o] }

def State.hl (s : State) (p : Nat) : HostSt := if p = 0 then s.hl0 else s.hl1
def State.setHl (s : State) (p : Nat) (h : HostSt) : State := if p = 0 then { s with hl0 := h } else { s with hl1 := h }
/-- 0x1300 or 0x1301: the link state of a CXL port (R531). -/
def State.linkUp (s : State) (p : Nat) : Bool := s.get (0x1300 + p) 1 == 2 || s.get (0x1300 + p) 1 == 3

/-- Send an MSI-X message, or set its pending bit while it is masked (R516). -/
def State.msix (s : State) (p v : Nat) : State :=
  let h := s.hl p
  if !h.msixOn then s
  else if h.masked.getD v true then s.setHl p { h with pendingBits := h.pendingBits.set v true }
  else if s.linkUp p then
    let tgt := h.targets.getD v (0, 0)
    s.emit (.msix p v tgt.1 tgt.2)
  else s

/-! ## The event log (R72 to R75) -/

/-- An event before it is logged. -/
structure Ev where
  code : Nat
  severity : Nat
  kind : Nat
  id : Nat
  ctx : Nat := 0xFF
  step : Nat := 2 ^ 64 - 1
  epoch : Nat := 2 ^ 32 - 1
  detail : List Byte := []
  force : Bool := false
  deriving DecidableEq, Repr

/-- Severities of R72. -/
def note : Nat := 0
def warning : Nat := 1
def jobFault : Nat := 2
def deviceFault : Nat := 3

/-- How many entries the ring holds: 4,096 in the harbourmaster (R73), 256 in the lighthouse (R455). -/
def State.ringCap (s : State) : Nat := if s.power.hmRunning then 4096 else 256

/-- Log an event: a new ring entry, overwriting the oldest when the ring is full; an overwritten entry that is not in the
flash log is lost, counted, and marks the new entry (R73). The class is counted (R75) and vector 1 sent (R516). -/
def State.logEv (s : State) (e : Ev) : State :=
  let full := decide (s.ringCap ≤ s.log.ring.length)
  let dropped := s.log.ring.take (s.log.ring.length + 1 - s.ringCap)
  let lost := (dropped.filter (fun x => !x.persisted)).length
  let entry : LogEntry :=
    { seq := s.log.nextSeq, time := s.timer, step := e.step, epoch := e.epoch, code := e.code, severity := e.severity,
      kind := e.kind, id := e.id, ctx := e.ctx, persisted := false, sent := false,
      lostBefore := full && decide (0 < lost), force := e.force, boot := s.log.bootCount, crcGood := true, detail := e.detail.take 20 }
  let s := { s with log := { s.log with ring := s.log.ring.drop (s.log.ring.length + 1 - s.ringCap) ++ [entry],
                                        nextSeq := s.log.nextSeq + 1 } }
  let s := s.count 0xA001 3 32 lost
  let s := s.put 0xA001 4 entry.seq
  let s := if 1 ≤ e.code / 4096 ∧ e.code / 4096 ≤ 10 then s.count 0xA010 (e.code / 4096) 64 1 else s
  if s.get 0x1311 1 ≤ e.severity then (s.msix 0 1).msix 1 1 else s

/-- A hard fault that belongs to no context: counted, logged, and sent as an EVENT whatever NOTIFY_LEVEL holds (R426). -/
def State.logHard (s : State) (e : Ev) : State := s.countHard.logEv { e with force := true }

/-- Log a code at most once per period of ns (R503, R478); period 0 means once per start-up. -/
def State.logEvery (s : State) (period : Nat) (e : Ev) : State :=
  match mget? s.log.lastAt e.code with
  | some t =>
    if period = 0 ∨ s.timer < t + period then s
    else { s.logEv e with log := { (s.logEv e).log with lastAt := mset s.log.lastAt e.code s.timer } }
  | none => { s.logEv e with log := { (s.logEv e).log with lastAt := mset s.log.lastAt e.code s.timer } }

/-- An event of the package. -/
def pkgEv (code sev : Nat) (detail : List Byte := []) : Ev := { code := code, severity := sev, kind := 0, id := 0, detail := detail }

/-- An event that concerns a context: its step and epoch (R72). -/
def State.ctxEv (s : State) (c code sev kind id : Nat) (detail : List Byte := []) : Ev :=
  { code := code, severity := sev, kind := kind, id := id, ctx := c,
    step := s.get 0x4001 (c + 1), epoch := s.get 0x4002 (c + 1), detail := detail }

/-- The 60 bytes of an entry that its CRC covers, then the CRC (R72). -/
def LogEntry.image (e : LogEntry) : List Byte :=
  let flags := (if e.persisted then 1 else 0) + (if e.sent then 2 else 0) + (if e.lostBefore then 4 else 0)
  let b := leBytes 8 e.seq ++ leBytes 8 e.time ++ leBytes 8 e.step ++ leBytes 4 e.epoch ++ leBytes 2 e.code
    ++ leBytes 1 e.severity ++ leBytes 1 e.kind ++ leBytes 4 e.id ++ leBytes 1 e.ctx ++ leBytes 1 flags
    ++ leBytes 2 e.boot ++ (e.detail ++ zeros (20 - e.detail.length))
  b ++ leBytes 4 (crc32 b)

/-- The entries of the flash log that can be read: one whose CRC fails is treated as absent (R73). -/
def EventLog.kept (l : EventLog) : List LogEntry := l.flash.filter (·.crcGood)

/-- Every entry held, ring and flash, in rising SEQ (R75). An entry held in both is delivered from its ring copy, whose FLAGS
are the present ones; the flash copy alone is left once the ring has dropped it, and its FLAGS are those it was written with:
the manual does not say which copy is read (log 26). -/
def EventLog.all (l : EventLog) : List LogEntry :=
  l.kept.filter (fun f => !l.ring.any (fun e => f.seq == e.seq)) ++ l.ring

/-- The number the numbering goes on from after a power cycle: one above the highest in the persisted log (R72). -/
def EventLog.resumeSeq (l : EventLog) : Nat := l.kept.foldl (fun m e => max m (e.seq + 1)) 1

/-- The lowest SEQ still held (R75); the next one while none is held. -/
def EventLog.oldest (l : EventLog) : Nat :=
  l.all.foldl (fun m e => min m e.seq) l.nextSeq

/-! ## Power state (R486) -/

def PState.code : PState → Nat
  | .off => 0 | .aux => 1 | .boot => 2 | .ready => 3 | .run => 4 | .idle => 5 | .nap => 6 | .sleep => 7

/-- Enter a power state: POWER_STATE reports it, and vector 2 is sent on both ports at every change (R516). -/
def State.setPst (s : State) (p : PState) : State :=
  if s.power.pst = p then s
  else
    let s := { s with power := { s.power with pst := p } }
    let s := s.put 0xB000 1 p.code
    (s.msix 0 2).msix 1 2

/-- READY, RUN or IDLE: every object can be reached (R48). -/
def State.operating (s : State) : Bool := s.power.pst = .ready || s.power.pst = .run || s.power.pst = .idle

/-- Work arrives: IDLE goes to RUN (R487). -/
def State.work (s : State) : State :=
  let s := { s with power := { s.power with workSince := s.timer } }
  if s.power.pst = .idle then s.setPst .run else s

/-- A wake event in NAP returns the device to the state it entered NAP from (R488). -/
def State.napWake (s : State) : State :=
  if s.power.pst = .nap then s.setPst s.power.napFrom else s

end Sys2Proof.Machine
end

