-- ==== Sys2Proof/Machine/PlanImage.lean ====
section
/-! DEFINITION. Reading and validating a stowage plan image: header, section table, sections, cross checks (R89 to R103). -/

namespace Sys2Proof.Machine

/-- A failed load: its code, PLAN_FAULT_SECTION and PLAN_FAULT_ENTRY (R103). -/
structure PlanErr where
  code : Nat
  section_ : Nat := 0xFFFF
  entry : Nat := 0xFFFFFFFF
  deriving DecidableEq, Repr

/-- The device's own objects that the checks compare with (R103, R71, R442). -/
structure PlanEnv where
  length : Nat
  absentTiles : List Nat
  retiredDocks : List Nat
  failedPorts : List Nat
  domainId : Nat
  packageIndex : Nat
  powerDomain : Nat
  override : Bool
  deriving DecidableEq, Repr

abbrev Check := Except PlanErr

def need (ok : Bool) (e : PlanErr) : Check Unit := if ok then .ok () else .error e

/-- Run a check on each element with its index, stopping at the first failure. -/
def checkAll {α : Type} (f : Nat → α → Check Unit) : Nat → List α → Check Unit
  | _, [] => .ok ()
  | i, a :: r =>
    match f i a with
    | .ok () => checkAll f (i + 1) r
    | .error e => .error e

/-- Read each element with its index, stopping at the first failure. -/
def readAll {α β : Type} (f : Nat → α → Check β) : Nat → List α → Check (List β)
  | _, [] => .ok []
  | i, a :: r =>
    match f i a with
    | .error e => .error e
    | .ok b =>
      match readAll f (i + 1) r with
      | .error e => .error e
      | .ok bs => .ok (b :: bs)

structure Sec where
  typ : Nat
  version : Nat
  off : Nat
  len : Nat
  count : Nat
  deriving DecidableEq, Repr

def isZero (l : List Byte) : Bool := l.all (fun b => b == 0)
def sub_ (l : List Byte) (off len : Nat) : List Byte := (l.drop off).take len
def ceilDiv (a b : Nat) : Nat := (a + b - 1) / b

/-! ### Header and section table -/

def deviceType : Nat := 0x5A440236

def checkHeader (img : List Byte) (env : PlanEnv) : Check Unit := do
  need (field img 0 4 == 0x574F5453 && field img 6 2 == 128) ⟨0x1102, 0xFFFF, 0xFFFFFFFF⟩
  need (field img 4 2 == 2) ⟨0x1103, 0xFFFF, 0xFFFFFFFF⟩
  need (field img 8 4 == deviceType && field img 12 4 == env.length) ⟨0x1104, 0xFFFF, 0xFFFFFFFF⟩
  need (sha384 (img.take 48 ++ zeros 48 ++ img.drop 96) == sub_ img 48 48) ⟨0x1105, 0xFFFF, 0xFFFFFFFF⟩
  need (decide (4 ≤ field img 16 2 ∧ field img 16 2 ≤ 32 ∧ field img 18 2 = 0 ∧ field img 20 4 = 128
      ∧ field img 24 8 ≠ 0 ∧ field img 40 4 < 2 ∧ 1 ≤ field img 44 4 ∧ field img 44 4 ≤ 16384)
      && isZero (sub_ img 96 32)) ⟨0x1108, 0xFFFF, 0xFFFFFFFF⟩

def readSecs (img : List Byte) : List Sec :=
  (List.range (field img 16 2)).map (fun i =>
    let e := sub_ img (128 + 16 * i) 16
    ⟨field e 0 2, field e 2 2, field e 4 4, field e 8 4, field e 12 4⟩)

/-- Placement, alignment, overlap, type and version of the section at an index, against those before it (R90). -/
def secOk (imgLen tabEnd : Nat) (earlier : List Sec) (s : Sec) : Bool :=
  decide (1 ≤ s.typ ∧ s.typ ≤ 11 ∧ s.version = 1 ∧ s.off % 8 = 0 ∧ tabEnd ≤ s.off ∧ s.off + s.len ≤ imgLen)
  && earlier.all (fun e => decide (e.typ ≠ s.typ)
      && (s.len == 0 || e.len == 0 || decide (e.off + e.len ≤ s.off) || decide (s.off + s.len ≤ e.off)))

def checkSecs (imgLen tabEnd : Nat) : List Sec → List Sec → Check Unit
  | _, [] => .ok ()
  | earlier, s :: r =>
    if secOk imgLen tabEnd earlier s then checkSecs imgLen tabEnd (earlier ++ [s]) r
    else .error ⟨0x1106, earlier.length, 0xFFFFFFFF⟩

def secOf (ss : List Sec) (t : Nat) : Option Sec := ss.find? (fun s => s.typ == t)

/-- Required sections (R91). -/
def checkRequired (img : List Byte) (ss : List Sec) : Check Unit :=
  let has (t : Nat) : Bool := (secOf ss t).isSome
  let paths : List Nat := match secOf ss 2 with
    | none => []
    | some s => (List.range (min s.count (s.len / 32))).map (fun j => field img (s.off + 32 * j + 2) 1)
  let reductions : Nat := match secOf ss 9 with
    | none => 0
    | some s => s.count
  need (has 1 && has 2 && has 6 && has 7
    && (!paths.contains 0 || has 3)
    && (!(paths.contains 1 || paths.contains 2) || has 4)
    && (reductions == 0 || has 8)
    && (decide (field img 44 4 ≤ 1) || (has 9 && has 10))) ⟨0x1107, 0xFFFF, 0xFFFFFFFF⟩

/-! ### Entries (step 4): the field checks 0x1108, then the entry's own checks in code order -/

def readTile (env : PlanEnv) (i : Nat) (j : Nat) (e : List Byte) : Check TilePart := do
  let t : TilePart := ⟨field e 0 2, field e 2 2, field e 4 2, field e 6 1, bit (field e 7 1) 0⟩
  need (decide (t.tile < 2304 ∧ t.holdT1 % 64 = 0 ∧ t.holdT1 ≤ 12288 ∧ t.ferryKib % 64 = 0 ∧ t.ferryKib ≤ 4096
    ∧ 1 ≤ t.mbufs ∧ t.mbufs ≤ 8 ∧ field e 7 1 < 2) && isZero (sub_ e 8 8)) ⟨0x1108, i, j⟩
  need (!env.absentTiles.contains t.tile) ⟨0x1109, i, j⟩
  need (decide (512 + 4 * t.mbufs + t.ferryKib + t.holdT1 ≤ 16384)) ⟨0x110C, i, j⟩
  return t

def readLayer (i j : Nat) (e : List Byte) : Check LayerDef := do
  let l : LayerDef := ⟨field e 0 2, field e 2 1, field e 3 1, field e 4 1, field e 5 1, field e 6 1, field e 8 4,
    field e 12 4, field e 16 4, field e 20 4, field e 24 1⟩
  need (decide (l.id ≤ 65534 ∧ l.path ≤ 2 ∧ l.actFn ≤ 8 ∧ field e 7 1 = 0 ∧ l.ctx ≤ 63
    ∧ 1 ≤ l.k ∧ l.k ≤ 16777216 ∧ 1 ≤ l.n ∧ l.n ≤ 16777216) && isZero (sub_ e 25 7)
    && (if l.path = 2 then decide (l.inW = 0 ∧ l.gradW = 0)
        else decide (1 ≤ l.inW ∧ l.inW ≤ 8 ∧ 4 ≤ l.gradW ∧ l.gradW ≤ 8))
    && (if l.path = 0 then decide (1 ≤ l.replicas ∧ l.replicas ≤ 16
          ∧ l.count = l.replicas * ceilDiv l.k 512 * ceilDiv l.n 512)
        else decide (l.replicas = 1 ∧ l.count = 1))) ⟨0x1108, i, j⟩
  return l

def readDock (env : PlanEnv) (i j : Nat) (e : List Byte) : Check DockMap := do
  let d : DockMap := ⟨field e 0 4, field e 4 2, field e 6 2, field e 8 2, field e 10 2, field e 12 2, field e 14 1,
    field e 15 1⟩
  need (decide (d.dock < 18432 ∧ 1 ≤ d.rowsUsed ∧ d.rowsUsed ≤ 512 ∧ 1 ≤ d.colsUsed ∧ d.colsUsed ≤ 512
    ∧ d.replica ≤ 15 ∧ d.blockWidth ≤ 8)) ⟨0x1108, i, j⟩
  need (!env.absentTiles.contains (d.dock / 8) && !env.retiredDocks.contains d.dock) ⟨0x1109, i, j⟩
  return d

def twoMiB : Nat := 2097152

def readHold (i j : Nat) (e : List Byte) : Check HoldDef := do
  let h : HoldDef := ⟨field e 0 1, field e 8 8, field e 16 8, field e 24 8, field e 32 8⟩
  need (decide (h.ctx ≤ 63 ∧ h.t2Base % twoMiB = 0 ∧ h.t2Size % twoMiB = 0 ∧ h.t3Base % twoMiB = 0
    ∧ h.t3Size % twoMiB = 0 ∧ h.t2Size ≤ 768 * 2 ^ 30 ∧ h.t3Size ≤ 4 * 2 ^ 40) && isZero (sub_ e 1 7)) ⟨0x1108, i, j⟩
  return h

def readBolRange (i j : Nat) (e : List Byte) : Check BolRange := do
  let b : BolRange := ⟨field e 0 4, field e 4 4, field e 8 1, field e 12 4, field e 16 4⟩
  need (decide (b.first ≤ 65535 ∧ 1 ≤ b.count ∧ b.first + b.count ≤ 65536 ∧ b.ctx ≤ 63 ∧ b.initial ≤ 2 ^ 32 - 2)
    && isZero (sub_ e 9 3) && isZero (sub_ e 20 4)) ⟨0x1108, i, j⟩
  return b

def readBerth (env : PlanEnv) (i j : Nat) (e : List Byte) : Check BerthDef := do
  let b : BerthDef := ⟨field e 0 2, field e 2 2, field e 4 1, field e 5 1, field e 6 2⟩
  need (decide (b.berth ≤ 8191 ∧ b.ctx ≤ 63 ∧ b.prio ≤ 3 ∧ 1 ≤ b.depth ∧ b.depth ≤ 64)) ⟨0x1108, i, j⟩
  need (decide (b.tile < 2304) && !env.absentTiles.contains b.tile) ⟨0x1109, i, j⟩
  return b

def readReduction (i j : Nat) (e : List Byte) : Check ReductionDef := do
  let r : ReductionDef := ⟨field e 0 2, field e 2 1, field e 4 2, field e 6 2, field e 8 2, field e 10 2⟩
  need (decide (field e 3 1 = 0 ∧ 1 ≤ r.buckets ∧ r.buckets ≤ 4096) && isZero (sub_ e 12 4)) ⟨0x1108, i, j⟩
  need (decide (1 ≤ r.rank ∧ r.rank ≤ 64)) ⟨0x110F, i, j⟩
  return r

def readFabric (i j : Nat) (e : List Byte) : Check FabricDef := do
  let f : FabricDef := ⟨field e 0 1, field e 1 1, field e 2 1, field e 3 1, field e 4 2, field e 6 1⟩
  need (decide (f.port ≤ 31 ∧ f.mode ≤ 2 ∧ f.peerDom ≤ 1 ∧ (f.mode = 0 ∨ f.vcMask ≠ 0)) && isZero (sub_ e 7 9)
    && (f.mode != 1 || decide (f.peerPort = 0xFF ∧ f.peerPkg = 0xFFFF))
    && (f.mode != 2 || decide (f.peerPort ≤ 31 ∧ f.peerPkg ≤ 16383))) ⟨0x1108, i, j⟩
  return f

def readPartner (i j : Nat) (e : List Byte) : Check PartnerDef := do
  let p : PartnerDef := ⟨field e 0 1, field e 2 2, field e 4 4⟩
  need (decide (p.dom ≤ 1 ∧ field e 1 1 = 0 ∧ p.pkg ≤ 16383 ∧ 1 ≤ p.powerDom ∧ p.powerDom ≤ 0xFFFFFFFE)
    && isZero (sub_ e 8 8)) ⟨0x1108, i, j⟩
  return p

/-- A section of entries of one size: its length must be what its entries require. -/
def readFixed {α : Type} (img : List Byte) (ss : List Sec) (t size : Nat) (f : Nat → Nat → List Byte → Check α) :
    Check (List α) :=
  match ss.findIdx? (fun s => s.typ == t), secOf ss t with
  | some i, some s =>
    if s.len = s.count * size then readAll (f i) 0 (chunks size s.count (sub_ img s.off s.len))
    else .error ⟨0x1108, i, 0xFFFFFFFF⟩
  | _, _ => .ok []

def noDup (l : List Nat) : Bool := decide l.Nodup

/-- FERRY_CHAINS records (R95). -/
def readChains (env : PlanEnv) (i : Nat) : Nat → Nat → List Byte → Check (List ChainDef)
  | 0, _, d => if d.isEmpty then .ok [] else .error ⟨0x1108, i, 0xFFFFFFFF⟩
  | n + 1, j, d => do
    let len := field d 2 2
    let size := (8 + 2 * len + 7) / 8 * 8
    let c : ChainDef := ⟨field d 0 2, field d 4 1, field d 5 1,
      (List.range len).map (fun m => field d (8 + 2 * m) 2)⟩
    need (decide (size ≤ d.length ∧ 1 ≤ len ∧ len ≤ 144 ∧ 1 ≤ c.credits ∧ c.credits ≤ 16 ∧ c.ctx ≤ 63
      ∧ field d 6 2 = 0) && (sub_ d (8 + 2 * len) (size - (8 + 2 * len))).all (fun b => b == 0xFF)) ⟨0x1108, i, j⟩
    need (c.tiles.all (fun t => decide (t < 2304) && !env.absentTiles.contains t)) ⟨0x1109, i, j⟩
    need (noDup c.tiles && c.tiles.all (fun t => t / 144 == c.tiles.headD 0 / 144)) ⟨0x110D, i, j⟩
    let r ← readChains env i n (j + 1) (d.drop size)
    return c :: r

/-- CONVOYS records (R99). -/
def readConvoys (i : Nat) : Nat → Nat → List Byte → Check (List ConvoyDef)
  | 0, _, d => if d.isEmpty then .ok [] else .error ⟨0x1108, i, 0xFFFFFFFF⟩
  | n + 1, j, d => do
    let cnt := field d 2 2
    let size := 8 + 8 * cnt
    let nodes : List ConvoyNode := (List.range cnt).map (fun m =>
      ⟨field d (8 + 8 * m) 2, field d (10 + 8 * m) 2, field d (12 + 8 * m) 1⟩)
    need (decide (size ≤ d.length ∧ 2 ≤ cnt ∧ cnt ≤ 16384 ∧ field d 4 4 = 0)
      && (List.range cnt).all (fun m => isZero (sub_ d (13 + 8 * m) 3))
      && nodes.all (fun x => decide (x.pkg ≤ 16383 ∧ (x.portIn ≤ 31 ∨ x.portIn = 0xFF)))) ⟨0x1108, i, j⟩
    let r ← readConvoys i n (j + 1) (d.drop size)
    return ⟨field d 0 2, nodes⟩ :: r

def readVariable {α : Type} (img : List Byte) (ss : List Sec) (t : Nat)
    (f : Nat → Nat → Nat → List Byte → Check (List α)) : Check (List α) :=
  match ss.findIdx? (fun s => s.typ == t), secOf ss t with
  | some i, some s => f i s.count 0 (sub_ img s.off s.len)
  | _, _ => .ok []

/-! ### Cross checks (step 5) -/

/-- The context of a tile: that of its berths (R92). -/
def Plan.tileCtx (p : Plan) (t : Nat) : Option Nat := (p.berths.find? (fun b => b.tile == t)).map (·.ctx)

def Plan.layerById (p : Plan) (id : Nat) : Option (Nat × LayerDef) :=
  match p.layers.findIdx? (fun l => l.id == id), p.layers.find? (fun l => l.id == id) with
  | some i, some l => some (i, l)
  | _, _ => none

/-- A convoy is a tree: one root, every other node's parent before it, this package at most once (R99). -/
def ConvoyDef.isTree (c : ConvoyDef) (own : Nat) : Bool :=
  (c.nodes.zipIdx.all (fun p => if p.1.parent = 0xFFFF then p.1.portIn == 0xFF else decide (p.1.parent < p.2 ∧ p.1.portIn ≤ 31)))
  && (c.nodes.filter (fun x => x.parent == 0xFFFF)).length == 1
  && decide ((c.nodes.filter (fun x => x.pkg == own)).length ≤ 1)

/-- The position objects are set (R71). -/
def PlanEnv.placed (env : PlanEnv) : Bool := decide (env.domainId ≠ 0xFF ∧ env.packageIndex ≠ 0xFFFF ∧ env.powerDomain ≠ 0)

/-- An entry's key is one that no earlier entry of its section uses (0x110A). -/
def needNew (sec : Nat) (keys : List Nat) (j k : Nat) : Check Unit := need (!(keys.take j).contains k) ⟨0x110A, sec, j⟩

/-- Ferry slots that some chains reserve in a tile (R95). -/
def chainSlots (cs : List ChainDef) (t : Nat) : Nat := (cs.filter (fun c => c.tiles.contains t)).foldl (fun a c => a + c.credits) 0

/-- A DOCK_MAP entry lies in its layer's placement and in no other layer's, agrees with its shape, and covers a block that no
earlier entry covers; with PLACEMENT_COUNT entries that do, the coverage is complete (R94). -/
def coversNew (p : Plan) (j : Nat) (d : DockMap) (l : LayerDef) : Bool :=
  decide (l.path = 0 ∧ d.replica < l.replicas ∧ 512 * d.rowTile < l.k ∧ 512 * d.colTile < l.n
    ∧ d.rowsUsed = min 512 (l.k - 512 * d.rowTile) ∧ d.colsUsed = min 512 (l.n - 512 * d.colTile)
    ∧ l.first ≤ j ∧ j < l.first + l.count)
  && !(p.docks.take j).any (fun e => decide (e.layerIdx = d.layerIdx ∧ e.replica = d.replica ∧ e.rowTile = d.rowTile ∧ e.colTile = d.colTile))
  && p.layers.zipIdx.all (fun q => decide (q.1.path = 0 ∧ q.1.first ≤ j ∧ j < q.1.first + q.1.count → q.2 = d.layerIdx))

/-- Step 5: the sections in type order, each entry in ascending order, the checks of an entry in the order of their codes; a
check stands in the section whose rule states it (DEDUCED, log 49). DESIGN CHOICE (log 29): a second TILE_PARTITION entry of a tile and
a second HOLD entry of a context are identifiers given twice, 0x110A; its list in R103 names neither. -/
def crossCheck (p : Plan) (ss : List Sec) (env : PlanEnv) : Check Unit := do
  let si (t : Nat) : Nat := (ss.findIdx? (fun s => s.typ == t)).getD 0xFFFF
  let tileIds := p.tiles.map (·.tile)
  -- TILE_PARTITION
  checkAll (fun j (t : TilePart) => do
    needNew (si 1) tileIds j t.tile
    need (p.tileCtx t.tile).isSome ⟨0x1112, si 1, j⟩) 0 p.tiles
  -- LAYERS
  checkAll (fun j (l : LayerDef) => do
    needNew (si 2) (p.layers.map (·.id)) j l.id
    if l.path = 0 then need (decide (l.first + l.count ≤ p.docks.length)) ⟨0x110B, si 2, j⟩
    else match p.chains.find? (fun c => c.id == l.first) with
      | none => .error ⟨0x1112, si 2, j⟩
      | some c => need (c.ctx == l.ctx) ⟨0x1112, si 2, j⟩) 0 p.layers
  -- DOCK_MAP
  checkAll (fun j (d : DockMap) => do
    needNew (si 3) (p.docks.map (·.dock)) j d.dock
    match p.layers[d.layerIdx]? with
    | none => .error ⟨0x1112, si 3, j⟩
    | some l =>
      need (coversNew p j d l) ⟨0x110B, si 3, j⟩
      need (tileIds.contains (d.dock / 8) && p.tileCtx (d.dock / 8) == some l.ctx) ⟨0x1112, si 3, j⟩) 0 p.docks
  -- FERRY_CHAINS
  checkAll (fun j (c : ChainDef) => do
    let before := p.chains.take (j + 1)
    needNew (si 4) (p.chains.map (·.id)) j c.id
    need (p.tiles.all (fun t => !c.tiles.contains t.tile || decide (64 * chainSlots before t.tile ≤ t.ferryKib))) ⟨0x110C, si 4, j⟩
    need (c.tiles.all (fun t => decide ((before.filter (fun x => x.tiles.contains t)).length ≤ 8))) ⟨0x110D, si 4, j⟩
    need (c.tiles.all (fun t => tileIds.contains t && p.tileCtx t == some c.ctx)) ⟨0x1112, si 4, j⟩) 0 p.chains
  -- HOLD
  checkAll (fun j (h : HoldDef) => do
    needNew (si 5) (p.holds.map (·.ctx)) j h.ctx
    need (decide (((p.holds.take (j + 1)).foldl (fun a x => a + x.t2Size) 0) ≤ 768 * 2 ^ 30)) ⟨0x110E, si 5, j⟩) 0 p.holds
  -- BOLLARDS
  checkAll (fun j (b : BolRange) =>
    need ((p.bollards.take j).all (fun o => decide (o.first + o.count ≤ b.first ∨ b.first + b.count ≤ o.first)))
      ⟨0x110A, si 6, j⟩) 0 p.bollards
  -- BERTHS
  checkAll (fun j (b : BerthDef) => do
    needNew (si 7) (p.berths.map (·.berth)) j b.berth
    need (tileIds.contains b.tile && p.tileCtx b.tile == some b.ctx) ⟨0x1112, si 7, j⟩) 0 p.berths
  -- CONVOYS
  checkAll (fun j (c : ConvoyDef) => do
    needNew (si 8) (p.convoys.map (·.id)) j c.id
    need (env.placed && c.isTree env.packageIndex) ⟨0x1110, si 8, j⟩) 0 p.convoys
  -- REDUCTION
  checkAll (fun j (r : ReductionDef) => do
    needNew (si 9) (p.reductions.map (·.layerIdx)) j r.layerIdx
    match p.layers[r.layerIdx]?, p.convoys.find? (fun c => c.id == r.projConvoy),
        p.convoys.find? (fun c => c.id == r.paramConvoy) with
    | some l, some pc, some qc =>
      let root (c : ConvoyDef) : Option Nat := (c.nodes.find? (fun x => x.parent == 0xFFFF)).map (·.pkg)
      need (root pc == some r.owner && root qc == some r.owner
        && pc.nodes.all (fun x => qc.nodes.any (fun y => y.pkg == x.pkg))
        && qc.nodes.all (fun x => pc.nodes.any (fun y => y.pkg == x.pkg))
        && decide (r.buckets ≤ l.k)) ⟨0x110F, si 9, j⟩
    | _, _, _ => .error ⟨0x1112, si 9, j⟩) 0 p.reductions
  -- FABRIC
  checkAll (fun j (f : FabricDef) => do
    needNew (si 10) (p.fabric.map (·.port)) j f.port
    need (f.mode == 0 || (env.placed && !env.failedPorts.contains f.port)) ⟨0x1110, si 10, j⟩
    need (f.mode != 1 || f.peerDom == env.domainId) ⟨0x1110, si 10, j⟩) 0 p.fabric
  -- PARTNER
  match p.partner with
  | none => .ok ()
  | some q => do
    need env.placed ⟨0x1110, si 11, 0⟩
    need (decide (q.dom ≠ env.domainId)
      && (decide (q.powerDom ≠ env.powerDomain) || env.override)) ⟨0x1111, si 11, 0⟩

/-! ### The whole validation (R103), steps 2 to 5 -/

/-- Read one section into the plan. DESIGN CHOICE (log 29): a PARTNER section of more than one entry is a field out of range, 0x1108;
R91 bounds it and names no code. -/
def readSection (img : List Byte) (ss : List Sec) (env : PlanEnv) (i : Nat) (s : Sec) (p : Plan) : Check Plan :=
  match s.typ with
  | 1 => (readFixed img ss 1 16 (readTile env)).map (fun x => { p with tiles := x })
  | 2 => (readFixed img ss 2 32 readLayer).map (fun x => { p with layers := x })
  | 3 => (readFixed img ss 3 16 (readDock env)).map (fun x => { p with docks := x })
  | 4 => (readVariable img ss 4 (fun i n j d => readChains env i n j d)).map (fun x => { p with chains := x })
  | 5 => (readFixed img ss 5 40 readHold).map (fun x => { p with holds := x })
  | 6 => (readFixed img ss 6 24 readBolRange).map (fun x => { p with bollards := x })
  | 7 => (readFixed img ss 7 8 (readBerth env)).map (fun x => { p with berths := x })
  | 8 => (readVariable img ss 8 (fun i n j d => readConvoys i n j d)).map (fun x => { p with convoys := x })
  | 9 => (readFixed img ss 9 16 readReduction).map (fun x => { p with reductions := x })
  | 10 => (readFixed img ss 10 16 readFabric).map (fun x => { p with fabric := x })
  | _ =>
    if s.count ≤ 1 then (readFixed img ss 11 16 readPartner).map (fun x => { p with partner := x.head? })
    else .error ⟨0x1108, i, 0xFFFFFFFF⟩

def readSections (img : List Byte) (ss : List Sec) (env : PlanEnv) : Nat → List Sec → Plan → Check Plan
  | _, [], p => .ok p
  | i, s :: r, p =>
    match readSection img ss env i s p with
    | .ok q => readSections img ss env (i + 1) r q
    | .error e => .error e

def validatePlan (img : List Byte) (env : PlanEnv) : Check Plan := do
  checkHeader img env
  let ss := readSecs img
  checkSecs env.length (128 + 16 * ss.length) [] ss
  checkRequired img ss
  let p0 : Plan :=
    { planId := field img 24 8, jobSeed := field img 32 8, zd1 := bit (field img 40 4) 0, pkgCount := field img 44 4,
      digest := sub_ img 48 48, tiles := [], layers := [], docks := [], chains := [], holds := [], bollards := [],
      berths := [], convoys := [], reductions := [], fabric := [], partner := none }
  let p ← readSections img ss env 0 ss p0
  crossCheck p ss env
  return p

/-! ### What the loaded plan says -/

def Plan.tilePart (p : Plan) (t : Nat) : Option TilePart := p.tiles.find? (fun x => x.tile == t)
def Plan.berthDef (p : Plan) (b : Nat) : Option BerthDef := p.berths.find? (fun x => x.berth == b)
def Plan.bolRange (p : Plan) (b : Nat) : Option BolRange :=
  p.bollards.find? (fun r => decide (r.first ≤ b ∧ b < r.first + r.count))
def Plan.dockMap (p : Plan) (d : Nat) : Option DockMap := p.docks.find? (fun x => x.dock == d)
def Plan.convoy (p : Plan) (c : Nat) : Option ConvoyDef := p.convoys.find? (fun x => x.id == c)

/-- Every context that a section of the plan names (R43, R333). -/
def Plan.contexts (p : Plan) : List Nat :=
  ((p.berths.map (·.ctx)) ++ (p.layers.map (·.ctx)) ++ (p.chains.map (·.ctx)) ++ (p.holds.map (·.ctx))
    ++ (p.bollards.map (·.ctx))).eraseDups

/-- Berths of a context in priorities 0 to 2: the participants of its barriers (R312). -/
def Plan.participants (p : Plan) (c : Nat) : List BerthDef := p.berths.filter (fun b => b.ctx == c && decide (b.prio ≤ 2))

/-- Start of the working space of a tile, and of its tier-1 hold (R81). -/
def TilePart.ferryBase (t : TilePart) : Nat := 0x80000 + t.mbufs * 4096
def TilePart.workBase (t : TilePart) : Nat := t.ferryBase + t.ferryKib * 1024
def TilePart.holdBase (t : TilePart) : Nat := 0x1000000 - t.holdT1 * 1024

end Sys2Proof.Machine
end

