-- ==== Sys2Proof/Machine/Operands.lean ====
section
/-! DEFINITION. Operand forms: the fields of a task descriptor (R104), translation of virtual addresses (R334 to R341), and reads and writes through it. -/

namespace Sys2Proof.Machine

/-! ## Descriptor fields (R104) -/

def Task.w (t : Task) (n : Nat) : Nat := t.words.getD n 0
def Task.opcode (t : Task) : Nat := bits (t.w 0) 7 0
def Task.overlap (t : Task) : Bool := bit (t.w 0) 16
def Task.notify (t : Task) : Bool := bit (t.w 0) 17
def Task.noSample (t : Task) : Bool := bit (t.w 0) 18
def Task.prio (t : Task) : Nat := bits (t.w 0) 25 24
def Task.ctx (t : Task) : Nat := bits (t.w 0) 31 26
def Task.waitBol (t : Task) : Nat := bits (t.w 0) 47 32
def Task.sigBol (t : Task) : Nat := bits (t.w 0) 63 48
def Task.waitThr (t : Task) : Nat := bits (t.w 1) 31 0
def Task.sigInc (t : Task) : Nat := bits (t.w 1) 63 32
def Task.fmtA (t : Task) : Nat := bits (t.w 2) 63 56
def Task.fmtB (t : Task) : Nat := bits (t.w 2) 55 48
def Task.addrA (t : Task) : Nat := bits (t.w 2) 47 0
def Task.layerId (t : Task) : Nat := bits (t.w 3) 63 48
def Task.addrB (t : Task) : Nat := bits (t.w 3) 47 0
def Task.fmtD (t : Task) : Nat := bits (t.w 4) 63 56
def Task.addrD (t : Task) : Nat := bits (t.w 4) 47 0
def Task.len0 (t : Task) : Nat := bits (t.w 5) 31 0
def Task.len1 (t : Task) : Nat := bits (t.w 5) 63 32
/-- Body fields: bits hi:lo of word 6 or 7. -/
def Task.b6 (t : Task) (hi lo : Nat) : Nat := bits (t.w 6) hi lo
def Task.b7 (t : Task) (hi lo : Nat) : Nat := bits (t.w 7) hi lo
/-- WAIT's second bollard (R311). -/
def Task.wait2 (t : Task) : Nat × Nat := if t.opcode = 0x51 then (t.b6 47 32, t.b6 31 0) else (0, 0)

/-! ## The walk (R334 to R336) -/

inductive Walk where
  | leaf (e : TlbEntry)
  | fault (code level : Nat)
  /-- An entry that it read is poisoned (R350): its address and the code of what poisoned it. -/
  | poisoned (pa code : Nat)
  deriving DecidableEq, Repr

/-- The first virtual address bit a level resolves (R334). -/
def levelShift (level : Nat) : Nat := if level = 3 then 39 else if level = 2 then 30 else if level = 1 then 21 else 16
def tableSize (level : Nat) : Nat := if level = 0 then 256 else 4096
def levelIndex (level va : Nat) : Nat := (va >>> levelShift level) % (if level = 0 then 32 else 512)

/-- Whether every byte of a page lies in context DRAM, a tile SRAM window or a host window (R336, R326). -/
def mappable (pa size : Nat) : Bool :=
  decide (pa + size ≤ reservedBase) ||
  decide (sramBase ≤ pa ∧ pa + size ≤ sramBase + sramBytes) ||
  decide (hostWindowBase 0 ≤ pa ∧ pa + size ≤ hostWindowBase 1 + hostWindowBytes)

/-- One level of the walk, from the level-`n` table at `tbl`. -/
def walkFrom (s : State) (va : Nat) : Nat → Nat → Walk
  | n, tbl =>
    if tbl + tableSize n ≤ reservedBase then
      let e := ofLe (s.bytesAt (tbl + 8 * levelIndex n va) 8)
      let next := bits e 51 8 * 256
      let page := 2 ^ levelShift n
      match s.firstPoison (tbl + 8 * levelIndex n va) 8 with
      | some (pa, code) => .poisoned pa code
      | none =>
      if !bit e 0 then .fault 0x2001 n
      else if bits e 63 52 ≠ 0 ∨ bits e 7 4 ≠ 0 then .fault 0x2003 n
      else if bit e 1 then
        if n = 3 ∨ next % page ≠ 0 then .fault 0x2003 n
        else if mappable next page then
          .leaf ⟨va / page * page, levelShift n, next, bit e 2, bit e 3⟩
        else .fault 0x2005 n
      else if bit e 2 || bit e 3 then .fault 0x2003 n
      else match n with
        | 0 => .fault 0x2003 0
        | m + 1 => if next % tableSize m ≠ 0 then .fault 0x2003 n else walkFrom s va m next
    else .fault 0x2004 n

def walk (s : State) (c va : Nat) : Walk := walkFrom s va 3 (s.get (ctxIdx c) 1)

/-! ## The TLB (R338) -/

def TlbEntry.covers (e : TlbEntry) (va : Nat) : Bool := decide (e.va ≤ va ∧ va < e.va + 2 ^ e.sizeBits)
/-- The walk level of a leaf (R334). -/
def TlbEntry.level (e : TlbEntry) : Nat := if e.sizeBits = 30 then 2 else if e.sizeBits = 21 then 1 else 0
def TlbEntry.overlaps (e : TlbEntry) (va n : Nat) : Bool := decide (e.va < va + n ∧ va < e.va + 2 ^ e.sizeBits)

/-- Use or add an entry: it becomes the most recently used, and at most 256 are kept. -/
def tlbTouch (l : List TlbEntry) (e : TlbEntry) : List TlbEntry := (e :: l.filter (fun x => x != e)).take 256

def State.tlb (s : State) (t : Nat) : List TlbEntry := mgetD s.tlbs t []

/-- The entry of a tile's TLB that covers an address: a changed page table does not alter it (R339). -/
def State.cached (s : State) (tile : Option Nat) (va : Nat) : Option TlbEntry := match tile with
  | some t => (s.tlb t).find? (fun e => e.covers va)
  | none => none

/-- The leaf that an access from a tile goes through: the cached one where there is one, else the one that a walk finds. -/
def State.leafOf (s : State) (tile : Option Nat) (c va : Nat) : Option TlbEntry := match s.cached tile va with
  | some e => some e
  | none => match walk s c va with
    | .leaf e => some e
    | _ => none

/-! ## Accesses -/

/-- Why an access does not complete. -/
inductive AccFault where
  /-- A translation fault (R341): code, virtual address, walk level, and whether the access was a write. -/
  | trans (code va level : Nat) (write : Bool)
  /-- A byte read is poisoned (R350): its address and the code of what poisoned it. -/
  | data (pa code : Nat)
  /-- A host holds lines the access needs (R511): the access waits for the snoops. -/
  | stall (lines : List (Nat × Nat))
  /-- The task is refused at run time with a code (STATE 4). -/
  | refuse (code : Nat)
  /-- A detected data error at a place: code, kind of source, identifiers. -/
  | dataErr (code kind : Nat) (ids : List Nat)
  /-- A job fault that aborts the task: code, kind of source, identifier, DETAIL. -/
  | job (code kind id : Nat) (detail : List Byte)
  /-- A translation fault of an access that no task made (R340): a read through WIDE_BINDING, or a hold move. -/
  | noTask (code va level : Nat) (write : Bool)
  /-- What the task needs is not there yet; nothing changes. -/
  | wait
  deriving DecidableEq, Repr

/-- What an access needs of the page (R336). -/
inductive Need where
  | read | write | both
  deriving DecidableEq, Repr

def Need.writes : Need → Bool
  | .read => false
  | _ => true

def Need.ok (n : Need) (e : TlbEntry) : Bool :=
  match n with
  | .read => e.rd
  | .write => e.wr
  | .both => e.rd && e.wr

/-- TILE_STATE of a tile (R68). -/
def State.tileState (s : State) (t : Nat) : Nat := bits (s.get (0x2100 + t / 144) (t % 144 + 1)) 23 20

/-- Whether an offset of a tile's SRAM lies in its reserved region or its tier-1 hold (R81). -/
def State.sramForbidden (s : State) (t off : Nat) : Bool :=
  decide (off < 0x80000) ||
  match s.plan with
  | none => false
  | some p => match p.tilePart t with
    | none => false
    | some tp => decide (tp.holdBase ≤ off)

/-- The access rules of the place an address maps to (R328, R329): 0, or the fault's code. -/
def State.placeFault (s : State) (pa : Nat) : Nat :=
  if sramBase ≤ pa ∧ pa < sramBase + sramBytes then
    let t := (pa - sramBase) / 16777216
    if s.tileState t = 2 then 0x2005
    else if s.sramForbidden t ((pa - sramBase) % 16777216) then 0x2006
    else 0
  else if hostWindowBase 0 ≤ pa then
    (if s.linkUp (if hostWindowBase 1 ≤ pa then 1 else 0) then 0 else 0x2007)
  else 0

/-- The cached or walked entry for an address; the TLB of the tile (if a tile made the access) is updated, also by an
access that then lacks the permission it needs (R338). -/
def State.lookup (s : State) (tile : Option Nat) (c va : Nat) (write : Bool) : Except AccFault (TlbEntry × State) :=
  match s.cached tile va with
  | some e => .ok (e, match tile with
      | some t => { s with tlbs := mset s.tlbs t (tlbTouch (s.tlb t) e) }
      | none => s)
  | none =>
    let s := if tile.isSome then s.count 0x3020 1 64 1 else s
    match walk s c va with
    | .fault code level => .error (.trans code va level write)
    | .poisoned pa code => .error (.data pa code)
    | .leaf e => .ok (e, match tile with
      | some t => { s with tlbs := mset s.tlbs t (tlbTouch (s.tlb t) e) }
      | none => s)

/-- Translate one address for an access, with the permission and place checks. -/
def State.translate (s : State) (tile : Option Nat) (c va : Nat) (n : Need) : Except AccFault (Nat × State) :=
  match s.lookup tile c va n.writes with
  | .error f => .error f
  | .ok (e, s) =>
    if n.ok e then
      let pa := e.pa + (va - e.va)
      let code := s.placeFault pa
      if code = 0 then .ok (pa, s) else .error (.trans code va 0 n.writes)
    else .error (.trans 0x2002 va e.level n.writes)

/-- Lines of a physical range that a host holds and an engine access must wait for (R511): a read waits for lines that may
be modified, a write for every line held. -/
def heldLines (s : State) (pa n : Nat) (write : Bool) : List (Nat × Nat) :=
  if reservedBase ≤ pa then [] else
  let hit (p : Nat) : List (Nat × Nat) :=
    ((s.hl p).filter.filter (fun e => decide (e.1 < pa + n ∧ pa < e.1 + 64) && (write || decide (2 ≤ e.2)))).map (fun e => (p, e.1))
  hit 0 ++ hit 1

/-! ## The halves of the secured regions (R431, R432) -/

/-- The entries of SECURE_REGIONS (R451). -/
def State.regions (s : State) : List Region :=
  let bs := mgetD s.blobs (key 0x8210 0) []
  (chunks 32 64 bs).map (fun e => ⟨field e 0 6, field e 6 1, field e 7 1, field e 8 6, field e 16 8, field e 24 2, field e 26 1⟩)

def Region.half (r : Region) (h : Nat) : Nat := if h = 0 then r.a else r.b

/-- The region, by position, whose canonical range holds an address of the secure context. -/
def State.regionAt (s : State) (c va : Nat) : Option (Nat × Region) :=
  if c ≠ s.get 0x8200 1 then none
  else (s.regions.zipIdx.find? (fun p => decide (p.1.a ≤ va ∧ va < p.1.a + p.1.length))).map (fun p => (p.2, p.1))

def granuleKey (i off : Nat) : Nat := i * 2 ^ 24 + off / 4096

/-- The address of the half that an engine's access reaches. -/
def State.redirect (s : State) (c va : Nat) (write : Bool) : Nat :=
  match s.regionAt c va with
  | none => va
  | some (i, r) =>
    let o := va - r.a
    match s.secure.copy with
    | none => r.half r.live + o
    | some cp =>
      if write || (mget? cp.marks (granuleKey i o)).isSome then r.half (1 - r.live) + o else r.half r.live + o

/-- How many bytes an access takes in one piece: granules in the secure context, pages elsewhere. -/
def State.pieceLen (s : State) (c va n : Nat) : Nat :=
  let p := if c = s.get 0x8200 1 then 4096 else 65536
  min n (p - va % p)

def State.mark (s : State) (k : Nat) : State :=
  { s with secure := { s.secure with copy := s.secure.copy.map (fun cp => { cp with marks := mset cp.marks k 1 }) } }

/-- The first write to an unmarked granule while a copy is open copies the granule to the other half and marks it. -/
def State.openGranule (s : State) (tile : Option Nat) (c va : Nat) : Except AccFault State :=
  match s.secure.copy, s.regionAt c va with
  | some cp, some (i, r) =>
    let g := (va - r.a) / 4096 * 4096
    if (mget? cp.marks (granuleKey i g)).isSome then .ok s
    else
      match s.translate tile c (r.half r.live + g) .read with
      | .error f => .error f
      | .ok (src, s) =>
        match s.translate tile c (r.half (1 - r.live) + g) .write with
        | .error f => .error f
        | .ok (dst, s) =>
          match s.firstPoison src 4096 with
          | some (a, code) => .error (.data a code)
          | none => .ok ((s.writeAt dst (s.bytesAt src 4096)).mark (granuleKey i g))
  | _, _ => .ok s

/-- Read n bytes at a virtual address, piece by piece. -/
def State.readGo (s : State) (tile : Option Nat) (c : Nat) : Nat → Nat → Nat → Except AccFault (List Byte × State)
  | 0, _, _ => .ok ([], s)
  | fuel + 1, va, n =>
    if n = 0 then .ok ([], s) else
    let k := s.pieceLen c va n
    match s.translate tile c (s.redirect c va false) .read with
    | .error f => .error f
    | .ok (pa, s) =>
      let held := heldLines s pa k false
      if held ≠ [] then .error (.stall held)
      else match s.firstPoison pa k with
        | some (a, code) => .error (.data a code)
        | none => match s.readGo tile c fuel (va + k) (n - k) with
          | .error f => .error f
          | .ok (r, s') => .ok (s.bytesAt pa k ++ r, s')

def State.readVa (s : State) (tile : Option Nat) (c va n : Nat) : Except AccFault (List Byte × State) :=
  s.readGo tile c (n / 4096 + 2) va n

/-- Physical ranges of n bytes at a virtual address, checked for an access, without touching the bytes. -/
def State.rangesGo (s : State) (tile : Option Nat) (c : Nat) (need : Need) : Nat → Nat → Nat →
    Except AccFault (List (Nat × Nat) × State)
  | 0, _, _ => .ok ([], s)
  | fuel + 1, va, n =>
    if n = 0 then .ok ([], s) else
    let k := s.pieceLen c va n
    match (if need.writes then s.openGranule tile c va else .ok s) with
    | .error f => .error f
    | .ok s =>
      match s.translate tile c (s.redirect c va need.writes) need with
      | .error f => .error f
      | .ok (pa, s) =>
        let held := heldLines s pa k need.writes
        if held ≠ [] then .error (.stall held)
        else match s.rangesGo tile c need fuel (va + k) (n - k) with
          | .error f => .error f
          | .ok (r, s') => .ok ((pa, k) :: r, s')

def State.ranges (s : State) (tile : Option Nat) (c va n : Nat) (need : Need) : Except AccFault (List (Nat × Nat) × State) :=
  s.rangesGo tile c need (n / 4096 + 2) va n

/-- Store a byte string over physical ranges, in order. -/
def State.storeRanges (s : State) : List (Nat × Nat) → List Byte → State
  | [], _ => s
  | (pa, k) :: r, bs => (s.writeAt pa (bs.take k)).storeRanges r (bs.drop k)

/-- Write bytes at a virtual address: every page is checked before any byte is written. -/
def State.writeVa (s : State) (tile : Option Nat) (c va : Nat) (bs : List Byte) :
    Except AccFault (List (Nat × Nat) × State) :=
  match s.ranges tile c va bs.length .write with
  | .error f => .error f
  | .ok (rs, s) => .ok (rs, s.storeRanges rs bs)

end Sys2Proof.Machine
end

