-- ==== Sys2Proof/Machine/Access.lean ====
section
/-! DEFINITION. Access to dictionary objects: reach by power state, existence, access class, write condition, length and range, and how a refusal is reported (R40 to R52, R60). -/

namespace Sys2Proof.Machine

/-! ## Reach (R48, R51, R500) -/

/-- The ranges the lighthouse serves before the harbourmaster runs. -/
def lighthouseRange (idx : Nat) : Bool := [1, 9, 10, 11, 12].contains (idx / 4096)

def restoreObject (idx : Nat) : Bool := decide (idx = 0x6100 ∨ (0x6800 ≤ idx ∧ idx ≤ 0x680F))

/-- Objects held in tile logic, out of reach in NAP (R48, R145, R173, R178, R211, R286, R287, R322, R355). -/
def tileLogic (idx : Nat) : Bool :=
  [0x2601, 0x2602, 0x2610, 0x3020, 0x4020, 0x5001, 0x6001, 0x6202, 0x6203, 0x6204].contains idx || decide (0x6800 ≤ idx ∧ idx ≤ 0x680F)

/-- Whether an access by a path reaches an index in the present power state. -/
def State.reach (s : State) (src : Src) (idx : Nat) (write : Bool) : Bool :=
  let p := s.power
  if s.operating then true
  else if p.pst = .nap then !tileLogic idx
  else match src with
    | .win _ =>
      if p.restoreOpen then decide (idx / 4096 = 1) || restoreObject idx else decide (idx / 4096 = 1)
    | .odp =>
      if s.fw.bothFailed then decide (idx = 0xC020 ∨ idx = 0xC022)
      else if p.pst = .off then false
      else (lighthouseRange idx && !(write && decide (idx / 4096 = 10)))
        || (p.hmRunning && !write && decide (idx / 4096 = 2)
            && decide (s.get 0x2500 2 = 2 ∨ s.get 0x2500 2 = 3))
        || (p.restoreOpen && restoreObject idx)

/-- 0xC020 FW_IMAGE is reachable in READY, RUN and IDLE, and when both slots have failed (R524). -/
def State.reachFw (s : State) : Bool := s.operating || s.fw.bothFailed

/-- WINDOW_READY of a port (R51). -/
def State.windowReady (s : State) (p : Nat) : Bool := s.get (0x1200 + p) 1 == 1

/-! ## Write conditions (R43) -/

/-- CTX_STATE (R330). -/
def State.ctxState (s : State) (c : Nat) : Nat := s.get (ctxIdx c) 2

/-- A halted context: CLOSED, HALTED or FAULTED (R330). -/
def State.standsStill (s : State) (c : Nat) : Bool := s.ctxState c == 0 || s.ctxState c == 1 || s.ctxState c == 3

/-- The write condition halted, which debug access relaxes (R43, R529). -/
def State.halted (s : State) (c : Nat) : Bool := s.dbg.on || s.standsStill c

/-- A plan counts as loaded from an accepted LOAD until PLAN_STATE is NONE (R83). -/
def State.planLoaded (s : State) : Bool := s.get 0x2400 4 != 0

def State.planContexts (s : State) : List Nat := match s.plan with
  | none => []
  | some p => p.contexts

/-- The owner of a bollard under the plan. -/
def State.bollardOwner (s : State) (b : Nat) : Option Nat := match s.plan with
  | none => none
  | some p => (p.bolRange b).map (·.ctx)

/-- The context an object with condition halted belongs to. -/
def State.ownerCtx (s : State) (idx sub : Nat) : Option Nat :=
  if 0x3100 ≤ idx ∧ idx ≤ 0x313F then some (idx - 0x3100)
  else if idx = 0x4010 then s.bollardOwner (s.get 0x4010 1)
  else some (sub - 1)

def State.condMet (s : State) (o : ObjDef) (idx sub : Nat) : Bool :=
  match o.cond with
  | .any => true
  | .idle => !s.planLoaded
  | .halted => match s.ownerCtx idx sub with
      | some c => s.halted c
      | none => true
  | .haltedAll => s.planContexts.all (fun c => s.halted c)
  | .secure => if s.get 0x8200 1 = 0xFF then true else s.halted (s.get 0x8200 1)
  | .trim => !s.planLoaded || s.power.restoreOpen

/-! ## Ranges (R40) -/

/-- A decision rule word (R464): refused values, a reversed range, an ARG out of range for its ACTION. -/
def ruleOk (v : Nat) : Bool :=
  let arg := bits v 15 0
  let action := bits v 31 29
  decide (bits v 63 58 ≤ bits v 57 52 ∧ bits v 51 48 ≤ 5 ∧ action ≤ 4)
  && (if action = 2 then decide (900 ≤ arg ∧ arg ≤ 1600) else if action = 3 then decide (1 ≤ arg) else arg == 0)

def rangeOk (r : Range) (v : Nat) : Bool :=
  match r with
  | .any => true
  | .between lo hi => decide (lo ≤ v ∧ v ≤ hi)
  | .oneOf vs => vs.contains v
  | .orElse hi other => decide (v ≤ hi ∨ v = other)
  | .multiple lo hi k => decide (lo ≤ v ∧ v ≤ hi ∧ v % k = 0)
  | .aligned k => decide (v % k = 0)
  | .pow2 lo hi => decide (lo ≤ v ∧ v ≤ hi ∧ 2 ^ Nat.log2 v = v)
  | .forbid mask => v &&& mask == 0
  | .f32 lo hi => decide (lo ≤ v ∧ v ≤ hi)
  | .root => decide (v % 4096 = 0 ∧ v + 4096 ≤ reservedBase)
  | .rule => ruleOk v

/-- The encoding checks of a type (R39). -/
def typeOk (t : OType) (v : Nat) : Bool :=
  match t with
  | .bool => decide (v ≤ 1)
  | .f32 => bits v 30 23 != 255
  | _ => decide (v < 2 ^ (8 * t.size))

/-! ## Transfers in the way (R47) -/

/-- DAC states in which a transfer is open: OPEN, BUSY, SEGMENT_DONE. -/
def Dac.isOpen (d : Dac) : Bool := d.state == 1 || d.state == 2 || d.state == 3

/-- An open segmented transfer of an index, on any path. -/
def State.transferOpen (s : State) (idx : Nat) : Bool :=
  s.hl0.dacs.any (fun d => d.isOpen && d.index == idx) || s.hl1.dacs.any (fun d => d.isOpen && d.index == idx)
  || s.odp.xfers.any (fun x => x.index == idx)

/-! ## The checks of a write, in the order of R44 -/

/-- Existence (R65). -/
def existence (idx sub : Nat) : Except Nat (Option ObjDef) :=
  match objDef idx sub with
  | some o => .ok (some o)
  | none =>
    if idxDefined idx then (if sub = 0 ∧ (highestSub idx).isSome then .ok none else .error 0xA002)
    else .error 0xA001

/-- Reach, existence and access class (R41, R42) of a write. -/
def State.writeAccess (s : State) (src : Src) (idx sub : Nat) : Except Nat ObjDef :=
  if (if idx = 0xC020 then !s.reachFw else !s.reach src idx true) then .error 0xA010
  else match existence idx sub with
    | .error c => .error c
    | .ok none => if idxHostOnly idx && src = .odp then .error 0xA006 else .error 0xA003
    | .ok (some o) =>
      if idxHostOnly idx && src = .odp then .error 0xA006
      else if o.nap && s.power.pst = .nap then .error 0xA010
      else match o.access with
        | .const => .error 0xA003
        | .ro => if o.persist = .fused then .error 0xA012 else .error 0xA003
        | .rwMgmt => if src = .odp then .ok o else .error 0xA005
        | _ => .ok o

/-- The staged members of POSITION, whose ranges the apply write checks (R69). -/
def positionMember (idx sub : Nat) : Bool := decide (idx = 0x2200 ∧ 1 ≤ sub ∧ sub ≤ 3)

/-- Every check of a scalar write: access, write condition, open transfers, length, range (R44, R47). -/
def State.checkWrite (s : State) (src : Src) (idx sub : Nat) (bs : List Byte) : Except Nat Nat :=
  match s.writeAccess src idx sub with
  | .error c => .error c
  | .ok o =>
    if !s.condMet o idx sub then .error 0xA009
    else if s.transferOpen idx then .error 0xA00A
    else if o.type.isDomain || bs.length != o.type.size then .error 0xA008
    else if typeOk o.type (ofLe bs) && (rangeOk o.range (ofLe bs) || positionMember idx sub) then .ok (ofLe bs)
    else .error 0xA007

/-- Reach, existence and access class of a read. -/
def State.readAccess (s : State) (src : Src) (idx sub : Nat) : Except Nat (Option ObjDef) :=
  if (if idx = 0xC020 then !s.reachFw else !s.reach src idx false) then .error 0xA010
  else match existence idx sub with
    | .error c => .error c
    | .ok none => if idxHostOnly idx && src = .odp then .error 0xA006 else .ok none
    | .ok (some o) =>
      if idxHostOnly idx && src = .odp then .error 0xA006
      else if o.nap && s.power.pst = .nap then .error 0xA010
      else if o.access = .wo then .error 0xA004
      else .ok (some o)

/-! ## Reporting (R51, R52, R60) -/

/-- A refused access: recorded in the window's status object, or answered with ABORT. -/
def State.refuse (s : State) (src : Src) (idx sub code : Nat) : State :=
  match src with
  | .win p =>
    if s.windowReady p.val then
      ((s.put (0x1200 + p.val) 2 code).put (0x1200 + p.val) 3 (key idx sub)).count (0x1200 + p.val) 4 32 1
    else s
  | .odp => s.emit (.odpStatus idx sub code)

/-- An accepted scalar write: nothing to report on a window, a response over ODP. -/
def State.accept (s : State) (src : Src) (idx sub : Nat) : State :=
  match src with
  | .win _ => s
  | .odp => s.emit (.odpStatus idx sub 0)

/-- A command that is a write of one object: its checks, then its effect, which may refuse with a code; a window that is
not ready drops the write without a record (R51). -/
def State.guarded (s : State) (src : Src) (idx sub : Nat) (bs : List Byte) (eff : Nat → State → Except Nat State) : State :=
  match src with
  | .win p =>
    if s.windowReady p.val then
      match s.checkWrite src idx sub bs with
      | .error c => s.refuse src idx sub c
      | .ok v => match eff v s with
        | .error c => s.refuse src idx sub c
        | .ok s' => s'
    else s
  | .odp =>
    if s.power.pst = .off then s else
    match s.checkWrite src idx sub bs with
    | .error c => s.refuse src idx sub c
    | .ok v => match eff v s with
      | .error c => s.refuse src idx sub c
      | .ok s' => s'.accept src idx sub

end Sys2Proof.Machine
end

