-- ==== Sys2Proof/Machine/Reset.lean ====
section
/-! DEFINITION. What a loss of power, of the harbourmaster or a reset takes away: volatile objects, contexts, tiles, transfers (R42, R46, R489, R491). -/

namespace Sys2Proof.Machine

/-- The keys of every saved object in the given pages of the dictionary. -/
def savedKeys (keep : Nat → Bool) : List Nat :=
  [1, 2, 4, 5, 6, 7, 8, 9, 10, 11].flatMap (fun pg => (objRows (pg * 4096)).flatMap (fun o =>
    if o.persist = .saved ∧ o.dev = false ∧ o.type.scalar then
      (List.range (o.idxHi + 1 - o.idxLo)).flatMap (fun i =>
        if keep (o.idxLo + i) then (List.range (o.subHi + 1 - o.subLo)).map (fun j => key (o.idxLo + i) (o.subLo + j)) else [])
    else []))

/-- Whether a key belongs to a fused object, which no reset reaches (R42). -/
def keyFused (k : Nat) : Bool := match objDef (k / 256) (k % 256) with
  | some o => o.persist = .fused
  | none => false

/-- Device-maintained records (R64). -/
def keyDev (k : Nat) : Bool := match objDef (k / 256) (k % 256) with
  | some o => o.dev
  | none => false

/-- Volatile objects take their defaults, and saved objects too until their point of start-up is reached (R42, R63). -/
def State.volatileDefaults (s : State) : State :=
  { s with dict := s.dict.filter (fun e => keyFused e.1), staged := [], blobs := s.blobs.filter (fun e => keyFused e.1) }

/-- Transfers open on objects that can no longer be reached are aborted with 0xA010 (R48). -/
def sweepDac (s : State) (p : HostPort) (d : Dac) : Dac :=
  if d.isOpen ∧ !(if d.index = 0xC020 then s.reachFw else s.reach (.win p) d.index d.download)
  then { d with state := 4, abort := 0xA010, data := [], busy := none } else d

def State.sweepTransfers (s : State) : State :=
  let gone (x : OdpXfer) : Bool := !(if x.index = 0xC020 then s.reachFw else s.reach .odp x.index x.download)
  -- A firmware image that is still being written is part of such a transfer: its writing ends with it (R46, R524).
  let cut := !s.reachFw
  let late := match s.fw.writer with
    | some (.odp a _ t _ _ _) => if cut then [(a, t, 0xA010)] else []
    | _ => []
  { s with
    hl0 := { s.hl0 with dacs := s.hl0.dacs.map (sweepDac s 0) },
    hl1 := { s.hl1 with dacs := s.hl1.dacs.map (sweepDac s 1) },
    odp := { s.odp with xfers := s.odp.xfers.filter (fun x => !gone x),
                        dead := s.odp.dead ++ (s.odp.xfers.filter gone).map (fun x => (x.addr, x.tid, 0xA010)) ++ late },
    fw := if cut then { s.fw with writing := none, writer := none } else s.fw }

/-- A port's link goes down: its snoop filter is dropped, so that no access of the other port waits for it (R511), and the down is
counted (R531). -/
def State.linkDown (s : State) (p : Nat) : State :=
  let s := if s.linkUp p then s.count (0x1300 + p) 4 64 1 else s
  let s := (s.put (0x1300 + p) 1 0).setHl p { s.hl p with filter := [], waiting := [] }
  s.setHl (1 - p) { s.hl (1 - p) with
    waiting := (s.hl (1 - p)).waiting.map (fun w => { w with lines := w.lines.filter (fun e => e.1 != p) }) }

/-- The dictionary window closes on both ports. -/
def State.windowsDown (s : State) : State := (s.put 0x1200 1 0).put 0x1201 1 0

/-- A dock whose periphery loses power keeps its cells, its metadata and its column map (R162, R165, R489). -/
def Dock.unpowered (x : Dock) : Dock :=
  { x with scale := [], bias := [], gains := [], cold := 0, trims := .none, calTemp := 0xFF, peak := [], saturated := [], ran := false, clips := 0,
           last := [], version := 0, suspect := [], pass := none, job := none }

/-- Counts of writes per group are lost with the power; what stands in the metadata is kept (R161). -/
def State.dropGroups (s : State) : State := { s with docks := s.docks.map (fun e => (e.1, { e.2 with groups := [], upUnits := e.2.units })) }

/-- Tile logic and the harbourmaster lose power: SRAM, contexts, the plan and every object they hold (R489). -/
def State.dropHarbourmaster (s : State) : State :=
  let s := s.forget sramBase (sramBase + sramBytes)
  { s with
    dict := s.dict.filter (fun e => lighthouseRange (e.1 / 256) || keyFused e.1),
    staged := s.staged.filter (fun e => lighthouseRange (e.1 / 256)),
    blobs := s.blobs.filter (fun e => lighthouseRange (e.1 / 256) || keyFused e.1),
    plan := none, tiles := [], tlbs := [], berths := [], bollards := [], chains := [], inval := none,
    ctxs := [], secure := Secure.reset, tallies := [], outvoted := [], fabric := Fabric.reset, layers := [], stored := [],
    weigh := Weigh.reset, holds := [], cals := [], dieCals := [], mvms := [],
    docks := s.docks.map (fun e => (e.1, e.2.unpowered)),
    notice := { s.notice with on := false, unacked := 0, outstanding := false },
    log := { s.log with ring := [] },
    power := { s.power with hmRunning := false, restoreOpen := false, restoredDies := [], settled := false, settle := [], dieCal := [],
                            napHeld := false, sleepHeld := false, convertersOn := false, pwrGood := false,
                            gateN := 0, underPeriods := 0, hist := [], goal := [] } }

/-- DRAM loses power: its content counts as never written (log 12). -/
def State.dropDram (s : State) : State := s.forget 0 sramBase

/-- The device falls to AUX or to OFF: links and windows go down with the harbourmaster. -/
def State.fallTo (s : State) (p : PState) (cause : Nat) : State :=
  let s := ((s.linkDown 0).linkDown 1).windowsDown
  let s := s.dropHarbourmaster.dropGroups.dropDram
  let s := { s with power := { s.power with phase := .clampCheck, startPending := false, clampGood := false, shutdownBusy := false,
                                            sleepBoot := false } }
  let s := (s.setPst p).put 0xB000 6 cause
  s.sweepTransfers

end Sys2Proof.Machine
end

