-- ==== Sys2Proof/Machine/Firmware.lean ====
section
/-! DEFINITION. Firmware slots, secure boot, anti-rollback and debug access (R521 to R525, R529). -/

namespace Sys2Proof.Machine

/-! ## Slots -/

def Fw.slot (f : Fw) (n : Nat) : FwSlot := if n = 0 then f.slotA else f.slotB
def Fw.setSlot (f : Fw) (n : Nat) (x : FwSlot) : Fw := if n = 0 then { f with slotA := x } else { f with slotB := x }

/-- ARB_COUNTER (R525). -/
def State.arb (s : State) : Nat := s.get 0xC011 0

/-- A slot's image is valid: present, its digests match, its SVN not below the fused count (R522). -/
def State.slotValid (s : State) (n : Nat) : Bool :=
  let x := s.fw.slot n
  x.present && x.digestsGood && decide (s.arb ≤ x.svn)

/-- A slot whose record has no commit flag counts as ACTIVE_SEQ 0 (R522). -/
def FwSlot.seq (x : FwSlot) : Nat := if x.committed then x.activeSeq else 0

/-- The order in which the boot ROM takes the slots: descending ACTIVE_SEQ, slot A first on a tie (R523). -/
def Fw.order (f : Fw) : List Nat := if f.slotA.seq < f.slotB.seq then [1, 0] else [0, 1]

/-- 0xC022 FW_STATUS (R530). -/
def State.fwStatus (s : State) : State :=
  let st (n : Nat) : Nat := if s.slotValid n then (if s.fw.order.headD 0 = n then 2 else 1) else 0
  ((((s.put 0xC022 1 s.fw.running).put 0xC022 2 (st 0)).put 0xC022 3 (st 1)).put 0xC022 4 s.fw.slotA.svn).put 0xC022 5
    s.fw.slotB.svn

/-- The boot ROM takes the first slot that is valid and not passed over since power-on; another than the first in order
logs 0x9002, none at all logs 0x9001 and leaves only the recovery objects reachable (R523). -/
def State.bootSelect (s : State) : State :=
  match (s.fw.order.filter (fun n => s.slotValid n && !s.fw.passedOver.contains n)).head? with
  | some n =>
    let s := { s with fw := { s.fw with running := n, bothFailed := false },
                      blobs := mset s.blobs (key 0x100A 0) (s.fw.slot n).version }
    let s := if n = s.fw.order.headD 0 then s else s.logEv (pkgEv 0x9002 warning)
    s.fwStatus
  | none =>
    let s := { s with fw := { s.fw with bothFailed := true } }
    (s.logHard (pkgEv 0x9001 deviceFault)).fwStatus

/-! ## FW_IMAGE (R521, R522, R524) -/

/-- The writing of the firmware image that a channel downloads ends; the slot stays without an image (R46, R524). -/
def State.fwCut (s : State) (w : FwWriter) : State :=
  if s.fw.writer = some w then { s with fw := { s.fw with writing := none, writer := none } }.fwStatus else s

/-- A port is reset while one of its channels downloads an image (R508). -/
def State.fwCutPort (s : State) (p : Nat) : State := match s.fw.writer with
  | some (.dac q ch) => if q = p then s.fwCut (.dac q ch) else s
  | _ => s

def fwMaxBytes : Nat := 0x03FC0000

/-- VERSION_STRING without its padding. -/
def fwVersion (m : List Byte) : List Byte := (sub_ m 120 64).takeWhile (fun b => b != 0)

/-- Bytes are UTF-8: `need` bytes of a character are still to come, the next between `lo` and `hi`. -/
def utf8From (need lo hi : Nat) : List Byte → Bool
  | [] => need == 0
  | b :: r =>
    let n := b.toNat
    if need ≠ 0 then decide (lo ≤ n ∧ n ≤ hi) && utf8From (need - 1) 0x80 0xBF r
    else if n < 0x80 then utf8From 0 0 0 r
    else if 0xC2 ≤ n ∧ n ≤ 0xDF then utf8From 1 0x80 0xBF r
    else if 0xE0 ≤ n ∧ n ≤ 0xEF then utf8From 2 (if n = 0xE0 then 0xA0 else 0x80) (if n = 0xED then 0x9F else 0xBF) r
    else if 0xF0 ≤ n ∧ n ≤ 0xF4 then utf8From 3 (if n = 0xF0 then 0x90 else 0x80) (if n = 0xF4 then 0x8F else 0xBF) r
    else false

/-- VERSION_STRING is UTF-8, padded with zeros (R521). -/
def fwVersionOk (m : List Byte) : Bool :=
  utf8From 0 0 0 (fwVersion m) && isZero (sub_ m (120 + (fwVersion m).length) (64 - (fwVersion m).length))

def fwHeaderOk (s : State) (m : List Byte) : Bool :=
  let lh := field m 16 4
  let hm := field m 20 4
  decide (4096 ≤ m.length ∧ field m 0 4 = 0x4D524946 ∧ field m 4 2 = 1 ∧ field m 6 2 = 0 ∧ field m 8 4 = deviceType
    ∧ field m 12 2 ≤ 64 ∧ field m 14 2 = 0 ∧ 4096 ≤ lh ∧ lh ≤ 1048576
    ∧ 4096 + (lh + 4095) / 4096 * 4096 + hm ≤ fwMaxBytes ∧ 4096 + (lh + 4095) / 4096 * 4096 + hm ≤ m.length)
  && fwVersionOk m && isZero (sub_ m 281 7) && isZero (sub_ m 384 3712)
  && sha384 (sub_ m 184 97) == Config.fwKeyHash
  && ecdsaVerify (sub_ m 184 97) (m.take 288) (sub_ m 288 96)
  && decide (s.arb ≤ field m 12 2)

def fwLhSection (m : List Byte) : List Byte := sub_ m 4096 (field m 16 4)
def fwHmSection (m : List Byte) : List Byte := sub_ m (4096 + (field m 16 4 + 4095) / 4096 * 4096) (field m 20 4)

/-- A valid image (R522). -/
def fwImageOk (s : State) (m : List Byte) : Bool :=
  fwHeaderOk s m && sha384 (fwLhSection m) == sub_ m 24 48 && sha384 (fwHmSection m) == sub_ m 72 48

/-- The slot that is not running. -/
def Fw.target (f : Fw) : Nat := 1 - f.running


/-- The close of a FW_IMAGE download: the content is validated, the target slot's record is erased and writing begins
(R524). Answers the code of a refusal. -/
def State.fwImageClose (s : State) (m : List Byte) : Except Nat State :=
  if !s.reachFw then .error 0xA010
  else if s.fw.writing.isSome then .error 0xA00A
  else if fwMaxBytes < m.length then .error 0xA008
  else if fwImageOk s m then
    let new : FwSlot := ⟨true, true, field m 12 2, 0, false, fwVersion m, sub_ m 24 48, sub_ m 72 48⟩
    let old := s.fw.slot s.fw.target
    let fw := s.fw.setSlot s.fw.target { old with committed := false, activeSeq := 0, present := false }
    .ok ({ s with fw := { fw with writing := some new } }).fwStatus
  else .error 0xA013

def execFwImageDownload (src : Src) (image : List Byte) (s : State) : Host.Outcome State Fault Refusal :=
  .next (match if s.transferOpen 0xC020 then .error 0xA00A else s.fwImageClose image with
    | .ok s' => s'.accept src 0xC020 0
    | .error c =>
      let s := if c = 0xA013 then s.logEv (pkgEv 0x9003 warning) else s
      s.refuse src 0xC020 0 c)

/-- FW_ACTIVATE commits the record of the slot that is not running (R524). -/
def State.activateEff (s : State) : Except Nat State :=
  if s.transferOpen 0xC020 || s.fw.writing.isSome then .error 0xA00A
  else if !s.slotValid s.fw.target then .error 0xA009
  else
    let x := s.fw.slot s.fw.target
    let y := { x with committed := true, activeSeq := (s.fw.slot s.fw.running).seq + 1 }
    .ok ({ s with fw := s.fw.setSlot s.fw.target y }).fwStatus

def execFwActivate (src : Src) (s : State) : Host.Outcome State Fault Refusal :=
  .next (s.guarded src 0xC021 0 [1] (fun _ s => s.activateEff))

/-- The fused count rises to the running SVN, one fuse and one 0x9007 per increment (R525). -/
def State.svnEff (s : State) : Except Nat State :=
  let svn := (s.fw.slot s.fw.running).svn
  if svn ≤ s.arb then .error 0xA007
  else .ok ((iter (svn - s.arb) (fun _ s => s.logEv (pkgEv 0x9007 note)) s).put 0xC011 0 svn).fwStatus

def execSvnCommit (src : Src) (s : State) : Host.Outcome State Fault Refusal :=
  .next (s.guarded src 0xC012 0 [1] (fun _ s => s.svnEff))

/-! ## Debug access (R529) -/

def State.debugKeyHash (s : State) : List Byte := (mget? s.blobs (key 0xC031 0)).getD (zeros 48)

/-- A new value of DEBUG_NONCE after each token attempt and each reset. -/
def State.newNonce (s : State) : State :=
  let (n, s) := s.draw
  { (s.put 0xC030 1 (n % 2 ^ 64)) with dbg := { s.dbg with nonce := n % 2 ^ 64 } }

/-- The one-time download of DEBUG_KEY_HASH over ODP. Answers the code of a refusal. -/
def State.debugKeySet (s : State) (h : List Byte) : Except Nat State :=
  if !isZero s.debugKeyHash then .error 0xA012
  else if s.planLoaded then .error 0xA009
  else if h.length ≠ 48 then .error 0xA008
  else .ok { s with blobs := mset s.blobs (key 0xC031 0) h }

def execDebugKeyHashSet (hash : List Byte) (s : State) : Host.Outcome State Fault Refusal :=
  .next (if s.power.pst = .off then s else
    match if s.transferOpen 0xC031 then .error 0xA00A else s.debugKeySet hash with
    | .ok s' => s'.accept .odp 0xC031 0
    | .error c => s.refuse .odp 0xC031 0 c)

def debugTokenOk (s : State) (t : List Byte) : Bool :=
  !isZero s.debugKeyHash
  && field t 0 4 == 0x54474244 && sub_ t 4 12 == Config.serial && field t 16 8 == s.dbg.nonce
  && decide (1 ≤ field t 24 4 ∧ field t 24 4 ≤ 86400)
  && isZero (sub_ t 125 3) && sha384 (sub_ t 28 97) == s.debugKeyHash
  && ecdsaVerify (sub_ t 28 97) (t.take 128) (sub_ t 128 96)

/-- Debug access ends: logged as 0x9005, measurement 5 changes. -/
def State.debugStop (s : State) : State :=
  if s.dbg.on then
    let s := { s with dbg := { s.dbg with on := false, tokenHash := [], until_ := 0 } }
    (s.put 0xC030 3 0).logEv (pkgEv 0x9005 warning)
  else s

/-- A downloaded token: accepted, or refused with 0xA013, logged as 0x9006 and the nonce consumed. Answers the code of a
refusal beside the state it leaves. -/
def State.debugTokenWrite (s : State) (t : List Byte) : State × Nat :=
  if t.length ≠ 224 then (s, 0xA008)
  else if debugTokenOk s t then
    let s := { s with dbg := { s.dbg with on := true, tokenHash := sha384 t, until_ := s.timer + field t 24 4 * 10 ^ 9 },
                      blobs := mset s.blobs (key 0xC030 2) t }
    (((s.put 0xC030 3 1).logEv (pkgEv 0x9005 warning)).newNonce, 0)
  else ((s.logEv (pkgEv 0x9006 warning)).newNonce, 0xA013)

def execDebugToken (token : List Byte) (s : State) : Host.Outcome State Fault Refusal :=
  .next (if s.power.pst = .off then s else
    let (s', c) := if s.transferOpen 0xC030 then (s, 0xA00A) else s.debugTokenWrite token
    if c = 0 then s'.accept .odp 0xC030 2 else s'.refuse .odp 0xC030 2 c)

def execDebugEnd (src : Src) (s : State) : Host.Outcome State Fault Refusal :=
  .next (s.guarded src 0xC030 4 [1] (fun _ s => .ok s.debugStop))

/-- DEBUG_EXPIRY: the token's duration has passed (R529). -/
def execDebugExpiry (s : State) : Host.Outcome State Fault Refusal :=
  .next (if s.dbg.on ∧ s.dbg.until_ ≤ s.timer then s.debugStop else s)

end Sys2Proof.Machine
end

