-- ==== Sys2Proof/Machine/Power.lean ====
section
/-! DEFINITION. Power states, start-up and the input (R5, R26, R33, R484, R486 to R500). -/

namespace Sys2Proof.Machine

/-! ## Saved objects at their points of start-up (R63, R498, R499) -/

/-- Apply one saved object from the image: a missing or out-of-range value takes the default and logs 0xA016. -/
def State.applySaved (s : State) (k : Nat) : State :=
  match s.store.image with
  | none => s
  | some im =>
    match mget? im k, objDef (k / 256) (k % 256) with
    | some v, some o =>
      if typeOk o.type v && rangeOk o.range v then s.putK k v
      else { s with dict := merase s.dict k }.logEv { code := 0xA016, severity := note, kind := 11, id := k }
    | _, _ => { s with dict := merase s.dict k }.logEv { code := 0xA016, severity := note, kind := 11, id := k }

def State.applySavedAll (s : State) (keep : Nat → Bool) : State := (savedKeys keep).foldl State.applySaved s

/-- A bank that can be used (R63). -/
def Bank.good (b : Bank) : Bool := b.committed && b.crcGood

/-- The image start-up uses: the good bank of the higher generation. -/
def Store.select (st : Store) : Option Bank :=
  if st.bank0.good && (!st.bank1.good || decide (st.bank1.generation ≤ st.bank0.generation)) then some st.bank0
  else if st.bank1.good then some st.bank1
  else none

/-- Objects the harbourmaster applies at step 3a (R498). -/
def step3aIdx (idx : Nat) : Bool := idx == 0x6100

/-! ## The lighthouse starts (R499, R523, R503) -/

/-- What a start reports: why the last power-down came, a reference that is absent, a converter that stays disabled. -/
def State.startEvents (s : State) : State :=
  let s := if s.power.ovLatch then s.logHard (pkgEv 0x8002 deviceFault) else s
  let s := if s.power.resetLatch then s.logEv (pkgEv 0x800C note) else s
  let s := { s with power := { s.power with ovLatch := false, resetLatch := false },
                    fw := { s.fw with passedOver := [], hmVerified := false, writing := none, writer := none } }
  let s := if s.power.mref then s else s.logEvery 0 (pkgEv 0x810A note)
  let s := if s.lh.conv0.disabled then s.logEv (pkgEv 0x8103 warning [0]) else s
  if s.lh.conv1.disabled then s.logEv (pkgEv 0x8103 warning [1]) else s

def State.lighthouseStart (s : State) : State :=
  let s := { s with log := { s.log with bootCount := (s.log.bootCount + 1) % 65536, lastAt := [] } }
  let s := match s.store.select with
    | some b => { s with store := { s.store with image := some b.records } }.put 0x1011 2 b.generation
    | none => { s with store := { s.store with image := none } }.logEv (pkgEv 0xA017 warning)
  let s := s.applySavedAll lighthouseRange
  let s := match s.store.ageing with
    | some days => { s with lh := { s.lh with ageing := days.map (fun (e : Nat × List Rat) => (e.1, (⟨e.2, 0, 0, false⟩ : AgeInd))) } }
    | none => { s with lh := { s.lh with ageing := [] } }.logEv (pkgEv 0x810B warning)
  (s.startEvents.bootSelect).newNonce

/-- The management port starts with duplicate address detection; a duplicate that was found stands until a reset (R519). -/
def State.mgmtStart (s : State) : State :=
  if s.power.mref && s.power.pst != .off then
    ({ s with mgmt := ⟨true, s.mgmt.beacon⟩ }).put 0x1400 7 (if s.get 0x1400 7 = 2 then 2 else 0) |>.put 0x1400 6
      (if s.get 0x1400 1 = 255 then 0 else if s.get 0x1400 1 = 0 || s.mgmt.beacon then 1 else 2)
  else s

/-! ## Transitions -/

/-- Enter BOOT at firmware verification (R487, R497). The image that R63 selects is the one now in force, and it serves the whole
start-up. -/
def State.startBoot (s : State) (fromSleep : Bool) : State :=
  let s := { s with power := { s.power with phase := .firmware, startPending := false, sleepBoot := fromSleep },
                    store := { s.store with image := s.store.select.map Bank.records } }
  -- Leaving SLEEP for BOOT asserts HLx_WAKE_N (R509).
  let s := if fromSleep then { s with hl0 := { s.hl0 with wakeN := true }, hl1 := { s.hl1 with wakeN := true } } else s
  s.setPst .boot

/-- Leave AUX: BOOT where the clamp check has passed since the converters were last off; else the device stays in AUX and the
start waits for the check (R33, R487; log 69). -/
def State.wantStart (s : State) : State :=
  if s.power.clampGood then s.startBoot false else { s with power := { s.power with startPending := true } }

/-- START (R487): AUX or SLEEP to BOOT; elsewhere 0xA009. -/
def State.cmdStart (s : State) (src : Src) : Except Nat State :=
  if s.power.pst = .aux && !s.power.resetLow && !s.fw.bothFailed then
    let s := if src = .odp then { s with power := { s.power with autoBlocked := false } } else s
    .ok s.wantStart
  else if s.power.pst = .sleep then .ok (s.startBoot true)
  else .error 0xA009

/-- NAP is accepted in READY, IDLE and RUN, and held (R488). -/
def State.cmdNap (s : State) : Except Nat State :=
  if s.operating then .ok { s with power := { s.power with napHeld := true } } else .error 0xA009

/-- A WAKE cancels a held NAP, wakes from NAP and from SLEEP (R488, R489). -/
def State.cmdWake (s : State) : Except Nat State :=
  if s.power.pst = .nap then .ok s.napWake
  else if s.power.pst = .sleep then .ok (s.startBoot true)
  else if s.power.napHeld then .ok { s with power := { s.power with napHeld := false } }
  else .error 0xA009

/-- Ageing history is written to its record (R470). -/
def State.saveAgeing (s : State) : State :=
  { s with store := { s.store with ageing := some (s.lh.ageing.map (fun e => (e.1, e.2.days))) } }

/-- The move to SLEEP (R489): SRAM, trims, contexts and harbourmaster state go; DRAM stays. -/
def State.enterSleep (s : State) : State :=
  let s := s.saveAgeing
  let s := ((s.linkDown 0).linkDown 1).windowsDown
  let s := s.dropHarbourmaster
  let s := { s with store := { s.store with orderly := true } }
  (s.setPst .sleep).sweepTransfers

/-- VALIDATING, CONFIGURING or UNLOADING (R82). -/
def State.planBusy (s : State) : Bool := s.get 0x2400 4 != 0 && s.get 0x2400 4 != 3

/-- SLEEP is accepted only in READY; one that arrives while a plan is being loaded or unloaded is held, in whichever state the
device works (R489, R88). -/
def State.cmdSleep (s : State) : Except Nat State :=
  if s.operating && s.planBusy then .ok { s with power := { s.power with sleepHeld := true } }
  else if s.power.pst = .ready then .ok s.enterSleep
  else .error 0xA009

/-- A held SLEEP takes effect once PLAN_STATE has reached LOADED or NONE (R88). -/
def State.heldSleep (s : State) : State :=
  if s.power.sleepHeld && s.operating && !s.planBusy then s.enterSleep else s

/-- A command through POWER_COMMAND. -/
def State.powerCommand (s : State) (src : Src) (v : Nat) (eff : State → Except Nat State) : State :=
  s.guarded src 0xB000 2 [BitVec.ofNat 8 v] (fun _ s => eff s)

def execPowerStart (src : Src) (s : State) : Host.Outcome State Fault Refusal :=
  .next (s.powerCommand src 1 (fun s' => s'.cmdStart src))

def execPowerNap (src : Src) (s : State) : Host.Outcome State Fault Refusal :=
  .next (s.powerCommand src 2 State.cmdNap)

def execPowerWake (src : Src) (s : State) : Host.Outcome State Fault Refusal :=
  .next (s.powerCommand src 3 State.cmdWake)

def execPowerSleep (src : Src) (s : State) : Host.Outcome State Fault Refusal :=
  .next (s.powerCommand src 4 State.cmdSleep)

/-! ## The input -/

def execInputUndervoltage (s : State) : Host.Outcome State Fault Refusal :=
  .next (if s.power.pst = .off ∨ s.power.pst = .aux then s
    else (s.fallTo .aux 0x8001).logHard (pkgEv 0x8001 deviceFault))

/-- Nothing runs in OFF: the management port stops, a save or a firmware write is cut off (R63, R490). -/
def State.goDark (s : State) (ov : Bool) : State :=
  { s with power := { s.power with ovLatch := s.power.ovLatch || ov }, mgmt := ⟨false, false⟩,
           store := { s.store with saving := none }, fw := { s.fw with writing := none, writer := none } }

/-- The supply goes while entries wait to be written to the flash log: the first of them may have been under way, and is then
left there with a CRC that fails. Whether it was is a free value (R73, log 26). -/
def State.tearLog (s : State) : State :=
  match s.log.ring.find? (fun e => !e.persisted && decide (s.get 0xA002 1 ≤ e.severity)) with
  | none => s
  | some e =>
    let (n, s) := s.draw
    if n % 2 = 0 then s
    else { s with log := { s.log with flash := s.log.flash ++ [{ e with persisted := true, crcGood := false }] } }

def execInputOvervoltage (s : State) : Host.Outcome State Fault Refusal :=
  .next ((s.tearLog.fallTo .off 0x8002).goDark true)

/-- The lighthouse's own volatile state as it starts: converters enabled, filters unsampled, debug access and SPDM
connections gone, the local timer at 0 (R491, R383); no clamp check has been passed, and no start is pending (log 69). -/
def State.freshLighthouse (s : State) (trip : List Nat) : State :=
  { s with timer := 0, power := { s.power with clampGood := false, startPending := false }, lh := { Lighthouse.reset with ageing := s.lh.ageing, trip := trip },
           dbg := { s.dbg with on := false, tokenHash := [], until_ := 0 }, odp := ⟨[], [], []⟩,
           spdmHl0 := SpdmConn.reset, spdmHl1 := SpdmConn.reset, spdmOdp := SpdmConn.reset,
           hl0 := { s.hl0 with dacs := HostSt.reset.dacs }, hl1 := { s.hl1 with dacs := HostSt.reset.dacs },
           store := { s.store with saving := none },
           fw := { s.fw with writing := none, writer := none } }

/-- AUTO_START decides to leave AUX (R487, R499). -/
def State.autoStart (s : State) : Bool :=
  s.get 0xB000 3 == 1 && !s.power.autoBlocked && !s.power.resetLow && !s.fw.bothFailed

/-- At power-on SEQ goes on from the persisted log (R72). -/
def State.resumed (s : State) : State := { s with log := { s.log with nextSeq := s.log.resumeSeq } }

def execPowerOn (s : State) : Host.Outcome State Fault Refusal :=
  .next (if s.power.pst ≠ .off then s else
    let cause := if s.power.ovLatch then s.get 0xB000 6 else 0
    let s := ((s.resumed.volatileDefaults).freshLighthouse []).put 0xB000 6 cause
    let s := (s.setPst .aux).lighthouseStart.mgmtStart
    if s.autoStart then s.wantStart else s)

/-- The clamp comparison before the converters are enabled (R33): it passes within 0.5 V, and is repeated in AUX until it does. -/
def clampOk (neMv swMv : Nat) : Bool := decide (neMv ≤ swMv + 500 ∧ swMv ≤ neMv + 500)

def execClampCheck (neMv swMv : Nat) (s : State) : Host.Outcome State Fault Refusal :=
  .next (if s.power.pst ≠ .aux ∨ s.power.resetLow ∨ s.power.clampGood then s
    else if clampOk neMv swMv then
      let s := { s with power := { s.power with clampGood := true } }
      if s.power.startPending then s.startBoot false else s
    else s.logEv (pkgEv 0x8003 warning))

def execConverterFailure (n : Fin 24) (s : State) : Host.Outcome State Fault Refusal :=
  .next (if s.power.pst = .off then s else
    (s.put 0xB020 5 (setBit (s.get 0xB020 5) n.val false)).logEv
      { code := 0x8004, severity := warning, kind := 8, id := n.val })

def execRegulatorFault (s : State) : Host.Outcome State Fault Refusal :=
  .next (if s.power.pst = .off ∨ s.power.pst = .aux then s
    else (s.fallTo .aux 0x8009).logHard (pkgEv 0x8009 deviceFault))

def State.holdReset (s : State) : State :=
  { s with store := { s.store with orderly := false }, power := { s.power with resetLow := true, resetLatch := true } }

/-- PKG_RESET_N is asserted (R491): AUX, volatile objects at their defaults, the timer at 0. -/
def execPkgResetAssert (s : State) : Host.Outcome State Fault Refusal :=
  .next (if s.power.pst = .off then { s with power := { s.power with resetLow := true } } else
    let s := ((s.fallTo .aux 0x800C).volatileDefaults).freshLighthouse s.lh.trip
    ((s.holdReset).put 0xB000 1 PState.aux.code).put 0xB000 6 0x800C)

def execPkgResetRelease (s : State) : Host.Outcome State Fault Refusal :=
  .next (if !s.power.resetLow then s
    else
      let s := { s with power := { s.power with resetLow := false } }
      if s.power.pst = .off then s else
      let s := s.lighthouseStart.mgmtStart
      if s.autoStart then s.wantStart else s)

/-- 48 V is lost at both clamps: OFF, and a save or a firmware write under way is cut off (R490). -/
def execPowerLoss (s : State) : Host.Outcome State Fault Refusal :=
  .next (if s.power.pst = .off then s else
    (s.tearLog.fallTo .off 0).goDark false)

def execInputDroop (s : State) : Host.Outcome State Fault Refusal :=
  .next (if s.power.pst = .off ∨ s.power.pst = .aux ∨ s.power.pst = .sleep ∨ s.power.droop then s else
    let s := { s with power := { s.power with droop := true, underPeriods := 0, goal := [] } }
    let s := iter 16 (fun d s => (s.put 0xB011 (d + 1) 900).put 0xB012 (d + 1) (setBit (s.get 0xB012 (d + 1)) 7 true)) s
    s.logEv (pkgEv 0x8005 note))

def execDroopRecovery (s : State) : Host.Outcome State Fault Refusal :=
  .next (if s.power.droop then { s with power := { s.power with droop := false, underPeriods := 0 } } else s)

/-- MREF25 goes: the management port stops, the lighthouse falls back to its free-running oscillator (R494, R455). -/
def execManagementReferenceLoss (s : State) : Host.Outcome State Fault Refusal :=
  .next (if !s.power.mref then s else
    let s := { s with power := { s.power with mref := false }, mgmt := ⟨false, false⟩, lh := { s.lh with trimmed := false } }
    if s.power.pst = .off then s else s.logEvery 0 (pkgEv 0x810A note))

def execManagementReferenceReturn (s : State) : Host.Outcome State Fault Refusal :=
  .next (if s.power.mref then s else ({ s with power := { s.power with mref := true } }).mgmtStart)

/-! ## Start-up (R497) -/

/-- Start-up fails: AUX with a device fault. -/
def State.bootFail (s : State) (code : Nat) : State := (s.fallTo .aux code).logHard (pkgEv code deviceFault)

def execFirmwareVerifyDone (pass : Bool) (s : State) : Host.Outcome State Fault Refusal :=
  .next (if s.power.pst ≠ .boot ∨ s.power.phase ≠ .firmware then s
    else if pass && s.slotValid s.fw.running then
      { s with fw := { s.fw with hmVerified := true }, power := { s.power with phase := .regulators } }
    else
      -- The slot is passed over and the boot ROM takes the next one (R523).
      let s := { s with fw := { s.fw with passedOver := s.fw.running :: s.fw.passedOver } }.bootSelect
      if s.fw.bothFailed then s.fallTo .aux 0x9001 else s)

/-- A released port enters link training once the regulators are up (R507). -/
def State.portTrains (s : State) (p : Nat) : State :=
  if !(s.hl p).perst ∧ s.power.pwrGood ∧ s.get (0x1300 + p) 1 = 0 then s.put (0x1300 + p) 1 1 else s

def execStartupRegulatorsUp (s : State) : Host.Outcome State Fault Refusal :=
  .next (if s.power.pst ≠ .boot ∨ s.power.phase ≠ .regulators then s else
    let s := { s with power := { s.power with convertersOn := true, pwrGood := true, phase := .harbourmaster } }
    (s.portTrains 0).portTrains 1)

/-- The harbourmaster starts (R497, R498, R455, R162). -/
def execHarbourmasterStart (s : State) : Host.Outcome State Fault Refusal :=
  .next (if s.power.pst ≠ .boot ∨ s.power.phase ≠ .harbourmaster then s else
    let s := { s with power := { s.power with hmRunning := true, phase := .dram } }
    let s := s.applySavedAll step3aIdx
    let s := (s.put 0x2000 5 (mgetD s.store.devRec (key 0x2000 5) 0)).put 0x2500 5 (mgetD s.store.devRec (key 0x2500 5) 0)
    -- A map that cannot be read leaves every tile at its home position for the pass (R110).
    let s := match if s.store.mapGood then mget? s.store.devBlob (key 0x2500 4) else none with
      | some b => { s with blobs := mset s.blobs (key 0x2500 4) b }
      | none => s
    let s := if s.store.orderly then s else s.put 0x6200 7 1
    { s with store := { s.store with orderly := false } })

def execHarbourmasterStartTimeout (s : State) : Host.Outcome State Fault Refusal :=
  .next (if s.power.pst ≠ .boot ∨ s.power.phase ≠ .harbourmaster then s else s.bootFail 0x800B)

def execDramTrainingTimeout (s : State) : Host.Outcome State Fault Refusal :=
  .next (if s.power.pst ≠ .boot ∨ s.power.phase ≠ .dram then s else s.bootFail 0x800A)

/-- Every other saved object is applied and the device becomes READY (R497, R498). -/
def State.becomeReady (s : State) : State :=
  let s := s.applySavedAll (fun idx => !lighthouseRange idx && !step3aIdx idx)
  let s := { s with power := { s.power with phase := .done, sleepBoot := false, restoreOpen := false } }
  ((s.setPst .ready).put 0x1200 1 1).put 0x1201 1 1

end Sys2Proof.Machine
end

