-- ==== Sys2Proof/Machine/Host.lean ====
section
/-! DEFINITION. The CXL ports: link, configuration, MSI-X, HDM and the snoop filter, DOE, notices (R504 to R517). -/

namespace Sys2Proof.Machine

/-! ## Link and reset (R504, R507 to R509) -/

def execHlPerstRelease (port : HostPort) (s : State) : Host.Outcome State Fault Refusal :=
  .next ((s.setHl port.val { s.hl port.val with perst := false }).portTrains port.val)

/-- Rates and widths at which a port reaches L0 (R504). -/
def linkSupported (rate width : Nat) : Bool := [16, 32, 64].contains rate && [4, 8, 16].contains width

/-- A training port reaches L0 (R508, R509). -/
def execCxlLinkUp (port : HostPort) (rate width : Nat) (s : State) : Host.Outcome State Fault Refusal :=
  let p := port.val
  .next (if (s.hl p).perst ∨ !s.power.pwrGood ∨ s.get (0x1300 + p) 1 ≠ 1 ∨ !linkSupported rate width then s else
    let s := ((s.put (0x1300 + p) 1 2).put (0x1300 + p) 2 rate).put (0x1300 + p) 3 width
    let s := s.setHl p { s.hl p with wakeN := false }
    if s.operating ∨ s.power.pst = .nap ∨ s.power.restoreOpen then s.put (0x1200 + p) 1 1 else s)

def execWakeNTimeout (port : HostPort) (s : State) : Host.Outcome State Fault Refusal :=
  .next (s.setHl port.val { s.hl port.val with wakeN := false })

/-! ## Configuration (R505 to R507, R516) -/

/-- Bits of a configuration dword that a host can write: COMMAND, the three BARs (256 MiB, 1 MiB, 128 KiB), INTERRUPT LINE;
the standard's own registers are PRESUMED (log 15). -/
def cfgWriteMask (off : Nat) : Nat :=
  if off = 0x04 then 0x0547
  else if off = 0x10 then 0xF0000000
  else if off = 0x18 then 0xFFF00000
  else if off = 0x20 then 0xFFFE0000
  else if off = 0x3C then 0xFF
  else 0

/-- A configuration dword: vendor and device ID, class code and revision (R505), written registers, else the standard's. -/
def State.cfgDword (s : State) (p off : Nat) : Nat :=
  if off = 0 then Config.vendorId % 65536 + 0xD236 * 65536
  else if off = 8 then 0x12000010
  else match mget? (s.hl p).config off with
    | some v => v
    | none => if cfgWriteMask off = 0 ∨ off = 4 then Config.standardConfig off % 2 ^ 32 else 0

/-- Send what a mask held back, once it is lifted (R516). -/
def State.msixFlush (s : State) (p v : Nat) : State :=
  let h := s.hl p
  if h.msixOn && !h.masked.getD v true && h.pendingBits.getD v false then
    (s.setHl p { h with pendingBits := h.pendingBits.set v false }).msix p v
  else s

def State.cfgServe (s : State) (p : Nat) (req : CfgReq) : State :=
  let h := s.hl p
  match req with
  | .read off => s.emit (.cfgData p (s.cfgDword p (off / 4 * 4)))
  | .write off v =>
    let o := off / 4 * 4
    let m := cfgWriteMask o
    if m = 0 then s else
      let old := s.cfgDword p o
      s.setHl p { h with config := mset h.config o ((v &&& m) ||| (old &&& (0xFFFFFFFF - m))) }
  | .decoderCommit n => if n ≤ reservedBase then s.setHl p { h with decoder := n } else s
  | .msixEnable on => iter 3 (fun v s => s.msixFlush p v) (s.setHl p { h with msixOn := on })
  | .msixMask v m => (s.setHl p { h with masked := h.masked.set v.val m }).msixFlush p v.val
  | .msixTarget v a d => s.setHl p { h with targets := h.targets.set v.val (a, d) }

/-- Before WINDOW_READY every configuration request completes with RRS (R507). -/
def execCxlConfigRequest (port : HostPort) (req : CfgReq) (s : State) : Host.Outcome State Fault Refusal :=
  let p := port.val
  .next (if (s.hl p).perst ∨ !s.power.pwrGood then s
    else if s.windowReady p then s.cfgServe p req
    else s.emit (.rrs p))

/-! ## HDM and back-invalidation (R510, R511) -/

def filterLines : Nat := 8388608

/-- Snoops that an access of a port to a line needs first: the other port's host holds it and the access writes it, or
may hold it modified; and a victim when the port's own filter is full. -/
def State.hdmSnoops (s : State) (p line : Nat) (op : HdmOp) : List (Nat × Nat) :=
  let other := 1 - p
  let held := mget? (s.hl other).filter line
  let conflict := match op, held with
    | _, none => false
    | .write _ _, some _ => true
    | .read keep, some st => decide (2 ≤ st) || keep
  let keeps := match op with
    | .read k => k
    | .write _ k => k
  let victim := if keeps && (mget? (s.hl p).filter line).isNone && decide (filterLines ≤ (s.hl p).filter.length)
    then ((s.hl p).filter.take 1).map (fun e => (p, e.1)) else []
  (if conflict then [(other, line)] else []) ++ victim

/-- Serve a host access at the coherence point. -/
def State.hdmServe (s : State) (p line : Nat) (op : HdmOp) : State :=
  let h := s.hl p
  match op with
  | .read keep =>
    let s := s.setHl p { h with filter := if keep then mset h.filter line 2 else h.filter }
    s.emit (.hdmData p line (s.bytesAt line 64) (s.poisonedIn line 64))
  | .write d keep =>
    let s := (s.writeAt line ((d ++ zeros 64).take 64)).setHl p
      { h with filter := if keep then mset h.filter line 2 else merase h.filter line }
    s.emit (.hdmWritten p line)

/-- Send back-invalidation snoops: counted on their port (R531). -/
def State.sendSnoops (s : State) (ls : List (Nat × Nat)) : State :=
  ls.foldl (fun s e => (s.count (0x1300 + e.1) 5 64 1).emit (.biSnoop e.1 e.2)) s

/-- Whether no access to the same line came earlier. -/
def State.hdmFirst (s : State) (w : HdmWait) : Bool :=
  ((s.hl 0).waiting ++ (s.hl 1).waiting).all (fun v => v.pa != w.pa || decide (w.no ≤ v.no))

/-- An access joins those that wait on its port. -/
def State.hdmQueue (s : State) (p line : Nat) (op : HdmOp) (lines : List (Nat × Nat)) : State :=
  let no := 1 + ((s.hl 0).waiting ++ (s.hl 1).waiting).foldl (fun m w => max m w.no) 0
  s.setHl p { s.hl p with waiting := (s.hl p).waiting ++ [⟨no, line, op, lines⟩] }

/-- A host access to a line: outside the committed decoder it reaches nothing (R510, R326); behind an access to the same line that
waits, it waits for its turn. -/
def execHdmAccess (port : HostPort) (pa : Nat) (op : HdmOp) (s : State) : Host.Outcome State Fault Refusal :=
  let p := port.val
  let line := pa / 64 * 64
  .next (if !s.linkUp p ∨ min (s.hl p).decoder reservedBase < line + 64 ∨ !(s.operating ∨ s.power.pst = .nap) then s else
    let snoops := s.hdmSnoops p line op
    if ((s.hl 0).waiting ++ (s.hl 1).waiting).any (fun w => w.pa == line) then s.hdmQueue p line op []
    else if snoops = [] then s.hdmServe p line op
    else (s.sendSnoops snoops).hdmQueue p line op snoops)

/-- Serve the waiting accesses of a port whose turn has come and whose snoops have all been answered, oldest first; one that finds
the line held again snoops it. -/
def State.hdmWake (s : State) (p : Nat) : Nat → State
  | 0 => s
  | n + 1 =>
    match (s.hl p).waiting with
    | w :: rest =>
      if w.lines = [] ∧ s.hdmFirst w then
        let snoops := s.hdmSnoops p w.pa w.op
        if snoops = [] then ((s.setHl p { s.hl p with waiting := rest }).hdmServe p w.pa w.op).hdmWake p n
        else (s.sendSnoops snoops).setHl p { s.hl p with waiting := { w with lines := snoops } :: rest }
      else s
    | [] => s

/-- Waiting accesses of both ports go on as far as they can. -/
def State.hdmWakeAll (s : State) : State :=
  iter ((s.hl 0).waiting.length + (s.hl 1).waiting.length) (fun _ s =>
    (s.hdmWake 0 (s.hl 0).waiting.length).hdmWake 1 (s.hl 1).waiting.length) s

/-- A host answers a snoop: modified data is written, the line leaves its filter, and waiting accesses go on (R511). An answer for
a line that the filter no longer lists brings no data. -/
def execBiSnoopResponse (port : HostPort) (line : Nat) (data : Option (List Byte)) (s : State) :
    Host.Outcome State Fault Refusal :=
  let p := port.val
  let line := line / 64 * 64
  .next (
    let s := match data, mget? (s.hl p).filter line with
      | some d, some _ => s.writeAt line ((d ++ zeros 64).take 64)
      | _, _ => s
    let s := s.setHl p { s.hl p with filter := merase (s.hl p).filter line }
    let drop (h : HostSt) : HostSt :=
      { h with waiting := h.waiting.map (fun w => { w with lines := w.lines.filter (fun e => e != (p, line)) }) }
    ({ s with hl0 := drop s.hl0, hl1 := drop s.hl1 }).hdmWakeAll)

/-- HLx_PERST_N is asserted: only that port is reset (R508). -/
def execHlPerstAssert (port : HostPort) (s : State) : Host.Outcome State Fault Refusal :=
  .next (
    let p := port.val
    let s := (s.linkDown p).fwCutPort p
    let s := iter 4 (fun i s => { s with dict := merase s.dict (key (0x1200 + p) (i + 1)) }) s
    (s.setHl p { HostSt.reset with perst := true, wakeN := (s.hl p).wakeN }).hdmWakeAll)

/-- The link goes down, and trains again while its PERST is released and the rails are up (R511, R507). -/
def execCxlLinkDown (port : HostPort) (s : State) : Host.Outcome State Fault Refusal :=
  .next (if s.linkUp port.val then ((s.linkDown port.val).portTrains port.val).hdmWakeAll else s)

/-! ## Completion notices (R514 to R516) -/

/-- A notice write is acknowledged: vector 0 is sent on RING_PORT when none has been sent since the host last wrote
CONSUMER (R516); enabling the ring is no such write. -/
def execNoticeWriteDone (s : State) : Host.Outcome State Fault Refusal :=
  .next (if s.notice.unacked = 0 then s else
    let s := { s with notice := { s.notice with unacked := s.notice.unacked - 1 } }
    if s.notice.outstanding then s
    else ({ s with notice := { s.notice with outstanding := true } }).msix (s.get 0x1310 3) 0)

/-- A CONSUMER value that would pass PRODUCER is refused (R515). -/
def State.consumerEff (s : State) (v : Nat) : Except Nat State :=
  let used := (s.get 0x1310 5 + 2 ^ 32 - s.get 0x1310 6) % 2 ^ 32
  let adv := (v + 2 ^ 32 - s.get 0x1310 6) % 2 ^ 32
  if used < adv then .error 0xA007
  else .ok { (s.put 0x1310 6 v) with notice := { s.notice with outstanding := false } }

def execNoticeConsumerWrite (port : HostPort) (value : Nat) (s : State) : Host.Outcome State Fault Refusal :=
  .next (s.guarded (.win port) 0x1310 6 (leBytes 4 value) (fun v s => s.consumerEff v))

def State.ringApply (s : State) (v : Nat) : State :=
  if v = 1 then
    let s := ((s.applyStaged 0x1310 1 3).put 0x1310 5 0).put 0x1310 6 0
    { s with notice := { s.notice with on := true, phase := true } }
  else { s with notice := { s.notice with on := false } }

def execRingEnable (port : HostPort) (s : State) : Host.Outcome State Fault Refusal :=
  .next (s.guarded (.win port) 0x1310 4 [1] (fun v s => .ok (s.ringApply v)))

def execRingDisable (port : HostPort) (s : State) : Host.Outcome State Fault Refusal :=
  .next (s.guarded (.win port) 0x1310 4 [0] (fun v s => .ok (s.ringApply v)))

/-- A task's notice (R514): written into the ring, or dropped and counted. Answers the state after the write. -/
def State.notice16 (s : State) (img : List Byte) : State :=
  let port := s.get 0x1310 3
  let used := (s.get 0x1310 5 + 2 ^ 32 - s.get 0x1310 6) % 2 ^ 32
  let n := s.get 0x1310 2
  if !s.notice.on then s
  else if used = n ∨ !s.linkUp port then s.count 0x1310 7 32 1
  else
    let prod := s.get 0x1310 5
    let img := img.set 7 (if s.notice.phase then 1 else 0)
    let s := s.writeAt (hostWindowBase port + s.get 0x1310 1 + 16 * (prod % n)) img
    let s := s.put 0x1310 5 ((prod + 1) % 2 ^ 32)
    { s with notice := { s.notice with unacked := s.notice.unacked + 1,
                                       phase := if prod % n + 1 = n then !s.notice.phase else s.notice.phase } }

/-! ## DOE (R517) -/

/-- DOE Discovery: entries 0 to 2 are Discovery, CMA/SPDM and Table Access (CDAT); the numbers of the protocols are
PRESUMED from the standards (log 15). -/
def doeEntry (index : Nat) : List Byte :=
  if index = 0 then [0x01, 0x00, 0x00, 1] else if index = 1 then [0x01, 0x00, 0x01, 2] else [0x98, 0x1E, 0x02, 0]

def State.doeUp (s : State) (p : Nat) : Bool := s.linkUp p && s.windowReady p

def execDoeDiscovery (port : HostPort) (index : Nat) (s : State) : Host.Outcome State Fault Refusal :=
  .next (if s.doeUp port.val then
      s.emit (.doe port.val (if index < 3 then doeEntry index else [0xFF, 0xFF, 0, 0]))
    else s)

/-- The CDAT's structures (R517): DSMAS, DSLBIS (latency in ps, bandwidth in MB/s), DSEMTS. -/
def cdat : List (List Byte) :=
  [ [0, 0] ++ leBytes 2 24 ++ [0, 0, 0, 0] ++ leBytes 8 0 ++ leBytes 8 0xFF00000000,
    [1, 0] ++ leBytes 2 24 ++ [0, 0] ++ leBytes 2 0 ++ leBytes 8 1000 ++ leBytes 2 250 ++ leBytes 2 250 ++ leBytes 2 0
      ++ leBytes 2 0 ++ leBytes 4 256000,
    [4, 0] ++ leBytes 2 24 ++ [0, 0, 0, 0] ++ leBytes 8 0 ++ leBytes 8 0xFF00000000 ]

def execDoeTableAccess (port : HostPort) (entry : Nat) (s : State) : Host.Outcome State Fault Refusal :=
  .next (if s.doeUp port.val then s.emit (.doe port.val (cdat.getD entry [0xFF, 0xFF])) else s)

end Sys2Proof.Machine
end

