-- ==== Sys2Proof/Machine/Lighthouse.lean ====
section
/-! DEFINITION. The lighthouse: converters, plausibility, filters, rules, ageing and the risk terms (R454 to R478). -/

namespace Sys2Proof.Machine

/-! ## Temperatures -/

/-- The value of a binary32 pattern that is finite. -/
def f32ToRat (n : Nat) : Rat :=
  let e := bits n 30 23
  let m : Rat := if e = 0 then (bits n 22 0 : Nat) else (bits n 22 0 + 2 ^ 23 : Nat)
  let v : Rat := if 150 ≤ max e 1 then m * (2 ^ (max e 1 - 150) : Nat) else m / (2 ^ (150 - max e 1) : Nat)
  if bit n 31 then -v else v

def State.filt (s : State) (c : Nat) : Filt := mgetD s.lh.filt c ⟨[], 0, false, false, false, false⟩

/-- A channel's filtered value in its unit: scale × code + offset through its fused calibration (R456). -/
def State.channelValue (s : State) (c : Nat) : Rat :=
  f32ToRat (s.get 0x9010 (c + 1)) * ((s.filt c).y : Rat) / 256 + f32ToRat (s.get 0x9011 (c + 1))

def State.hotter (s : State) (c : Nat) (t : Rat) : Bool := (s.filt c).sampled && decide (t < s.channelValue c)

/-- A member of CONVERTER_CONTROL as it stood when the present round started (R473). -/
def State.convCtl (s : State) (m : Nat) : Nat := mgetD s.lh.control m (s.get 0x9000 m)

/-! ## Sequences (R461) -/

/-- The members of a converter's sequence, up to the first with ENABLE 0, read by fuel. -/
def seqGo (s : State) (idx : Nat) : Nat → Nat → List Nat
  | 0, _ => []
  | n + 1, sub => let m := s.get idx sub; if bit m 15 then m :: seqGo s idx n (sub + 1) else []

def State.sequence (s : State) (conv : Nat) : List Nat := seqGo s (0x9020 + conv) 64 1

/-- AUX and SLEEP run at the sleep rate (R454). -/
def State.sleepRate (s : State) : Bool := s.power.pst = .aux || s.power.pst = .sleep

/-- The channels of a fixed thermal rule (R467). -/
def tripRange (r : Nat) : List Nat :=
  if r = 0 then List.range 16 else if r = 1 then (List.range 16).map (· + 16) else (List.range 8).map (· + 32)

/-- Channels a converter converts in a round that starts now. -/
def State.roundOf (s : State) (conv : Nat) : List Nat :=
  let ms := (s.sequence conv).filter (fun m => !s.sleepRate || bit m 14)
  ms.map (fun m => bits m 5 0)

/-- A plausibility check is due (R460): never while a converter is disabled; at the sleep rate every round; otherwise
every PLAUS_PERIOD_MS, and at the round after a first mismatch. -/
def State.plausDue (s : State) : Bool :=
  !s.lh.conv0.disabled && !s.lh.conv1.disabled &&
  (s.sleepRate || s.lh.mismatches == 1 ||
    match s.lh.lastPlaus with
    | none => true
    | some t => decide (t + s.get 0x9000 6 * 1000000 ≤ s.timer))

def State.setConv (s : State) (conv : Nat) (c : Conv) : State :=
  if conv = 0 then { s with lh := { s.lh with conv0 := c } } else { s with lh := { s.lh with conv1 := c } }
def State.conv (s : State) (conv : Nat) : Conv := if conv = 0 then s.lh.conv0 else s.lh.conv1

/-- Channels no sequence converts read as not sampled (R462). -/
def Filt.unsample (f : Filt) : Filt := { f with sampled := false, hi := false, lo := false }

/-- A round starts (R461, R460, R467). -/
def State.startRound (s : State) : State :=
  let extra := (s.lh.trip.flatMap tripRange)
  let l0 := s.roundOf 0
  let l1 := s.roundOf 1
  let l0 := l0 ++ extra.filter (fun c => !l0.contains c && !l1.contains c)
  let due := s.plausDue
  let head := if due then [51] else []
  let (a, b) := if s.lh.conv0.disabled then ([], l1 ++ l0) else if s.lh.conv1.disabled then (l0 ++ l1, []) else (head ++ l0, head ++ l1)
  let listed := (s.sequence 0 ++ s.sequence 1).map (fun m => bits m 5 0)
  { s with lh := { s.lh with
      conv0 := { s.lh.conv0 with todo := a }, conv1 := { s.lh.conv1 with todo := b },
      plaus := if due then some (none, none) else none,
      lastPlaus := if due then some s.timer else s.lh.lastPlaus,
      overrunInRound := false, roundOpen := true,
      control := (List.range 8).map (fun m => (m + 1, s.get 0x9000 (m + 1))),
      filt := s.lh.filt.map (fun (e : Nat × Filt) => if listed.contains e.1 || extra.contains e.1 then e else (e.1, e.2.unsample)) } }

def execSequencerRound (s : State) : Host.Outcome State Fault Refusal :=
  .next (if s.power.pst = .off ∨ s.lh.conv0.todo ≠ [] ∨ s.lh.conv1.todo ≠ [] then s else s.startRound)

/-! ## Filters (R463) -/

/-- The median of three. -/
def median3 (a b c : Int) : Int := max (min a b) (min (max a b) c)

/-- One result through a channel's filter. -/
def filterTake (s : State) (c : Nat) (x : Int) : Filt :=
  let f := s.filt c
  let mode := s.get (0x9100 + c) 1
  let k := s.get (0x9100 + c) 2
  let f := if f.resetPending || !f.sampled then { f with recent := [] } else f
  let fresh := f.recent.isEmpty
  let recent := (x :: f.recent).take 3
  let x' := match recent with
    | [a, b, d] => if bit mode 0 then median3 a b d else x
    | _ => x
  let y := if bit mode 1 && !fresh then f.y + (256 * x' - f.y) / (2 ^ k : Nat) else 256 * x'
  let hiT := toSigned 16 (s.get (0x9100 + c) 3)
  let loT := toSigned 16 (s.get (0x9100 + c) 5)
  let hi := if 256 * hiT < y then true else if y < 256 * (hiT - s.get (0x9100 + c) 4) then false else f.hi
  let lo := if y < 256 * loT then true else if 256 * (loT + s.get (0x9100 + c) 6) < y then false else f.lo
  { recent := recent, y := y, hi := hi, lo := lo, sampled := true, resetPending := false }

def State.applyFilter (s : State) (c : Nat) (x : Int) : State := { s with lh := { s.lh with filt := mset s.lh.filt c (filterTake s c x) } }

/-! ## Results (R458, R459) -/

def differential (c : Nat) : Bool := decide (52 ≤ c ∧ c ≤ 59)

/-- The 16 bits a data register shows (R458). -/
def alignedCode (left : Bool) (code : Int) : Nat := if left then ofSigned 16 (code * 16) else ofSigned 16 code

def dataReg (ovr valid : Bool) (ch : Nat) (v : Nat) : Nat :=
  (if ovr then 2 ^ 31 else 0) + (if valid then 2 ^ 30 else 0) + ch * 2 ^ 24 + v

/-- A converter is disabled until the next power-on or reset (R460). -/
def State.disableConv (s : State) (conv : Nat) : State :=
  let s := s.put 0x9000 9 (2 + conv)
  let c := s.conv conv
  let o := s.conv (1 - conv)
  (s.setConv conv ⟨true, []⟩).setConv (1 - conv) { o with todo := o.todo ++ c.todo }

/-- The two band-gap results are compared (R460). -/
def State.judgePlaus (s : State) (c0 c1 : Int) : State :=
  let s := { s with lh := { s.lh with plaus := none } }
  let tol := s.convCtl 8
  let out (c : Int) : Bool := decide (c < 1966 - tol ∨ 1966 + tol < c)
  if (c0 - c1).natAbs ≤ s.convCtl 7 then
    let s := { s with lh := { s.lh with mismatches := 0, cleans := s.lh.cleans + 1 } }
    if 3 ≤ s.lh.cleans then s.put 0x9000 9 0 else s
  else
    let s := { s with lh := { s.lh with mismatches := s.lh.mismatches + 1, cleans := 0 } }
    if s.lh.mismatches ≤ 1 then (s.put 0x9000 9 1).logEv (pkgEv 0x8101 note)
    else if out c0 && !out c1 then (s.disableConv 0).logEv (pkgEv 0x8103 warning [0])
    else if out c1 && !out c0 then (s.disableConv 1).logEv (pkgEv 0x8103 warning [1])
    else if s.get 0x9000 9 = 4 then s
    else (s.put 0x9000 9 4).logEv (pkgEv 0x8102 warning)

/-- A result lands in the data register; the filter engine takes it in both modes (R459). -/
def State.landResult (s : State) (conv ch : Nat) (code : Int) : State :=
  let idx := 0x9001 + conv
  let direct := s.convCtl (1 + conv) == 1
  let wasValid := bit (s.get idx 0) 30
  let v := alignedCode (bit (s.convCtl 3) conv) code
  let s := if direct && wasValid then
      let s := (s.count 0x9000 10 32 1).logEvery 1000000000 (pkgEv 0x8104 note [BitVec.ofNat 8 conv])
      { s with lh := { s.lh with overrunInRound := true } }
    else s
  let s := s.put idx 0 (dataReg (direct && wasValid) direct ch v)
  let s := s.applyFilter ch code
  if !direct && wasValid then (s.disableConv conv).logHard (pkgEv 0x8109 deviceFault [BitVec.ofNat 8 conv]) else s

/-! ## Rules (R464 to R467) -/

def State.ruleWord (s : State) (r : Nat) : Nat := s.get (0x9200 + r) 0
def ruleFirst (w : Nat) : Nat := bits w 63 58
def ruleLast (w : Nat) : Nat := bits w 57 52
def ruleSource (w : Nat) : Nat := bits w 51 48
def ruleHold (w : Nat) : Nat := bits w 47 32
def ruleAction (w : Nat) : Nat := bits w 31 29
def ruleAlert (w : Nat) : Bool := bit w 28
def ruleSeverity (w : Nat) : Nat := bits w 27 26
def ruleArg (w : Nat) : Nat := bits w 15 0

def ruleChannels (w : Nat) : List Nat := (List.range (ruleLast w + 1 - ruleFirst w)).map (· + ruleFirst w)

/-- Channels of a rule that are in the state its source tests. -/
def State.ruleHits (s : State) (w : Nat) : List Nat :=
  (ruleChannels w).filter (fun c => if ruleSource w = 1 then (s.filt c).hi else if ruleSource w = 2 then (s.filt c).lo else false)

/-- Whether a rule's source is true at a round's end. -/
def State.ruleTrue (s : State) (r : Nat) : Bool :=
  let w := s.ruleWord r
  if r < 3 then (tripRange r).any (fun c => s.hotter c 95)
  else match ruleSource w with
    | 1 | 2 => !(s.ruleHits w).isEmpty
    | 3 => s.get 0x9000 9 == 4
    | 4 => s.lh.overrunInRound
    | 5 => decide (64 * bits w 25 16 ≤ s.get 0x9500 1)
    | _ => false

def State.ruleSt (s : State) (r : Nat) : RuleSt := mgetD s.lh.rules r ⟨none, false⟩

/-- The hold of a rule at a round's end (R465). -/
def State.ruleNext (s : State) (r : Nat) : RuleSt :=
  if s.ruleTrue r then
    let t0 := ((s.ruleSt r).since).getD s.timer
    ⟨some t0, (s.ruleSt r).holding || decide (t0 + ruleHold (s.ruleWord r) * 100000 ≤ s.timer)⟩
  else ⟨none, false⟩

/-- Wake requested by a rule (R465, R509). -/
def State.ruleWake (s : State) : State :=
  let s := if s.power.pst = .nap then s.napWake else if s.power.pst = .sleep then s.startBoot true else s
  let one (s : State) (p : Nat) : State := if s.linkUp p then s else s.setHl p { s.hl p with wakeN := true }
  one (one s 0) 1

/-- A rule shuts the package down: AUX with 0x8107, AUTO_START ignored until a START over ODP (R465, R487). -/
def State.ruleShutdown (s : State) (r : Nat) : State :=
  let s := if r < 3 then { s with lh := { s.lh with trip := if s.lh.trip.contains r then s.lh.trip else r :: s.lh.trip } } else s
  if s.power.pst = .aux then s
  else
    let s := s.fallTo .aux 0x8107
    ({ s with power := { s.power with autoBlocked := true } }).logHard (pkgEv 0x8107 deviceFault [BitVec.ofNat 8 r])

/-- The action of a rule that starts to hold. -/
def State.ruleAct (s : State) (shutting : Bool) (r : Nat) : State :=
  let w := s.ruleWord r
  match ruleAction w with
  | 0 => s.logEv (pkgEv 0x8105 (ruleSeverity w) [BitVec.ofNat 8 r, BitVec.ofNat 8 ((s.ruleHits w).headD 0)])
  | 1 => if shutting then s else s.ruleWake
  | 2 => s.logEv (pkgEv 0x8106 note [BitVec.ofNat 8 r])
  | 3 => s
  | _ => s.ruleShutdown r

/-- Rules are evaluated in ascending order at the end of a round; shut down prevails over wake (R465, R466). -/
def State.evalRules (s : State) : State :=
  let active := (List.range 64).filter (fun r => decide (r < 5) || ruleSource (s.ruleWord r) != 0)
  let next := active.map (fun r => (r, s.ruleNext r))
  let starting := active.filter (fun r => (s.ruleNext r).holding && !(s.ruleSt r).holding)
  let shutting := starting.any (fun r => ruleAction (s.ruleWord r) == 4)
  let s := { s with lh := { s.lh with rules := next.filter (fun e => e.2 != (⟨none, false⟩ : RuleSt)),
                                      alert := next.any (fun e => e.2.holding && ruleAlert (s.ruleWord e.1)) } }
  let s := starting.foldl (fun s r => s.ruleAct shutting r) s
  -- THERMTRIP_N is released once every channel of the range that fired reads below 85.0 °C (R467).
  { s with lh := { s.lh with trip := s.lh.trip.filter (fun r =>
      !(tripRange r).all (fun c => decide (s.channelValue c < 85))) } }

/-- The lowest clock cap of the holding throttle rules on a die (R465, R466). -/
def State.ruleCap (s : State) (die : Nat) : Nat :=
  (List.range 64).foldl (fun m r =>
    let w := s.ruleWord r
    if (s.ruleSt r).holding && ruleAction w == 2 then
      (if ruleSource w = 1 ∨ ruleSource w = 2 then
        (if (s.ruleHits w).contains die || (s.ruleHits w).contains (16 + die) then min m (ruleArg w) else m)
       else min m (ruleArg w))
    else m) 1600

/-! ## A conversion ends -/

def State.endRound (s : State) : State :=
  if s.lh.roundOpen ∧ s.lh.conv0.todo = [] ∧ s.lh.conv1.todo = [] then
    ({ s with lh := { s.lh with roundOpen := false } }).evalRules
  else s

/-- The band-gap pair of a plausibility check as its results land. -/
def State.plausTake (s : State) (conv ch : Nat) (code : Int) : State :=
  match s.lh.plaus with
  | none => s
  | some (a, b) =>
    if ch ≠ 51 then s
    else
      let a' := if conv = 0 && a.isNone then some code else a
      let b' := if conv = 1 && b.isNone then some code else b
      match a', b' with
      | some x, some y => s.judgePlaus x y
      | _, _ => { s with lh := { s.lh with plaus := some (a', b') } }

/-- The conversion at the head of a converter's round ends with a code. -/
def State.conversion (s : State) (conv : Nat) (code : Int) : State :=
  match (s.conv conv).todo with
  | [] => s
  | ch :: rest =>
    let s := s.setConv conv { s.conv conv with todo := rest }
    ((s.landResult conv ch code).plausTake conv ch code).endRound

/-! ## Reads and writes -/

def execAdcDataRead (src : Src) (conv : Fin 2) (s : State) : Host.Outcome State Fault Refusal :=
  let idx := 0x9001 + conv.val
  .next (match src with
    | .win p =>
      if !s.windowReady p.val then s.emit (.winData p.val (List.replicate 4 0xFF))
      else match s.readAccess src idx 0 with
        | .error c => (s.refuse src idx 0 c).emit (.winData p.val (List.replicate 4 0xFF))
        | .ok _ =>
          let v := s.get idx 0
          (s.put idx 0 (bits v 29 0)).emit (.winData p.val (leBytes 4 v))
    | .odp =>
      if s.power.pst = .off then s
      else match s.readAccess src idx 0 with
        | .error c => s.refuse src idx 0 c
        | .ok _ =>
          let v := s.get idx 0
          (s.put idx 0 (bits v 29 0)).emit (.readData src (leBytes 4 v)))

/-- The effect of a write to a filter member (R463): a new mode or shift resets the filter at the next result. -/
def State.filterEff (s : State) (ch member v : Nat) : State :=
  let s := s.put (0x9100 + ch) member v
  if member ≤ 2 then { s with lh := { s.lh with filt := mset s.lh.filt ch { s.filt ch with resetPending := true } } } else s

def execFilterWrite (src : Src) (ch : Fin 64) (member value : Nat) (s : State) : Host.Outcome State Fault Refusal :=
  .next (s.guarded src (0x9100 + ch.val) member (leBytes (if member ≤ 2 then 1 else 2) value)
    (fun v s => .ok (s.filterEff ch.val member v)))

/-- The effect of a write to a rule (R466): a rule that holds is released, and PKG_ALERT_N stays for the others (R464). -/
def State.ruleEff (s : State) (r v : Nat) : State :=
  let s := s.put (0x9200 + r) 0 v
  let rest := merase s.lh.rules r
  { s with lh := { s.lh with rules := rest, alert := rest.any (fun e => e.2.holding && ruleAlert (s.ruleWord e.1)) } }

def execRuleWrite (src : Src) (rule : Fin 64) (value : Nat) (s : State) : Host.Outcome State Fault Refusal :=
  .next (s.guarded src (0x9200 + rule.val) 0 (leBytes 8 value) (fun v s => .ok (s.ruleEff rule.val v)))

def execOscRecalibration (s : State) : Host.Outcome State Fault Refusal :=
  .next (if s.power.mref ∧ s.power.pst ≠ .off then { s with lh := { s.lh with trimmed := true } } else s)

/-! ## Decay and the risk terms (R471) -/

/-- ⌊2^64 × 2^(−2^−i)⌋ for i = 1 to 48. -/
def halvings : List Nat := [
  0xB504F333F9DE6484, 0xD744FCCAD69D6AF4, 0xEAC0C6E7DD24392E, 0xF5257D152486CC2C,
  0xFA83B2DB722A033A, 0xFD3E0C0CF486C174, 0xFE9E115C7B8F884B, 0xFF4ECB59511EC8A5,
  0xFFA756521C8DAED1, 0xFFD3A751C0F7E10B, 0xFFE9D2B2F7DB2755, 0xFFF4E91BFF1B8C3D,
  0xFFFA747EA0040664, 0xFFFD3A3B7814EB53, 0xFFFE9D1CC60DDAB1, 0xFFFF4E8E25879BFA,
  0xFFFFA7470363F451, 0xFFFFD3A37DDA0313, 0xFFFFE9D1BDF703AE, 0xFFFFF4E8DEBE025E,
  0xFFFFFA746F4FA150, 0xFFFFFD3A37A3F8B0, 0xFFFFFE9D1BD1065A, 0xFFFFFF4E8DE845AD,
  0xFFFFFFA746F41376, 0xFFFFFFD3A37A05E3, 0xFFFFFFE9D1BD01FB, 0xFFFFFFF4E8DE80C0,
  0xFFFFFFFA746F4050, 0xFFFFFFFD3A37A024, 0xFFFFFFFE9D1BD011, 0xFFFFFFFF4E8DE808,
  0xFFFFFFFFA746F404, 0xFFFFFFFFD3A37A02, 0xFFFFFFFFE9D1BD01, 0xFFFFFFFFF4E8DE80,
  0xFFFFFFFFFA746F40, 0xFFFFFFFFFD3A37A0, 0xFFFFFFFFFE9D1BD0, 0xFFFFFFFFFF4E8DE8,
  0xFFFFFFFFFFA746F4, 0xFFFFFFFFFFD3A37A, 0xFFFFFFFFFFE9D1BD, 0xFFFFFFFFFFF4E8DE,
  0xFFFFFFFFFFFA746F, 0xFFFFFFFFFFFD3A37, 0xFFFFFFFFFFFE9D1B, 0xFFFFFFFFFFFF4E8D]

/-- 2^(−a/h) to 48 binary places of the exponent, in units of 2^−64 (log 20). -/
def decay64 (a h : Nat) : Nat :=
  if h = 0 then 0 else
  let whole := a / h
  let frac := (a % h) * 2 ^ 48 / h
  let f := halvings.zipIdx.foldl (fun acc p => if frac.testBit (47 - p.2) then acc * p.1 / 2 ^ 64 else acc) (2 ^ 64)
  f / 2 ^ whole

/-- The decaying accumulators brought to the present. -/
def State.riskDecay (s : State) : State :=
  let f : Rat := (decay64 (s.timer - s.lh.riskAt) (s.get 0x9500 14 * 1000000000) : Rat) / (2 ^ 64 : Nat)
  { s with lh := { s.lh with riskE := s.lh.riskE * f, riskK := s.lh.riskK * f, riskAt := s.timer } }

/-- A detected data error or a corrected DRAM error adds its weight to E, a link retrain to K. -/
def State.riskAddE (s : State) (w : Nat) : State :=
  let s := s.riskDecay
  { s with lh := { s.lh with riskE := s.lh.riskE + (w : Rat) } }
def State.riskAddK (s : State) (w : Nat) : State :=
  let s := s.riskDecay
  { s with lh := { s.lh with riskK := s.lh.riskK + (w : Rat) } }

/-- The hottest filtered compute-die diode, °C; 0 while none is sampled. -/
def State.hottest (s : State) : Rat :=
  ((List.range 16).filter (fun c => (s.filt c).sampled)).foldl (fun m c => max m (s.channelValue c)) 0

/-- RISK and its terms are recomputed. -/
def State.riskCompute (s : State) : State :=
  let s := s.riskDecay
  let cap := s.get 0x9500 15
  let trunc (x : Rat) : Nat := x.floor.toNat
  let t := min cap (trunc ((s.get 0x9500 8 : Rat) * max 0 (s.hottest - (s.get 0x9500 7 : Rat))))
  let e := min cap (trunc s.lh.riskE)
  let k := min cap (trunc s.lh.riskK)
  let hz := s.get 0x9500 12
  let a := min (s.get 0x9500 13) (s.get 0x9500 13 * (hz - s.get 0x9401 1) / hz)
  let u := min cap ((List.range 64).foldl (fun m r =>
    if (s.ruleSt r).holding && ruleAction (s.ruleWord r) == 3 then m + ruleArg (s.ruleWord r) else m) 0)
  (((((s.put 0x9500 2 t).put 0x9500 3 e).put 0x9500 4 k).put 0x9500 5 a).put 0x9500 6 u).put 0x9500 1 (min 65535 (t + e + k + a + u))

end Sys2Proof.Machine
end

