-- ==== Sys2Proof/Machine/Engine.lean ====
section
/-! DEFINITION. What every task shares: job faults and data errors, status words, aborts and cancellations, bollards and grants, ferry slots, and the run of a task on its tile (R289 to R313, R340, R421 to R429). -/

namespace Sys2Proof.Machine

/-! ## Places in State -/

def State.tile (s : State) (t : Nat) : Tile := mgetD s.tiles t Tile.empty
def State.setTile (s : State) (t : Nat) (x : Tile) : State := { s with tiles := mset s.tiles t x }
def State.berth (s : State) (b : Nat) : Berth := mgetD s.berths b Berth.empty
def State.setBerth (s : State) (b : Nat) (x : Berth) : State := { s with berths := mset s.berths b x }
def State.ctx (s : State) (c : Nat) : CtxSt := mgetD s.ctxs c CtxSt.empty
def State.setCtx (s : State) (c : Nat) (x : CtxSt) : State := { s with ctxs := mset s.ctxs c x }
def State.bollard (s : State) (b : Nat) : Bollard := mgetD s.bollards b ⟨0, 0, 0, []⟩
def State.setBollard (s : State) (b : Nat) (x : Bollard) : State := { s with bollards := mset s.bollards b x }
def State.stepOf (s : State) (c : Nat) : Nat := s.get 0x4001 (c + 1)
def State.epochOf (s : State) (c : Nat) : Nat := s.get 0x4002 (c + 1)
def State.attemptOf (s : State) (c : Nat) : Nat := s.get 0x4003 (c + 1)
def State.secureCtx (s : State) : Nat := s.get 0x8200 1
/-- The context of a tile under the plan (R92). -/
def State.tileCtx (s : State) (t : Nat) : Option Nat := match s.plan with
  | none => none
  | some p => p.tileCtx t
def State.berthDef (s : State) (b : Nat) : Option BerthDef := match s.plan with
  | none => none
  | some p => p.berthDef b
/-- PLAN_STATE LOADED (R82). -/
def State.loaded (s : State) : Bool := s.get 0x2400 4 == 3

/-! ## Layers (R213) -/

/-- The layer that a LAYER_ID names: its position in LAYERS and its entry. -/
def State.layerNamed (s : State) (id : Nat) : Option (Nat × LayerDef) :=
  match s.plan with
  | none => none
  | some p => p.layerById id

def State.layerOf (s : State) (k : Task) : Option (Nat × LayerDef) := s.layerNamed k.layerId

def State.layerAt (s : State) (i : Nat) : Option LayerDef := match s.plan with
  | none => none
  | some p => p.layers[i]?

def State.layer (s : State) (i : Nat) : LayerSt := mgetD s.layers i LayerSt.empty
def State.setLayer (s : State) (i : Nat) (x : LayerSt) : State := { s with layers := mset s.layers i x }

/-! ## Docks and the refit of one (R111, R154) -/

def State.dock (s : State) (d : Nat) : Dock := mgetD s.docks d Dock.empty
def State.setDock (s : State) (d : Nat) (x : Dock) : State := { s with docks := mset s.docks d x }
def State.dockRetired (s : State) (d : Nat) : Bool := (mget? s.retiredDocks d).isSome

def Task.refitFirst (k : Task) : Bool := bit (k.w 6) 58
def Task.firstRow (k : Task) : Nat := bits (k.w 6) 41 32
def Task.refitDock (k : Task) (t : Nat) : Nat := 8 * t + bits (k.w 6) 63 61
def Task.refitRows (k : Task) : List Nat := (List.range k.len0).map (· + k.firstRow)

/-- A FIRST task opens a pass, discarding one that was open, and records the layer's MASTER_VERSION (R154, R163). -/
def State.openPass (s : State) (k : Task) (d : Nat) : State :=
  let x := s.dock d
  if k.refitFirst then
    let v := match s.layerOf k with | some (i, _) => (s.layer i).version | none => 0
    s.setDock d { x with pass := some ⟨v, !x.programmed, k.ctx, k.layerId, k.addrB, [], [], false, false, [], [], none, false, false⟩ }
  else s

/-- A DOCK_REFIT task that a fault aborts, in whatever mode and wherever the fault strikes it: every row of the task becomes
suspect. The pass stays open, or is opened where the task is its FIRST and had not been handed to its dock (R154). -/
def State.refitStruck (s : State) (t : Nat) (k : Task) : State :=
  let d := k.refitDock t
  if k.opcode ≠ 0x02 ∨ s.dockRetired d then s
  else
    let s := if k.st = .handed then s else s.openPass k d
    let x := s.dock d
    s.setDock d { x with suspect := x.suspect ++ k.refitRows.filter (fun r => !x.suspect.contains r) }

/-! ## Faults of a context (R332, R340, R352, R426) -/

/-- What the fault record takes of a fault. -/
structure FaultAt where
  va : Nat := 0
  level : Nat := 0
  write : Bool := false
  tile : Nat := 0xFFF
  opcode : Nat := 0
  noTask : Bool := false
  deriving DecidableEq, Repr

def FaultAt.info (f : FaultAt) : Nat :=
  f.tile % 4096 * 2 ^ 20 + f.level % 4 * 2 ^ 18 + (if f.write then 2 ^ 17 else 0) + (if f.noTask then 2 ^ 16 else 0)
    + f.opcode % 256 * 2 ^ 8

/-- The fault record: the first fault since RESUME fills it, every one is counted. -/
def State.recordFault (s : State) (c code : Nat) (f : FaultAt) : State :=
  let s := if s.get (ctxIdx c) 7 = 0 then
      ((s.put (ctxIdx c) 4 code).put (ctxIdx c) 5 f.va).put (ctxIdx c) 6 f.info
    else s
  s.count (ctxIdx c) 7 32 1

/-- The transfers of an abandoned copy serve it no more: those of its tasks are the tasks' own. -/
def XOwner.orphan : XOwner → XOwner
  | .chunk _ t id => .task t id
  | .header => .device
  | .commit => .device
  | o => o

/-- An open copy is abandoned: no commit, the swap runs, LOCAL_VALID is cleared (R441). A copy whose commit record is not yet
acknowledged is still open. -/
def State.abandonCopy (s : State) : State :=
  match s.secure.copy with
  | none => s
  | some cp =>
    if cp.swapping && (!cp.committed || cp.stage == 4) then s
    else
      let s := { s with fabric := { s.fabric with xfers := s.fabric.xfers.map (fun (e : Nat × Xfer) => (e.1, { e.2 with owner := e.2.owner.orphan })) } }
      let s := { s with secure := { s.secure with copy := some { cp with swapping := true, committed := false } } }
      let s := ((s.put 0x8201 3 2).put 0x8201 6 0).count 0x8220 6 64 1
      s.logEv { code := 0x700E, severity := warning, kind := 9, id := s.secureCtx, ctx := s.secureCtx,
                step := s.stepOf s.secureCtx, epoch := s.epochOf s.secureCtx, detail := [0, 0] ++ leBytes 8 cp.seq }

/-- A job fault: logged and sent, recorded, and the context enters FAULTED from RUNNING or HALTING (R330, R426). -/
def State.jobFault (s : State) (c code kind id : Nat) (f : FaultAt) (detail : List Byte) : State :=
  let s := s.logEv { s.ctxEv c code Sys2Proof.Machine.jobFault kind id detail with force := true }
  let s := (s.count 0x8220 4 64 1).recordFault c code f
  let s := if s.ctxState c = 2 ∨ s.ctxState c = 4 then s.put (ctxIdx c) 2 3 else s
  if c = s.secureCtx then s.abandonCopy else s

/-- A translation fault (R340). One that serves no task makes even a halted context FAULTED. -/
def State.transFault (s : State) (c code : Nat) (f : FaultAt) : State :=
  let s := (s.count 0x3020 2 64 1).jobFault c code 9 c f ([0, 0] ++ leBytes 6 f.va)
  if f.noTask ∧ s.ctxState c = 1 then s.put (ctxIdx c) 2 3 else s

/-! ## Detected data errors (R421 to R429) -/

/-- A tile is retired: its logical index reads retired until the next substitution pass (R28). -/
def State.retireTile (s : State) (t : Nat) : State :=
  let k := key (0x2100 + t / 144) (t % 144 + 1)
  s.putK k (setBits (s.getK k) 23 20 3)

/-- A dock is retired (R160, R428). -/
def State.retireDock (s : State) (d : Nat) : State :=
  if (mget? s.retiredDocks d).isSome then s
  else
    let s := { s with retiredDocks := mset s.retiredDocks d 1 }
    let n := satAdd 16 (s.get 0x2000 5) 1
    { (s.put 0x2000 5 n) with store := { s.store with devRec := mset s.store.devRec (key 0x2000 5) n } }

def State.failPort (s : State) (p : Nat) : State := { s with failedPorts := mset s.failedPorts p 1 }

/-- The place of an error is permanently faulty: the action of R428, and the job faults. -/
def State.permanentFault (s : State) (c : Nat) (e : DataErr) (f : FaultAt) : State :=
  let s := s.count 0x8220 3 64 1
  let s := e.ids.foldl (fun s i =>
    if e.kind = 2 then s.retireTile i else if e.kind = 3 then s.retireDock i else if e.kind = 6 then s.failPort i else s) s
  let detail := [0, 0] ++ leBytes 2 e.code
  if e.kind = 2 ∨ e.kind = 3 then s.jobFault c 0x7007 e.kind (e.ids.headD 0) f detail
  else
    let s := s.logEv { s.ctxEv c 0x7016 deviceFault e.kind (e.ids.headD 0) detail with force := true }
    let s := (s.count 0x8220 4 64 1).recordFault c 0x7016 f
    let s := if s.ctxState c = 2 ∨ s.ctxState c = 4 then s.put (ctxIdx c) 2 3 else s
    if c = s.secureCtx then s.abandonCopy else s

/-- A tally of the context is under diagnosis (R423). -/
def State.diagnosing (s : State) (c : Nat) : Bool := s.tallies.any (fun e => e.1 / 64 == c && e.2.diag)

/-- The context's berths stop once every diagnosis has concluded (R423, R233). -/
def State.maybeStop (s : State) (c : Nat) : State :=
  if ((s.ctx c).errs ≠ [] ∨ (s.ctx c).tripReplay = true) ∧ !s.diagnosing c then s.setCtx c { s.ctx c with replaying := true } else s

/-- Manifest addresses that a step's log holds (R233). -/
def manLogMax : Nat := 65536

/-- A detected data error asks for a replay: a recurrence at its place is permanent (R429); a third replay, or one after
the manifest log has overflowed, is a job fault (R423). The berths stop where `maybeStop` follows. -/
def State.wantReplay (s : State) (c : Nat) (e : DataErr) (f : FaultAt) : State :=
  let x := s.ctx c
  if x.prior.any (fun p => p.kind == e.kind && p.ids.any (fun i => e.ids.contains i)) then s.permanentFault c e f
  else if 2 ≤ x.replays ∨ manLogMax < x.manLog then s.jobFault c 0x7005 9 c f []
  else s.setCtx c { x with errs := x.errs ++ [e] }

/-- A detected data error counts, and weighs into the risk (R452, R471). -/
def State.countError (s : State) : State := (s.count 0x8220 1 64 1).riskAddE (s.get 0x9500 9)

/-- A data error that is not a tally's: logged with its place, counted, weighed into the risk, and recovered. -/
def State.dataError (s : State) (c : Nat) (e : DataErr) (f : FaultAt) (detail : List Byte := []) : State :=
  let s := s.logEv (s.ctxEv c e.code warning e.kind (e.ids.headD 0) detail)
  s.countError.wantReplay c e f

/-- The task at the position that detected an error completes in the following attempt: transient (R429). -/
def State.judgeTransient (s : State) (c berth man slot : Nat) : State :=
  let x := s.ctx c
  let hit (e : DataErr) : Bool := e.berth == berth && e.man == man && e.slot == slot && e.code != 0x7105
  let s := (x.prior.filter hit).foldl (fun s e =>
    (s.count 0x8220 2 64 1).logEv (s.ctxEv c 0x7006 note e.kind (e.ids.headD 0) ([0, 0] ++ leBytes 2 e.code))) s
  s.setCtx c { s.ctx c with prior := x.prior.filter (fun e => !hit e) }

/-! ## Snoops of lines an engine needs (R511) -/

/-- Ask for lines that a host holds; a line that is already being snooped is not asked for again. -/
def State.snoopHeld (s : State) (ls : List (Nat × Nat)) : State :=
  let fresh := ls.filter (fun e => mgetD (s.hl e.1).filter e.2 0 != 3)
  let s := s.sendSnoops fresh
  fresh.foldl (fun s e => s.setHl e.1 { s.hl e.1 with filter := mset (s.hl e.1).filter e.2 3 }) s

/-- Drop lines from the filters: the device has taken them. -/
def State.takeLines (s : State) (ls : List (Nat × Nat)) : State :=
  ls.foldl (fun s e => s.setHl e.1 { s.hl e.1 with filter := merase (s.hl e.1).filter e.2 }) (s.sendSnoops ls)

/-- A write that is made whatever a host holds: lines held are snooped and taken within the write (log 17). -/
def State.writeNowGo (s : State) (tile : Option Nat) (c va : Nat) (bs : List Byte) : Nat → Except AccFault (List (Nat × Nat) × State)
  | 0 => s.writeVa tile c va bs
  | n + 1 => match s.writeVa tile c va bs with
    | .error (.stall ls) => (s.takeLines ls).writeNowGo tile c va bs n
    | r => r

def State.writeNow (s : State) (tile : Option Nat) (c va : Nat) (bs : List Byte) : Except AccFault (List (Nat × Nat) × State) :=
  s.writeNowGo tile c va bs (bs.length / 4096 + 2)

/-- A read that is answered whatever a host holds: lines that may be modified are snooped and taken within it. -/
def State.readNowGo (s : State) (tile : Option Nat) (c va n : Nat) : Nat → Except AccFault (List Byte × State)
  | 0 => s.readVa tile c va n
  | k + 1 => match s.readVa tile c va n with
    | .error (.stall ls) => (s.takeLines ls).readNowGo tile c va n k
    | r => r

def State.readNow (s : State) (tile : Option Nat) (c va n : Nat) : Except AccFault (List Byte × State) :=
  s.readNowGo tile c va n (n / 4096 + 2)

/-- An access that lacks its permission still caches the leaf it walked to (R338). -/
def State.noteLeaf (s : State) (t c va : Nat) : State :=
  match s.lookup (some t) c (s.redirect c va false) false with
  | .ok (_, s) => s
  | .error _ => s.count 0x3020 1 64 1

/-- The first address of each 64 KiB page that ranges touch, in order. -/
def pagesOf (rs : List (Nat × Nat)) : List Nat :=
  rs.flatMap (fun r => if r.2 = 0 then [] else
    (List.range ((r.1 + r.2 - 1) / 65536 + 1 - r.1 / 65536)).map (fun i => max r.1 ((r.1 / 65536 + i) * 65536)))

/-- The leaves that a task's accesses fetched before one of them stopped it stay cached, and their walks counted (R338, R355).
The manual gives no order among a task's accesses: the model takes its operands in the order of `uses` (DESIGN CHOICE, log 73). -/
def State.noteUses (s : State) (t c : Nat) (uses : List (Nat × Nat)) (stop : Nat → Bool) : State :=
  let ps := pagesOf uses
  if ps.any stop then (ps.takeWhile (fun p => !stop p)).foldl (fun s p => s.noteLeaf t c p) s else s

/-- What a fault at a place leaves in the tile's TLB. -/
def State.noteFault (s : State) (t c : Nat) (uses : List (Nat × Nat)) (f : AccFault) : State :=
  match f with
  | .trans _ va _ _ => (s.noteUses t c uses (fun p => p / 65536 == va / 65536)).noteLeaf t c va
  | .noTask _ va _ _ => s.noteLeaf t c va
  | .data pa _ => s.noteUses t c uses (fun p => match s.leafOf (some t) c (s.redirect c p false) with
      | some e => decide (e.pa ≤ pa ∧ pa < e.pa + 2 ^ e.sizeBits)
      | none => false)
  | _ => s

/-- A task as it is validated. -/
def Task.fresh (id : Nat) (words : List Nat) (berth man manVa slot : Nat) : Task :=
  { id := id, words := words, berth := berth, man := man, manVa := manVa, slot := slot, st := .waiting, noop := false, gate := 0, gateSeq := 0,
    units := 0, worked := false, outstanding := 0, unanswered := [], written := [], endState := 1, code := 0, status := 0,
    slotsRead := [], chainLoad := none, overlaps := none, follows := none, frame := none, uses := [], unissued := 0, issued := false,
    sample := none, express := false, landing := none, alt := false, cap := none }

/-! ## Ends of tasks (R293, R298, R299, R514) -/

def Task.va (k : Task) : Nat := k.manVa + 0x1000 + 8 * k.slot

/-- The status word (R293). -/
def State.statusWord (s : State) (k : Task) : Nat :=
  k.code % 65536 * 2 ^ 48 + s.attemptOf k.ctx % 256 * 2 ^ 32 + k.endState % 256 * 2 ^ 24 + k.status % 65536

/-- The status word is written; a fault on the way is a job fault of the context that aborts no task (R292, R340). -/
def State.writeStatus (s : State) (t : Nat) (k : Task) : State :=
  match s.writeNow (some t) k.ctx k.va (leBytes 8 (s.statusWord k)) with
  | .ok (_, s) => s
  | .error (.trans code va level w) =>
    (s.noteLeaf t k.ctx va).transFault k.ctx code { va := va, level := level, write := w, tile := t, noTask := true }
  | .error _ => s

/-- The completion notice of a task with NOTIFY (R514). -/
def State.noticeOf (s : State) (k : Task) : List Byte :=
  leBytes 2 k.berth ++ leBytes 1 k.slot ++ leBytes 1 k.endState ++ leBytes 2 k.code ++ leBytes 1 k.ctx ++ [0]
    ++ leBytes 4 (s.stepOf k.ctx) ++ leBytes 2 k.status ++ leBytes 1 (s.attemptOf k.ctx) ++ [0]

/-- The books of an end: status word, counters, the berth's fields, the position for a replay, the notice. -/
def State.bookEnd (s : State) (t : Nat) (k : Task) : State :=
  let s := s.writeStatus t k
  let s := s.count 0x4030 3 64 1
  let s := if k.endState = 2 then s.count 0x4030 4 64 1 else if k.endState = 5 then s.count 0x4030 5 64 1
    else if k.endState = 6 then s.count 0x4030 6 64 1 else s
  let b := s.berth k.berth
  let done := (k.man * 64 + k.slot, s.attemptOf k.ctx)
  let s := s.setBerth k.berth { b with
    ended := (b.ended + 1) % 2 ^ 32, lastCode := if k.code = 0 then b.lastCode else k.code,
    completed := if k.endState = 1 ∨ k.endState = 2 then
        (if b.completed.any (fun e => e.1 == done.1) then b.completed else b.completed ++ [done])
      else b.completed }
  if k.notify then s.notice16 (s.noticeOf k) else s

/-- Whether a task of a manifest is still under way: taken, waiting, or not yet taken. -/
def State.manBusy (s : State) (t b no : Nat) : Bool :=
  (s.tile t).tasks.any (fun k => k.berth == b && k.man == no)
  || (match (s.berth b).waiting with | some k => k.man == no | none => false)
  || decide ((s.berth b).curMan ≤ no)

/-- The next manifest of a berth after number no. -/
def Berth.after (b : Berth) (no : Nat) : Nat := ((b.queue.filter (fun m => decide (no < m.no))).map (·.no)).headD b.nextNo

/-- A slot is a terminator, or past slot 63 (R291). -/
def ManBuf.ends (m : ManBuf) (i : Nat) : Bool :=
  decide (64 ≤ i) || ((m.slots.getD i []).getD 0 0 == 0 && !m.poisoned.any (fun p => p / 65536 == i))

/-- A terminator, or the end of slot 63, moves a berth to its next manifest, past every empty one (R291). -/
def State.advanceGo (s : State) (t b : Nat) : Nat → State
  | 0 => s
  | n + 1 =>
    let x := s.berth b
    match (s.tile t).bufs.find? (fun m => m.berth == b && m.man == x.curMan) with
    | none => s
    | some m => if m.ends x.curSlot then (s.setBerth b { x with curMan := x.after x.curMan, curSlot := 0 }).advanceGo t b n else s

def State.advance (s : State) (t b : Nat) : State := s.advanceGo t b ((s.berth b).queue.length + 1)

/-- A buffered manifest whose slot 0 is a terminator: it finishes at once, whatever stands before it (R291). -/
def Tile.emptyMan (x : Tile) (b no : Nat) : Bool := x.bufs.any (fun m => m.berth == b && m.man == no && m.ends 0)

/-- Manifests whose last task has ended finish: they leave the berth, and their buffers are freed (R289, R292). -/
def State.finish (s : State) (t b : Nat) : State :=
  let s := s.advance t b
  let gone := ((s.berth b).queue.filter (fun m => (s.tile t).emptyMan b m.no || !s.manBusy t b m.no)).map (·.no)
  let s := s.setBerth b { s.berth b with queue := (s.berth b).queue.filter (fun m => !gone.contains m.no) }
  s.setTile t { s.tile t with bufs := (s.tile t).bufs.filter (fun m => !(m.berth == b && gone.contains m.man)) }

/-- What a push or a pop had prepared is given up, unless it completed: its reservation, its wait, and the segments that its
recompute had finished (R272). Extents of a move under way stay with the move. -/
def HoldSt.forget (h : HoldSt) : HoldSt :=
  { h with prep := none, need := 0, want := false, since := none, res2 := if h.move.isSome then h.res2 else [],
           res3 := if h.move.isSome then h.res3 else [],
           redone := match h.redo with | some r => r.before | none => h.redone, redo := none }

/-- The hold of a tile lets go of a task's preparation. -/
def State.holdForget (s : State) (t id : Nat) : State :=
  match mget? s.holds t with
  | none => s
  | some h => if h.prep = some id then { s with holds := mset s.holds t h.forget } else s

/-- The run of a task on its tile's docks ends with it (R137). -/
def State.mvmForget (s : State) (t id : Nat) : State :=
  match mget? s.mvms t with
  | none => s
  | some r => if r.task = id then { s with mvms := merase s.mvms t } else s

/-- A task leaves its tile, and what it held there is free. -/
def State.dropTask (s : State) (t : Nat) (k : Task) : State :=
  ((s.setTile t { s.tile t with tasks := (s.tile t).tasks.filter (fun x => x.id != k.id) }).holdForget t k.id).mvmForget t k.id

def State.setTask (s : State) (t : Nat) (k : Task) : State :=
  s.setTile t { s.tile t with tasks := (s.tile t).tasks.map (fun x => if x.id = k.id then k else x) }

/-- A cancelled task never starts and never signals (R299). -/
def State.cancel (s : State) (t code : Nat) (k : Task) : State :=
  let s := (s.dropTask t k).bookEnd t { k with endState := 6, code := code }
  s.finish t k.berth

/-! ## HALTING ends (R332) -/

def Task.isRunning (k : Task) : Bool :=
  k.st = .running || (k.st = .handed && k.opcode != 0x53)

def State.ctxRuns (s : State) (c : Nat) : Bool :=
  s.tiles.any (fun e => e.2.tasks.any (fun k => k.ctx == c && k.isRunning))

def State.checkHalted (s : State) (c : Nat) : State :=
  if s.ctxState c = 4 ∧ !s.ctxRuns c then s.put (ctxIdx c) 2 1 else s

/-! ## Requests to secure (R434, R435) -/

/-- The ranks of SECURE_GROUP: package indices until the first 0xFFFF (R451). -/
def State.secureGroup (s : State) : List Nat :=
  ((chunks 2 16384 (mgetD s.blobs (key 0x8203 0) [])).map ofLe).takeWhile (fun x => x != 0xFFFF)

def noTarget : Nat := 2 ^ 64 - 1

/-- The mailbox slots, of w bytes each, that hold a target, read and zeroed; slots read as long as each translates. -/
def State.readMail (s : State) (c w : Nat) : Nat → Nat → List Nat → List Nat × State
  | 0, _, acc => (acc, s)
  | n + 1, va, acc =>
    match s.readVa none c va w with
    | .error _ => (acc, s)
    | .ok (bs, s) =>
      let v := ofLe bs
      if v = 0 then s.readMail c w n (va + w) acc
      else match s.writeNow none c va (zeros w) with
        | .error _ => (acc, s)
        | .ok (_, s) => s.readMail c w n (va + w) (acc ++ [v])

/-- Take one target: one below the current step becomes the current step, with 0x7015 (R435). -/
def State.takeTarget (s : State) (c v : Nat) : State :=
  let now := s.stepOf c
  let s := if v < now then s.logEv (s.ctxEv c 0x7015 warning 9 c) else s
  let v := max v now
  if v < s.get 0x8201 2 then s.put 0x8201 2 v else s

/-- REQUEST_BOLLARD is not zero: the harbourmaster empties it and reads the mailbox (R435). -/
def State.processRequests (s : State) : State :=
  let c := s.secureCtx
  let b := s.get 0x8200 13
  if c = 0xFF ∨ (s.bollard b).count = 0 ∨ s.bollardOwner b ≠ some c then s
  else
    let s := s.setBollard b { s.bollard b with count := 0 }
    let (ts, s) := s.readMail c 8 s.secureGroup.length (s.get 0x8200 14) []
    ts.foldl (fun s v => s.takeTarget c v) s

/-! ## Bollards and grants (R305 to R308, R295, R296) -/

/-- Waits of a task: bollard and threshold; one bollard named twice counts the sum. -/
def Task.waits (k : Task) : List (Nat × Nat) :=
  let a := if k.waitThr = 0 then [] else [(k.waitBol, k.waitThr)]
  let (b2, t2) := k.wait2
  if t2 = 0 then a
  else match a with
    | [(b1, t1)] => if b1 = b2 then [(b1, t1 + t2)] else [(b1, t1), (b2, t2)]
    | _ => [(b2, t2)]

/-- Tasks of a tile that are taken and not yet started. -/
def Tile.ahead (x : Tile) : Nat := (x.tasks.filter (fun k => k.st = .taken && !k.alt)).length

/-- A tile runs a task that no pre-emption point interrupts at present. -/
def Tile.busy (x : Tile) : Bool := x.tasks.any (fun k => k.st = .running)

/-- The tiles of a context take tasks (R330, R233, R486). -/
def State.takes (s : State) (c : Nat) : Bool := s.operating && s.loaded && s.ctxState c == 2 && !(s.ctx c).replaying

/-- The wait of a berth's validated task is met, with no earlier ungranted wait on its bollards. -/
def State.waitMet (s : State) (b : Nat) (k : Task) : Bool :=
  k.waits.all (fun w => decide (w.2 ≤ (s.bollard w.1).count) && (s.bollard w.1).waits.head? == some b)

/-- Whether a berth's waiting task can be granted now: an urgent one at a pre-emption point, any other while fewer than
RUN_AHEAD tasks are taken and not started. -/
def State.canGrant (s : State) (b : Nat) : Bool :=
  match (s.berth b).waiting, s.berthDef b with
  | some k, some d =>
    s.takes k.ctx && s.waitMet b k &&
      (if k.prio = 3 then !(s.tile d.tile).busy else decide ((s.tile d.tile).ahead < s.get 0x4000 1))
  | _, _ => false

/-- Where a task enters its tile: an urgent one before every task of lower priority that has not started (R346). -/
def placeTask (k : Task) (ts : List Task) : List Task :=
  if k.prio = 3 then
    let stays (x : Task) : Bool := x.prio == 3 || (x.st != .taken && x.st != .suspended)
    ts.takeWhile stays ++ [k] ++ ts.dropWhile stays
  else ts ++ [k]

/-- Opcodes of which a layer's first task is the gate of the step (R231), and those that a skipped update stops (R235). -/
def gateOp (op : Nat) : Bool := [0x68, 0x42, 0x23].contains op
def skipOp (op : Nat) : Bool := [0x68, 0x42, 0x69, 0x6A, 0x23, 0x43].contains op

/-- The update of the step is skipped, and the task is one of those that complete as no-ops (R235). -/
def State.skips (s : State) (k : Task) : Bool :=
  (s.ctx k.ctx).skip && skipOp k.opcode && match s.layerOf k with
    | none => false
    | some (i, _) => (s.layer i).gate.isNone

/-- A task as it is taken: the first gate task of its layer becomes the gate of the step. -/
def State.gateTake (s : State) (k : Task) : Task × State :=
  match s.layerOf k with
  | none => (k, s)
  | some (i, _) =>
    let x := s.layer i
    if gateOp k.opcode ∧ !x.gateSeen then
      ({ k with gate := if x.gate.isSome || (s.ctx k.ctx).skip then 2 else 1, gateSeq := (s.ctx k.ctx).sampleSeq },
       s.setLayer i { x with gateSeen := true })
    else (k, s)

/-- A TALLY that the device has built for a tile stands there at priority 3 (R230, R346). -/
def State.tallyStands (s : State) (t : Nat) : Bool :=
  s.tallies.any (fun e => e.2.checker == t && !e.2.copying && s.ctxState (e.1 / 64) == 2)

/-- A pre-emption request stands on a tile (R346). -/
def State.requestStands (s : State) (t : Nat) : Bool := s.tallyStands t || match s.plan with
  | none => false
  | some p => p.berths.any (fun b => b.tile == t && b.prio == 3 && match (s.berth b.berth).waiting with
    | none => false
    | some k => s.takes k.ctx && s.waitMet b.berth k)

/-- The products that may overlap (R297). -/
def overlapOp (op : Nat) : Bool := [0x10, 0x11, 0x12, 0x18, 0x19].contains op

def rangesMeet (a b : List (Nat × Nat)) : Bool :=
  a.any (fun x => b.any (fun y => decide (x.1 < y.1 + y.2 ∧ y.1 < x.1 + x.2)))

/-- A task may overlap the one that started before it on the tile (R297): both are products of one berth, neither a no-op; that one is
the task taken just before it, and no request for pre-emption stands, so that nothing lies between them (DEDUCED, log 37); and no range
that it touches meets one that the earlier task writes. -/
def State.overlapMet (s : State) (t : Nat) (k : Task) (touched : List (Nat × Nat)) : Bool :=
  k.overlap && !k.noop && overlapOp k.opcode && match (s.tile t).prev with
    | none => false
    | some p => p.product && p.berth == k.berth && k.follows == some p.id && !s.requestStands t && !rangesMeet touched p.writes

/-- A task that starts with OVERLAP where a condition of R297 fails counts as denied. -/
def State.countDenied (s : State) (t : Nat) (k : Task) (touched : List (Nat × Nat)) : State :=
  if k.overlap ∧ k.overlaps = none ∧ !s.overlapMet t k touched then s.count 0x4030 7 64 1 else s

/-- A task starts, or goes on: it is the last to have started on its tile. -/
def State.startedAs (s : State) (t : Nat) (k : Task) (touched writes : List (Nat × Nat)) : State :=
  let s := if k.st = .taken then s.countDenied t k touched else s
  s.setTile t { s.tile t with prev := some ⟨k.id, k.berth, overlapOp k.opcode && !k.noop, writes⟩ }

/-- Take a validated task whose wait is granted. A BARRIER starts as it is taken (R296). -/
def State.placeOn (s : State) (t : Nat) (k : Task) : State :=
  let k := { k with noop := k.noop || s.skips k }
  let (k, s) := s.gateTake k
  let x := s.tile t
  let past := k.prio = 3 && x.tasks.any (fun y => y.prio != 3 && (y.st = .taken || y.st = .suspended))
  let s := if past then s.count 0x3020 3 64 1 else s
  let starts := k.opcode == 0x53 && !k.noop
  let k := { k with st := if starts then .handed else .taken, worked := k.noop, issued := k.noop, endState := if k.noop then 2 else 1,
                    follows := x.lastTaken }
  let s := if starts then s.countDenied t k [] else s
  s.setTile t { x with tasks := placeTask k x.tasks, lastBerth := mset x.lastBerth k.prio k.berth, lastTaken := some k.id }

/-- Grant a berth's wait: its thresholds are subtracted in one step, and its task is taken. -/
def State.grant (s : State) (b : Nat) : State :=
  match (s.berth b).waiting, s.berthDef b with
  | some k, some d =>
    let s := k.waits.foldl (fun s w =>
      s.setBollard w.1 { s.bollard w.1 with count := (s.bollard w.1).count - w.2, waits := (s.bollard w.1).waits.filter (· != b) }) s
    (s.setBerth b { s.berth b with waiting := none }).placeOn d.tile k
  | _, _ => s

/-- Add a signal to a bollard, saturating with a job fault (R305, R307). `ext`: not by a task of the owning context. -/
def State.bump (s : State) (b inc : Nat) (ext : Bool) : State :=
  let x := s.bollard b
  let v := x.count + inc
  let s := s.setBollard b { x with count := min (2 ^ 32 - 1) v, ext := if ext then x.ext + inc else x.ext }
  let s := if 2 ^ 32 ≤ v then
      match s.bollardOwner b with
      | some c => s.jobFault c 0x1302 9 c {} []
      | none => s
    else s
  if s.secureCtx ≠ 0xFF ∧ b = s.get 0x8200 13 then s.processRequests else s

/-- The bollard a task raises at its signal, and by how much. -/
def Task.signals (k : Task) : List (Nat × Nat) := if k.sigInc = 0 then [] else [(k.sigBol, k.sigInc)]

/-- No-ops at the head of a tile, with no signal of an earlier task outstanding, complete and signal (R9, R12). Answers the
bollards raised. -/
def State.drainNoops (s : State) (t : Nat) : Nat → List Nat → List Nat × State
  | 0, acc => (acc, s)
  | n + 1, acc =>
    match (s.tile t).tasks.filter (fun k => k.st ≠ .handed) with
    | k :: _ =>
      if k.noop ∧ k.gate ≠ 1 ∧ (s.tile t).ending = [] ∧ k.st = .taken then
        let s := ((s.countDenied t k []).dropTask t k).bookEnd t k |>.finish t k.berth
        let s := s.setTile t { s.tile t with prev := none }
        let s := k.signals.foldl (fun s g => s.bump g.1 g.2 false) s
        s.drainNoops t n (acc ++ k.signals.map (·.1))
      else (acc, s)
    | [] => (acc, s)

/-- Examine bollards until no wait on them can be granted (R306). -/
def State.settleGo (s : State) : Nat → List Nat → State
  | 0, _ => s
  | _, [] => s
  | n + 1, b :: rest =>
    match (s.bollard b).waits with
    | be :: _ =>
      if s.canGrant be then
        let both := match (s.berth be).waiting with | some k => k.waits.map (·.1) | none => []
        let s := s.grant be
        let t := match s.berthDef be with | some d => d.tile | none => 0
        let (raised, s) := s.drainNoops t 65 []
        s.settleGo n (b :: both ++ rest ++ raised)
      else s.settleGo n rest
    | [] => s.settleGo n rest

/-- Grants alone: what they let no-ops signal waits (R313, R316). -/
def State.grantGo (s : State) : Nat → List Nat → State
  | 0, _ => s
  | _, [] => s
  | n + 1, b :: rest =>
    match (s.bollard b).waits with
    | be :: _ => if s.canGrant be then
        (let both := match (s.berth be).waiting with | some k => k.waits.map (·.1) | none => []
         (s.grant be).grantGo n (b :: both ++ rest))
      else s.grantGo n rest
    | [] => s.grantGo n rest

def State.settle (s : State) (bs : List Nat) : State :=
  s.settleGo (bs.length + 70 * (s.berths.length + 64)) bs

/-- A signal raises a bollard, and the waits it meets are granted (R305, R306). -/
def State.raise (s : State) (b inc : Nat) (ext : Bool) : State := (s.bump b inc ext).settle [b]

/-- The berths of a tile. -/
def State.tileBerths (s : State) (t : Nat) : List BerthDef := match s.plan with
  | none => []
  | some p => p.berths.filter (fun b => b.tile == t)

/-- Berths in the order in which a take considers them: the highest priority first, and in turn among equals (R295). -/
def State.turnOrder (s : State) (t : Nat) (ds : List BerthDef) : List BerthDef :=
  [3, 2, 1, 0].flatMap (fun p =>
    let same := ds.filter (fun d => d.prio == p)
    match mget? (s.tile t).lastBerth p with
    | none => same
    | some b => same.filter (fun d => decide (b < d.berth)) ++ same.filter (fun d => decide (d.berth ≤ b)))

/-- Free transfer entries of a tile's fetch engine: 48 less those outstanding (R296, R319). -/
def Tile.freeEntries (x : Tile) : Nat := 48 - (x.ending ++ x.tasks).foldl (fun n k => n + k.outstanding) 0

/-- Free entries go to the transfers that wait for one, oldest task first. -/
def issueGo : Nat → List Task → List Task
  | _, [] => []
  | free, k :: r =>
    let n := min free k.unissued
    { k with outstanding := k.outstanding + n, unissued := k.unissued - n } :: issueGo (free - n) r

def State.issue (s : State) (t : Nat) : State :=
  let x := s.tile t
  if (x.ending ++ x.tasks).all (fun k => k.unissued == 0) then s
  else
    let ks := issueGo x.freeEntries (x.ending ++ x.tasks)
    s.setTile t { x with ending := ks.take x.ending.length, tasks := ks.drop x.ending.length }

/-- Grants of a tile's berths that were held back (R296, R346), those with no bollard among them, in the order of a take; transfers that
waited for an entry are issued. -/
def State.regrant (s : State) (t : Nat) : State :=
  let s := s.issue t
  let bs := (s.turnOrder t (s.tileBerths t)).map (fun (b : BerthDef) => b.berth)
  let awaited := bs.flatMap (fun b => match (s.berth b).waiting with | some k => k.waits.map (fun w => w.1) | none => [])
  let s := bs.foldl (fun (s : State) b => if s.canGrant b then s.grant b else s) s
  let (raised, s) := s.drainNoops t 65 []
  s.settle (raised ++ awaited)

/-! ## Aborts and refusals (R293, R298, R349) -/

/-- Bytes a task had written become undefined (R298): every byte of the ranges takes a free value (log 10). -/
def State.scramble (s : State) (t c : Nat) (ranges : List (Nat × Nat)) : State :=
  ranges.foldl (fun s r =>
    match s.ranges (some t) c r.1 r.2 .write with
    | .ok (rs, s) =>
      let (bs, s) := s.drawBytes r.2
      s.storeRanges rs bs
    | .error _ => s) s

/-- Tasks that an abort cancels: taken after it and not started, or overlapping it (R298, R297). Where an urgent task
faults, the tasks it overtook go too, a suspended one among them (R349). -/
def State.abortCancels (s : State) (t : Nat) (k : Task) : List (Task × Nat) :=
  let later := (((s.tile t).tasks.dropWhile (fun x => x.id != k.id)).drop 1)
  later.filterMap (fun x =>
    if x.overlaps = some k.id then some (x, 0x1307)
    else if x.st = .taken then some (x, 0)
    else if x.st = .suspended ∧ k.prio = 3 then some (x, 0) else none)

/-- Task forms that write state that lives across steps into the range they read (R424). -/
def Task.crossStep (k : Task) : Bool :=
  k.opcode == 0x23 || (k.opcode == 0x68 && bit (k.w 6) 35) || (k.opcode == 0x6A && bits (k.w 6) 39 38 == 1)

/-- The memory channel that serves a DRAM address (R327). -/
def channelOf (pa : Nat) : Nat := bits pa 15 8 ^^^ bits pa 23 16

/-- The urgent task of a tile that stands at its berth is taken and started once an abort has freed the tile, unless its context has
stopped (R349). -/
def State.grantUrgent (s : State) (t : Nat) : State :=
  match (s.turnOrder t (s.tileBerths t)).find? (fun d => d.prio == 3 && s.canGrant d.berth) with
  | none => s
  | some d =>
    let s := s.grant d.berth
    match (s.tile t).tasks.find? (fun k => k.berth == d.berth && k.st == .taken && !k.noop) with
    | some k => s.setTask t { k with st := .running }
    | none => s

/-- What an urgent task had overtaken falls with it: deferred tasks are cancelled, a suspended one is discarded (R349). -/
def State.strikeDeferred (s : State) (t : Nat) : State :=
  ((s.tile t).tasks.filter (fun k => k.prio != 3 && !k.alt && (k.st == .taken || k.st == .suspended))).foldl (fun s k => s.cancel t 0 k) s

/-- A fault aborts a task: its unfinished refit rows, status word, undefined bytes, cancellations; then the job fault or the data
error, after which an urgent task that stands is taken, and only then do the berths stop for a replay. `w` is the task that the
fault struck: one of an alternate manifest where `k` is the pop it runs for (R283). -/
def State.abortAs (s : State) (t : Nat) (k w : Task) (f : AccFault) : State :=
  let code := match f with
    | .trans c _ _ _ => c | .data _ c => c | .refuse c => c | .dataErr c _ _ => c | .job c _ _ _ => c | _ => 0
  let s := s.noteFault t k.ctx w.uses f
  let s := match f with
    | .data pa 0x7002 => { s with poison := s.poison.filter (fun e => !(e.2 == 0x7002 && e.1 / 64 == pa / 64)) }
    | _ => s
  let s := s.refitStruck t w
  let gone := s.abortCancels t k
  let s := s.scramble t k.ctx k.written
  let s := (s.dropTask t k).bookEnd t { k with endState := 5, code := code }
  let s := gone.foldl (fun s g =>
    let s := if g.2 = 0x1307 then s.logEv (s.ctxEv k.ctx 0x1307 note 9 k.ctx) else s
    s.cancel t g.2 g.1) s
  let s := s.finish t k.berth
  let at_ : FaultAt := { tile := t, opcode := k.opcode }
  let layer (kind : Nat) : List Byte := if kind = 3 then leBytes 2 w.layerId else []
  let err (code kind : Nat) (ids : List Nat) (s : State) : State :=
    if k.crossStep then
      let s := s.countError.logEv (s.ctxEv k.ctx code warning kind (ids.headD 0) (layer kind))
      s.jobFault k.ctx 0x7008 kind (ids.headD 0) at_ []
    else if k.prio = 3 then s.countError.jobFault k.ctx code kind (ids.headD 0) at_ (layer kind)
    else s.dataError k.ctx ⟨code, kind, ids, k.berth, k.man, k.slot, s.attemptOf k.ctx⟩ at_ (layer kind)
  let s := match f with
    | .trans code va level w => s.transFault k.ctx code { at_ with va := va, level := level, write := w }
    | .data pa code =>
      if code = 0x7003 then s.jobFault k.ctx 0x7003 5 (channelOf pa) at_ []
      else if code = 0x7002 then err code 5 [channelOf pa] s
      else err code 2 [if sramBase ≤ pa then (pa - sramBase) / 16777216 else t] s
    | .dataErr code kind ids => err code kind ids s
    | .job code kind id detail => s.jobFault k.ctx code kind id at_ detail
    | _ => s
  (((s.grantUrgent t).maybeStop k.ctx).regrant t).checkHalted k.ctx

def State.abort (s : State) (t : Nat) (k : Task) (f : AccFault) : State := s.abortAs t k k f

/-- The dock that a refusal names where no other is known: the one of a refit, the lowest that a mask selects. -/
def Task.firstDock (k : Task) (t : Nat) : Nat :=
  8 * t + (if k.opcode = 0x02 then bits (k.w 6) 63 61 else ((List.range 8).find? (fun i => bit (k.w 6) (56 + i))).getD 0)

/-- Source kind, identifier and DETAIL of a refusal at run time: class 0x12 names the tile (R288), class 0x40 and 0x41 the dock
(R146, R179), the others the context; the reduction class carries LAYER_ID (R420). -/
def Task.refusalAt (k : Task) (t code : Nat) : Nat × Nat × List Byte :=
  if code / 256 = 0x12 then (2, t, leBytes 2 k.layerId)
  else if code / 256 = 0x40 ∨ code / 256 = 0x41 then (3, k.firstDock t, leBytes 2 k.layerId)
  else if code / 256 = 0x30 ∨ code / 256 = 0x60 ∨ code = 0x7109 then (9, k.ctx, leBytes 2 k.layerId)
  else (9, k.ctx, [])

/-- A task is refused at run time: STATE 4, no signal, a job fault (R293). -/
def State.refuseAs (s : State) (t : Nat) (k : Task) (code kind id : Nat) (detail : List Byte) : State :=
  let s := ((s.dropTask t k).bookEnd t { k with endState := 4, code := code }).finish t k.berth
  s.jobFault k.ctx code kind id { tile := t, opcode := k.opcode } detail

/-- The place that a refusal names is that of the task it struck, `w`. -/
def State.refuseTask (s : State) (t : Nat) (k w : Task) (code : Nat) : State :=
  let (kind, id, detail) := w.refusalAt t code
  s.refuseAs t k code kind id detail

/-- The pop for which a task of an alternate manifest runs (R283). -/
def State.popOf (s : State) (t : Nat) (k : Task) : Task :=
  ((s.tile t).tasks.find? (fun x => x.opcode == 0x31 && x.st == .suspended)).getD k

/-- The task that an end strikes: a task of an alternate manifest is dropped, and its pop takes its place (R283). -/
def State.struck (s : State) (t : Nat) (k : Task) : State × Task :=
  if k.alt then ((s.scramble t k.ctx k.written).dropTask t k, s.popOf t k) else (s, k)

/-- A read through WIDE_BINDING faults: the context becomes FAULTED, and no task is aborted (R340). The task stands where it stood,
not started, and runs once its context does (DEDUCED, log 73). -/
def State.readStruck (s : State) (t : Nat) (k : Task) (code va level : Nat) (w : Bool) : State :=
  ((s.noteLeaf t k.ctx va).setTask t { k with st := if k.st = .running then .taken else k.st }).transFault k.ctx code
    { va := va, level := level, write := w, tile := t, noTask := true }

/-- How a task's work that does not complete ends. -/
def State.stopTask (s : State) (t : Nat) (k : Task) (f : AccFault) : State :=
  match f with
  | .wait => s
  | .stall ls => s.snoopHeld ls
  | .refuse code =>
    let (s, p) := s.struck t k
    s.refuseTask t p k code
  | .noTask code va level w => s.readStruck t k code va level w
  | f =>
    let (s, p) := s.struck t k
    s.abortAs t p k f

/-! ## Ferry chains (R300 to R304) -/

def State.chainDef (s : State) (id : Nat) : Option ChainDef := match s.plan with
  | none => none
  | some p => p.chains.find? (fun c => c.id == id)

def State.members (s : State) (id : Nat) : List ChainMember :=
  match s.chainDef id with
  | none => []
  | some c => c.tiles.zipIdx.map (fun p => (mgetD s.chains id []).getD p.2 ⟨0, 0, 0, false⟩)

def State.member (s : State) (id i : Nat) : ChainMember := (s.members id).getD i ⟨0, 0, 0, false⟩

def State.setMember (s : State) (id i : Nat) (m : ChainMember) : State :=
  { s with chains := mset s.chains id ((s.members id).set i m) }

/-- A slot of a chain on a tile: chain, member, slot, and its offset in the tile's SRAM (R300). -/
structure FerrySlot where
  chain : Nat
  member : Nat
  slot : Nat
  off : Nat
  deriving DecidableEq, Repr

def ferryBytes : Nat := 65536

def slotsGo (t base : Nat) : List ChainDef → List FerrySlot
  | [] => []
  | c :: r =>
    match c.tiles.findIdx? (fun x => x == t) with
    | none => slotsGo t base r
    | some i =>
      (List.range c.credits).map (fun j => ⟨c.id, i, j, base + ferryBytes * j⟩) ++ slotsGo t (base + ferryBytes * c.credits) r

/-- Every slot of a tile, chain after chain in record order. -/
def State.slotsOf (s : State) (t : Nat) : List FerrySlot :=
  match s.plan with
  | none => []
  | some p => match p.tilePart t with
    | none => []
    | some tp => slotsGo t tp.ferryBase p.chains

/-- The slots that a physical range touches, with their tiles. -/
def State.slotsHit (s : State) (pa n : Nat) : List (Nat × FerrySlot) :=
  if sramBase ≤ pa ∧ 0 < n then
    let t := (pa - sramBase) / 16777216
    let off := (pa - sramBase) % 16777216
    ((s.slotsOf t).filter (fun x => decide (x.off < off + n ∧ off < x.off + ferryBytes))).map (fun x => (t, x))
  else []

/-- Slot n mod C of a member is free for chunk n. -/
def State.slotFree (s : State) (id i n : Nat) : Bool :=
  match s.chainDef id with
  | none => false
  | some c =>
    let m := s.member id i
    decide (n < c.credits ∨ n - c.credits < m.released) &&
      (decide (n < c.credits ∨ n - c.credits < m.forwarded) || i + 1 == c.tiles.length)

/-- Chunks of a chain that tasks of its head are loading. -/
def State.loading (s : State) (t chain : Nat) : List Nat :=
  ((s.tile t).tasks ++ (s.tile t).ending).filterMap (fun k => match k.chainLoad with
    | some (c, n) => if c = chain then some n else none
    | none => none)

/-- The next chunk of a chain (R301): the lowest that is neither loaded nor being loaded. -/
def State.nextChunk (s : State) (t chain : Nat) : Nat :=
  let n := (s.member chain 0).loaded
  let ls := s.loading t chain
  ((List.range (ls.length + 1)).map (· + n)).find? (fun i => !ls.contains i) |>.getD n

/-- What a task's writes do to ferry slots (R301): none, or the next chunk of a chain at its head, or a refusal. `own` is the chunk that
the task has begun to load. -/
def State.ferryWrite (s : State) (t : Nat) (own : Option (Nat × Nat)) (ranges : List (Nat × Nat)) : Except AccFault (Option (Nat × Nat)) :=
  match (ranges.flatMap (fun r => s.slotsHit r.1 r.2)).eraseDups with
  | [] => .ok none
  | [(t', x)] =>
    let n := match own with
      | some (c, n) => if c = x.chain then n else s.nextChunk t x.chain
      | none => s.nextChunk t x.chain
    let c := match s.chainDef x.chain with | some c => c.credits | none => 1
    if t' = t ∧ x.member = 0 ∧ x.slot = n % c then
      (if s.slotFree x.chain 0 n then .ok (some (x.chain, n)) else .error .wait)
    else .error (.refuse 0x1306)
  | _ => .error (.refuse 0x1306)

/-- The slots of its own tile that ranges touch. -/
def State.ownHits (s : State) (t : Nat) (ranges : List (Nat × Nat)) : List FerrySlot :=
  ((ranges.flatMap (fun r => s.slotsHit r.1 r.2)).filter (fun p => p.1 == t)).map (·.2) |>.eraseDups

/-- A slot that a task reads among others holds one of the next chunks not yet consumed. -/
def State.slotReady (s : State) (hits : List FerrySlot) (x : FerrySlot) : Bool :=
  match s.chainDef x.chain with
  | none => true
  | some c =>
    let k := (hits.filter (fun y => y.chain == x.chain)).length
    let m := s.member x.chain x.member
    (List.range k).any (fun i => (m.released + i) % c.credits == x.slot) && decide (m.released + k ≤ m.loaded)

/-- The slots of its own tile that a task reads; it waits until each holds the next chunks not yet consumed (R303). -/
def State.ferryRead (s : State) (t : Nat) (ranges : List (Nat × Nat)) : Except AccFault (List (Nat × Nat)) :=
  let hits := s.ownHits t ranges
  if hits.all (s.slotReady hits) then .ok (hits.map (fun x => (x.chain, x.slot))) else .error .wait

/-- The physical place of virtual ranges as a tile reaches them, as far as they translate; nothing is accessed. -/
def State.placeOf (s : State) (tile : Option Nat) (c : Nat) (ranges : List (Nat × Nat)) (write : Bool) : List (Nat × Nat) :=
  let p := if c = s.get 0x8200 1 then 4096 else 65536
  ranges.flatMap (fun r =>
    (List.range (r.2 / p + 2)).filterMap (fun i =>
      let lo := if i = 0 then r.1 else (r.1 / p + i) * p
      let hi := min (r.1 + r.2) ((r.1 / p + i + 1) * p)
      if lo < hi then
        let va := s.redirect c lo write
        (s.leafOf tile c va).map (fun e => (e.pa + (va - e.va), hi - lo))
      else none))

/-- A chunk is loaded at the head (R301). -/
def State.chunkLoaded (s : State) (id : Nat) : State :=
  let m := s.member id 0
  (s.setMember id 0 { m with loaded := m.loaded + 1 }).count 0x4030 8 64 1

/-- A completed task releases the slots it read (R303). -/
def State.releaseSlots (s : State) (t : Nat) (k : Task) : State :=
  k.slotsRead.foldl (fun s x =>
    match s.chainDef x.1 with
    | none => s
    | some c => match c.tiles.findIdx? (fun y => y == t) with
      | none => s
      | some i =>
        let m := s.member x.1 i
        s.setMember x.1 i { m with released := m.released + 1 }) s

/-- Bytes at a virtual address as far as they can be read now, without an access being made; zeros otherwise. -/
def State.peek (s : State) (tile : Option Nat) (c va n : Nat) : List Byte := match s.readVa tile c va n with
  | .ok (bs, _) => bs
  | .error _ => zeros n

/-- The tile of a task. -/
def State.taskTile (s : State) (k : Task) : Option Nat := (s.berthDef k.berth).map (·.tile)

/-- Where the frame of a GEMM_BWD_PAIR or an attention block lies. -/
def Task.addrFrame (k : Task) : Nat := bits (k.w 7) 47 0

/-- A task's frame: as its prologue read it where it started in overlap (R297), else as it stands. -/
def State.peekFrame (s : State) (k : Task) : List Byte := match k.frame with
  | some bs => bs
  | none => s.peek (s.taskTile k) k.ctx k.addrFrame 64

/-- The read of a task's frame. -/
def State.readFrame (s : State) (t : Nat) (k : Task) : Except AccFault (List Byte × State) := match k.frame with
  | some bs => .ok (bs, s)
  | none => s.readVa (some t) k.ctx k.addrFrame 64

/-- What the tally would compare is kept with the task (R226). -/
def State.setCap (s : State) (t : Nat) (k : Task) (c : Cap) : State := s.setTask t { k with cap := some c }

/-! ## The run of a task (R296, R297) -/

/-- The task of a tile that can run next: the first neither handed nor finished, and the unfinished end of the one that
runs before it, if there is one. -/
def Tile.next (x : Tile) : Option (Task × Option Task) :=
  match x.tasks.filter (fun k => k.st ≠ .handed) with
  | [] => none
  | k :: r => if k.worked then (match r with | y :: _ => some (y, some k) | [] => none) else some (k, none)

/-- Cut a destination into units that end at its 4 KiB boundaries: offset and length of each (R342, R380). -/
def unitsGo (dst len : Nat) : Nat → Nat → List (Nat × Nat)
  | 0, _ => []
  | n + 1, off =>
    if len ≤ off then [] else
    let k := min (len - off) (4096 - (dst + off) % 4096)
    (off, k) :: unitsGo dst len n (off + k)

def unitsOf (dst len : Nat) : List (Nat × Nat) := unitsGo dst len (len / 4096 + 2) 0

/-- Transfers of up to 4 KiB that ranges take (R296). -/
def unitCount (rs : List (Nat × Nat)) : Nat := rs.foldl (fun n r => n + (unitsOf r.1 r.2).length) 0

/-- A task of a tile, ended or not, changed. -/
def State.modTask (s : State) (t id : Nat) (f : Task → Task) : State :=
  let g (k : Task) : Task := if k.id = id then f k else k
  s.setTile t { s.tile t with tasks := (s.tile t).tasks.map g, ending := (s.tile t).ending.map g }

def State.findTask (s : State) (t id : Nat) : Option Task :=
  ((s.tile t).tasks ++ (s.tile t).ending).find? (fun k => k.id == id)

/-- A task has made all its writes, and all are acknowledged. -/
def Task.landed (k : Task) : Bool := k.issued && k.unissued == 0 && k.outstanding == 0 && k.unanswered.isEmpty

/-- Chunks of a chain are loaded, in order, once every write of their tasks into the head's slot is acknowledged (R301). -/
def State.settleChain (s : State) (t c : Nat) : Nat → State
  | 0 => s
  | n + 1 =>
    match ((s.tile t).tasks ++ (s.tile t).ending).find? (fun k => k.chainLoad == some (c, (s.member c 0).loaded) && k.landed) with
    | none => s
    | some k => ((s.chunkLoaded c).modTask t k.id (fun k => { k with chainLoad := none })).settleChain t c n

def State.settleLoad (s : State) (t id : Nat) : State :=
  match s.findTask t id with
  | none => s
  | some k => match k.chainLoad with
    | none => s
    | some (c, _) => s.settleChain t c ((s.tile t).tasks.length + (s.tile t).ending.length)

/-- A task ends: its slots are released, its books are made, and its signal waits for its writes (R293, R303, R308). A task of
an alternate manifest leaves nothing behind (R283). -/
def State.endTask (s : State) (t : Nat) (k : Task) : State :=
  let s := s.releaseSlots t k
  let s := if k.alt then s.dropTask t k
    else
      let s := (s.dropTask t k).bookEnd t k
      let s := s.judgeTransient k.ctx k.berth k.man k.slot
      (s.setTile t { s.tile t with ending := (s.tile t).ending ++ [{ k with st := .ended }] }).finish t k.berth
  (s.checkHalted k.ctx).regrant t

/-- What a task reads and writes, and its effect: the state after every write, and its status bits (R205). -/
structure Body where
  reads : State → Task → List (Nat × Nat)
  writes : State → Task → List (Nat × Nat)
  run : State → Nat → Task → Except AccFault (State × Nat)

/-- A task may start: its context runs, its gate has passed, it is not a no-op, and no TALLY stands before it at its tile (R346). -/
def State.mayStart (s : State) (k : Task) : Bool :=
  !k.noop && decide (k.gate ≠ 1) && (k.st == .running || s.takes k.ctx)
    && (k.st == .running || k.prio == 3 || match s.taskTile k with | some t => !s.tallyStands t | none => true)

/-- A task starts in overlap with its predecessor: only its prologue runs until that has ended, and its frame is read now (R297). -/
def State.overlapStart (s : State) (t : Nat) (k before : Task) (body : Body) : State :=
  let w := body.writes s k
  let touched := body.reads s k ++ w
  let last := match (s.tile t).prev with | some p => p.id == before.id | none => false
  if k.st = .taken ∧ last = true ∧ s.overlapMet t k touched then
    let frame := if [0x11, 0x18, 0x19].contains k.opcode then (match s.readVa (some t) k.ctx k.addrFrame 64 with
      | .ok (bs, _) => some bs
      | .error _ => none) else none
    ((s.startedAs t k touched w).setTask t { k with st := .running, overlaps := some before.id, frame := frame }).regrant t
  else s

/-- What ZD1 emulation does not have: FP4, INT1 to INT7, stochastic rounding (R207). -/
def Task.emuRefused (k : Task) : Bool :=
  let bad (f : Nat) : Bool := f == 0x12 || (decide (0x21 ≤ f) && decide (f ≤ 0x27))
  bad k.fmtA || bad k.fmtB || bad k.fmtD || (k.opcode == 0x28 && bit (k.w 6) 61)

/-- The next task of a tile where it has an opcode, can start, and no task before it is unfinished. -/
def State.headOf (s : State) (t op : Nat) : Option Task :=
  match (s.tile t).next with
  | some (k, none) => if k.opcode = op ∧ s.mayStart k ∧ s.operating then some k else none
  | _ => none

/-- Deferred transfers that had landed in ranges an urgent task writes are made again before their task starts (R347). -/
def State.reissue (s : State) (t : Nat) (k : Task) (w : List (Nat × Nat)) : State :=
  let again (x : Task) : Bool := x.prio != 3 && x.st == .taken && decide (0 < x.units) && rangesMeet x.written w
  if k.prio = 3 ∧ (s.tile t).tasks.any again then
    s.setTile t { s.tile t with tasks := (s.tile t).tasks.map (fun x => if again x then { x with units := 0, issued := false, written := [] } else x) }
  else s

/-- A task whose effect is made: its writes are transfers, as many of them outstanding as there are free entries (R296). -/
def Task.issues (k : Task) (free status : Nat) (w : List (Nat × Nat)) : Task :=
  let n := if k.opcode = 0x41 then 0 else unitCount w
  let now := min n free
  { k with st := .running, worked := true, status := k.status ||| status, written := w, outstanding := now, unissued := n - now, issued := true }

/-- Run the next task of a tile, if it is of the wanted form and can start: its whole effect, or how it stops. -/
def State.runTask (s : State) (t op : Nat) (form : Task → Bool) (body : Body) : State :=
  match (s.tile t).next with
  | none => s
  | some (k, before) =>
    if k.opcode ≠ op ∨ !form k ∨ !s.mayStart k ∨ !s.operating then s else
    match before with
    | some b => s.overlapStart t k b body
    | none =>
      let s := s.work
      if s.get 0x5000 1 = 1 ∧ k.emuRefused then s.stopTask t k (.refuse 0x3001) else
      match s.ferryRead t (s.placeOf (some t) k.ctx (body.reads s k) false) with
      | .error f => s.stopTask t k f
      | .ok slots =>
        match s.ferryWrite t k.chainLoad (s.placeOf (some t) k.ctx (body.writes s k) true) with
        | .error f => s.stopTask t k f
        | .ok load =>
          let w := body.writes s k
          let s0 := s.startedAs t k (body.reads s k ++ w) w
          match body.run s0 t k with
          | .error .wait => s
          | .error (.stall ls) => s.snoopHeld ls
          | .error f => s0.stopTask t { k with written := w, uses := body.reads s k ++ w } f
          | .ok (s', status) =>
            let k := ((s'.tile t).tasks.find? (fun x => x.id == k.id)).getD k
            let s' := s'.setTask t { k.issues (s'.tile t).freeEntries status w with slotsRead := slots, chainLoad := load }
            (s'.reissue t k w).regrant t

/-- Run the next task of a tile that the device splits into parts where a level makes it longer than R107 allows (R217, R258). Each part
before the last ends at a pre-emption point (R345); the model makes the whole effect with the last part (DESIGN CHOICE, log 37). -/
def State.runSplit (s : State) (t op : Nat) (form : Task → Bool) (body : Body) (parts : State → Task → Nat) : State :=
  let s' := s.runTask t op form body
  match (s.tile t).next with
  | some (k, none) =>
    if k.units + 1 < parts s k then
      match s'.findTask t k.id with
      | some k' =>
        if !k.worked ∧ k'.worked then
          let s := s.work
          let w := body.writes s k
          let held := k.prio != 3 && s.requestStands t
          ((s.startedAs t k (body.reads s k ++ w) w).setTask t { k with units := k.units + 1, st := if held then .suspended else .running }).regrant t
        else s'
      | none => s'
    else s'
  | _ => s'

/-! ## Transfers in units (R296, R342 to R347) -/

/-- A task that moves 4 KiB units: what it touches, how many units it has, what it has written after a number of them, and
the move of units from a position on. -/
structure Dma where
  reads : State → Task → List (Nat × Nat)
  writes : State → Task → List (Nat × Nat)
  total : State → Task → Nat
  moved : State → Task → Nat → List (Nat × Nat)
  run : State → Nat → Task → Nat → Nat → Except AccFault State

/-- The units that a DMA task moves now: it stops issuing while a pre-emption request stands, unless it is urgent itself
(R346, R348). -/
def State.unitsNow (s : State) (t : Nat) (k : Task) (units : Nat) : Nat :=
  if k.st = .running ∧ k.prio ≠ 3 ∧ s.requestStands t then 0 else units

/-- A range lies in a tile's own SRAM. -/
def State.ownSram (s : State) (t c : Nat) (r : Nat × Nat) (write : Bool) : Bool :=
  let ps := s.placeOf (some t) c [r] write
  ps != [] && ps.all (fun p => decide (tileAddr t 0 ≤ p.1 ∧ p.1 + p.2 ≤ tileAddr t 16777216))

/-- A COPY or TRANSPOSE that brings data into its tile's SRAM from elsewhere, as the first bytes of its operands tell (R296). -/
def State.inbound (s : State) (t : Nat) (k : Task) : Bool :=
  (k.opcode == 0x29 || k.opcode == 0x2A) && !k.noop && s.ownSram t k.ctx (k.addrD, 1) true && !s.ownSram t k.ctx (k.addrA, 1) false

/-- The task whose inbound transfers a tile's fetch engine issues ahead of its start: the oldest taken one that has any left. -/
def State.aheadTask (s : State) (t op : Nat) : Option Task :=
  match (s.tile t).tasks.find? (fun k => k.st == .taken && !k.issued && s.inbound t k) with
  | some k => if k.opcode = op ∧ s.takes k.ctx ∧ s.operating then some k else none
  | none => none

/-- The task whose units a command moves, and whether it is the next of the tile and so starts. -/
def State.dmaTask (s : State) (t op : Nat) : Option (Task × Bool) :=
  match s.headOf t op with
  | some k => some (k, true)
  | none => (s.aheadTask t op).map (fun k => (k, false))

/-- How many units of a task can be issued now: an inbound unit waits for every earlier unfinished task that uses its destination
(R296), and every unit for a free entry. -/
def State.unitsFree (s : State) (t : Nat) (k : Task) (left : List (Nat × Nat)) : Nat :=
  let earlier := (s.tile t).tasks.takeWhile (fun x => x.id != k.id)
  let open_ := left.takeWhile (fun r => !(s.ownSram t k.ctx r true && earlier.any (fun e => rangesMeet [r] e.uses)))
  min open_.length (s.tile t).freeEntries

/-- A task whose units were all moved ahead of its start starts with nothing left to do. -/
def State.dmaStart (s : State) (t : Nat) (k : Task) (d : Dma) : State :=
  let w := d.writes s k
  ((s.startedAs t k (d.reads s k ++ w) w).setTask t { k with st := .running, worked := true }).regrant t

/-- Move units of a DMA task of a tile (R345, R346): of the next one, or of one taken, ahead of its start (R296). -/
def State.runDma (s : State) (t op units : Nat) (d : Dma) : State :=
  match s.dmaTask t op with
  | none => s
  | some (k, head) =>
    let left := (d.moved s k (d.total s k)).drop k.units
    let n := min (s.unitsNow t k units) (s.unitsFree t k left)
    if n = 0 then (if head ∧ left = [] ∧ !k.worked then s.work.dmaStart t k d else s) else
    let s := s.work
    match s.ferryRead t (s.placeOf (some t) k.ctx (d.reads s k) false) with
    | .error f => s.stopTask t k f
    | .ok slots =>
      match s.ferryWrite t k.chainLoad (s.placeOf (some t) k.ctx (d.writes s k) true) with
      | .error f => s.stopTask t k f
      | .ok load =>
        let w := d.writes s k
        let s0 := if head then s.startedAs t k (d.reads s k ++ w) w else s
        match d.run s0 t k k.units n with
        | .error .wait => s
        | .error (.stall ls) => s.snoopHeld ls
        | .error f => s0.stopTask t { k with written := d.moved s k k.units, uses := d.reads s k ++ w } f
        | .ok s' =>
          let k := (s'.findTask t k.id).getD k
          let u := k.units + n
          let done := decide (d.total s k ≤ u)
          let s' := s'.setTask t { k with st := if head then .running else k.st, units := u, worked := head && done, issued := done,
                                          slotsRead := slots, chainLoad := load, written := d.moved s k u, outstanding := k.outstanding + n }
          (s'.reissue t k (left.take n)).regrant t

/-- DMA_SUSPEND (R346): a DMA task that stopped at a unit's end is suspended once its transfers are acknowledged. -/
def execDmaSuspend (t : TileId) (s : State) : Host.Outcome State Fault Refusal :=
  .next (match (s.tile t).next with
    | some (k, _) =>
      if k.st = .running ∧ !k.worked ∧ k.prio ≠ 3 ∧ (k.opcode = 0x29 ∨ k.opcode = 0x2A ∨ k.opcode = 0x70)
          ∧ k.outstanding = 0 ∧ k.unanswered = [] ∧ s.requestStands t then
        ((s.setTask t { k with st := .suspended }).count 0x3020 4 64 1).regrant t
      else s
    | none => s)

end Sys2Proof.Machine
end

