-- ==== Sys2Proof/Machine/Formats.lean ====
section
/-! DEFINITION. Number formats and arithmetic: encodings, rounding, block formats, conversions, products and the vector unit's operations (R180 to R208). -/

namespace Sys2Proof

/-! ## Values -/

def Num.isNaN : Num → Bool
  | .nan _ => true
  | _ => false
def Num.isInf : Num → Bool
  | .inf _ => true
  | _ => false
def Num.isFinite : Num → Bool
  | .zero _ | .fin _ => true
  | _ => false
def Num.rat : Num → Rat
  | .fin v => v
  | _ => 0
/-- The sign bit of a value. -/
def Num.neg : Num → Bool
  | .nan p => Machine.bit p 31
  | .inf n => n
  | .zero n => n
  | .fin v => decide (v < 0)
def Num.isZero : Num → Bool
  | .zero _ => true
  | _ => false
def Num.flip : Num → Num
  | .nan p => .nan p
  | .inf n => .inf (!n)
  | .zero n => .zero (!n)
  | .fin v => .fin (-v)
/-- Not finite. -/
def Num.bad (x : Num) : Bool := !x.isFinite

end Sys2Proof

namespace Sys2Proof.Machine

/-! ## Format codes (R180) -/

inductive Fmt where
  | fp32 | bf16 | m48 | e4m3 | e5m2 | fp4
  | int (b : Nat)
  deriving DecidableEq, Repr

def Fmt.ofCode (c : Nat) : Option Fmt :=
  if c = 1 then some .fp32 else if c = 2 then some .bf16 else if c = 3 then some .m48
  else if c = 0x10 then some .e4m3 else if c = 0x11 then some .e5m2 else if c = 0x12 then some .fp4
  else if 0x21 ≤ c ∧ c ≤ 0x28 then some (.int (c - 0x20)) else none

def Fmt.code : Fmt → Nat
  | .fp32 => 1 | .bf16 => 2 | .m48 => 3 | .e4m3 => 0x10 | .e5m2 => 0x11 | .fp4 => 0x12 | .int b => 0x20 + b

/-- Bits per element. -/
def Fmt.width : Fmt → Nat
  | .fp32 => 32 | .bf16 => 16 | .m48 => 48 | .e4m3 => 8 | .e5m2 => 8 | .fp4 => 4 | .int b => b

def Fmt.narrow : Fmt → Bool
  | .fp32 | .bf16 | .m48 => false
  | _ => true

/-- Fraction bits of a wide format (R184). -/
def Fmt.frac : Fmt → Nat
  | .bf16 => 7 | .m48 => 39 | _ => 23

/-- The largest element magnitude (R180, R192). -/
def Fmt.emax : Fmt → Nat
  | .e4m3 => 448 | .e5m2 => 57344 | .fp4 => 6 | .int b => if b ≤ 1 then 1 else 2 ^ (b - 1) - 1 | _ => 0

/-- Mantissa bits, and the exponent of the smallest normal, of a small floating-point format (R181, R182). -/
def Fmt.small : Fmt → Nat × Int
  | .e4m3 => (3, -6) | .e5m2 => (2, -14) | .bf16 => (7, -126) | _ => (1, 0)

/-- Formats of a product (R194). -/
def Fmt.product : Fmt → Bool
  | .fp32 | .m48 => false
  | _ => true

/-- The bytes of a tensor of n elements: block groups of 2,048 elements in a narrow format (R186). -/
def Fmt.groupBytes (f : Fmt) : Nat := 256 * f.width + 64
def Fmt.bytes (f : Fmt) (n : Nat) : Nat :=
  if f.narrow then (n + 2047) / 2048 * f.groupBytes else n * f.width / 8

/-! ## Rational helpers -/

def pow2 (e : Int) : Rat := if 0 ≤ e then ((2 ^ e.toNat : Nat) : Rat) else 1 / ((2 ^ (-e).toNat : Nat) : Rat)

def absR (v : Rat) : Rat := if v < 0 then -v else v

/-- The e with 2^e ≤ |v| < 2^(e+1), for v ≠ 0. -/
def ilogR (v : Rat) : Int :=
  let e : Int := (Nat.log2 v.num.natAbs : Int) - (Nat.log2 v.den : Int)
  if pow2 e ≤ absR v then (if pow2 (e + 1) ≤ absR v then e + 1 else e) else e - 1

/-- Round to the nearest integer, ties to even. -/
def rne (q : Rat) : Int :=
  let f := q.floor
  let d := q - (f : Rat)
  if d < 1 / 2 then f else if 1 / 2 < d then f + 1 else if f % 2 = 0 then f else f + 1

/-! ## Wide formats (R184, R187) -/

/-- A binary32 NaN pattern made quiet. -/
def quiet (p : Nat) : Nat := p ||| 0x00400000
def canonicalNaN : Nat := 0x7FC00000

/-- The value of a wide code: subnormals read as zero of their sign. -/
def Fmt.decodeWide (f : Fmt) (n : Nat) : Num :=
  let fb := f.frac
  let neg := bit n (8 + fb)
  let e := bits n (7 + fb) fb
  let m := n % 2 ^ fb
  if e = 255 then
    (if m = 0 then .inf neg
     else .nan (quiet (if fb ≤ 23 then n * 2 ^ (23 - fb) else n / 2 ^ (fb - 23))))
  else if e = 0 then .zero neg
  else
    let v := ((2 ^ fb + m : Nat) : Rat) * pow2 ((e : Int) - 127 - fb)
    .fin (if neg then -v else v)

/-- What a rounding does besides its value. -/
inductive RoundFlag where
  | exactOrRounded | flushed | overflowed
  deriving DecidableEq, Repr

/-- Round a number that is not 0 into a wide format: RNE, flushed where it would be subnormal before rounding. -/
def Fmt.roundWide (f : Fmt) (v : Rat) : Num × RoundFlag :=
  let neg := decide (v < 0)
  if absR v < pow2 (-126) then (.zero neg, .flushed)
  else
    let q := pow2 (ilogR v - f.frac)
    let r := ((rne (absR v / q) : Int) : Rat) * q
    if pow2 128 ≤ r then (.inf neg, .overflowed) else (.fin (if neg then -r else r), .exactOrRounded)

/-- The code of a value that the wide format holds exactly; a NaN carries as much of its pattern as fits. -/
def Fmt.encodeWide (f : Fmt) (x : Num) : Nat :=
  let fb := f.frac
  let sign (b : Bool) : Nat := if b then 2 ^ (8 + fb) else 0
  match x with
  | .nan p => if fb ≤ 23 then p / 2 ^ (23 - fb) else p * 2 ^ (fb - 23)
  | .inf n => sign n + 255 * 2 ^ fb
  | .zero n => sign n
  | .fin v =>
    let e := ilogR v
    sign (decide (v < 0)) + ((e + 127).toNat) * 2 ^ fb + ((absR v / pow2 (e - fb)).floor.toNat - 2 ^ fb)

def f32OfNum (x : Num) : Nat := Fmt.fp32.encodeWide x
def numOfF32 (n : Nat) : Num := Fmt.fp32.decodeWide n

/-! ## Small elements (R181 to R183, R185) -/

/-- The value of a narrow element code before its scale. -/
def Fmt.decodeElem (f : Fmt) (c : Nat) : Num :=
  match f with
  | .int b =>
    if b ≤ 1 then .fin (if c = 0 then 1 else -1)
    else
      let v := toSigned b c
      if v = 0 then .zero false else .fin (v : Rat)
  | _ =>
    let (m, e0) := f.small
    let w := f.width
    let neg := bit c (w - 1)
    let e := bits c (w - 2) m
    let frac := c % 2 ^ m
    if f = .e4m3 ∧ c % 128 = 127 then .nan canonicalNaN
    else if f = .e5m2 ∧ e = 31 then (if frac = 0 then .inf neg else .nan canonicalNaN)
    else if e = 0 ∧ frac = 0 then .zero neg
    else
      let v := (if e = 0 then (frac : Rat) else ((2 ^ m + frac : Nat) : Rat)) * pow2 ((max e 1 : Nat) - 1 + e0 - m)
      .fin (if neg then -v else v)

/-- A scale byte: a positive scale, zero, or poisoned (R185). -/
inductive Scale where
  | zero | poisoned | badSign | val (v : Rat)
  deriving DecidableEq, Repr

def readScale (b : Nat) : Scale :=
  if b = 0 then .zero
  else if b % 128 = 127 then .poisoned
  else if 128 ≤ b then .badSign
  else match Fmt.e4m3.decodeElem b with
    | .fin v => .val v
    | _ => .zero

/-- An element times its scale. -/
def scaled (x : Num) (v : Rat) : Num :=
  match x with
  | .fin a => .fin (a * v)
  | y => y

/-- Bits b·j to b·j + b − 1 of a byte string. -/
def elemBits (bs : List Byte) (b j : Nat) : Nat :=
  let lo := b * j
  (field bs (lo / 8) 2 >>> (lo % 8)) % 2 ^ b

/-- A block group's bytes read into values, and how many scale bytes had their sign set. -/
def Fmt.readGroup (f : Fmt) (bs : List Byte) (n : Nat) : List Num × Nat :=
  let scale (k : Nat) : Scale := readScale (field bs (256 * f.width + k) 1)
  let blocks := (n + 31) / 32
  let one (j : Nat) : Num :=
    match scale (j / 32) with
    | .zero => .zero false
    | .val v => scaled (f.decodeElem (elemBits bs f.width j)) v
    | _ => .nan canonicalNaN
  ((List.range n).map one, ((List.range blocks).filter (fun k => scale k == .badSign)).length)

/-- A tensor of n elements read from its bytes (R186). -/
def Fmt.readTensor (f : Fmt) (bs : List Byte) (n : Nat) : List Num × Nat :=
  if f.narrow then
    (List.range ((n + 2047) / 2048)).foldl (fun acc g =>
      let (xs, bad) := f.readGroup ((bs.drop (g * f.groupBytes)).take f.groupBytes) (min 2048 (n - 2048 * g))
      (acc.1 ++ xs, acc.2 + bad)) ([], 0)
  else ((List.range n).map (fun i => f.decodeWide (field bs (i * (f.width / 8)) (f.width / 8))), 0)

/-! ## Flags of a task (R205, R211) -/

/-- Status bits and counts that an evaluation gathers. -/
structure NumStat where
  /-- ZD1 emulation is in force (R208). -/
  emu : Bool := false
  status : Nat := 0
  nans : Nat := 0
  ovf : Nat := 0
  flush : Nat := 0
  sat : Nat := 0
  ufl : Nat := 0
  zb : Nat := 0
  pb : Nat := 0
  bs : Nat := 0
  sr : Nat := 0
  deriving DecidableEq, Repr

def stInvalid : Nat := 0x80
def stOverflow : Nat := 0x40
def stFlushed : Nat := 0x20
def stSaturated : Nat := 0x10
def stUnderflowed : Nat := 0x08
def stZeroBlock : Nat := 0x04
def stPoisoned : Nat := 0x02
def stBadScale : Nat := 0x01

abbrev Calc := StateM NumStat

def flagInvalid : Calc Unit := modify (fun (f : NumStat) => { f with status := f.status ||| stInvalid })
def flagOverflow : Calc Unit := modify (fun (f : NumStat) => { f with status := f.status ||| stOverflow, ovf := f.ovf + 1 })
def flagFlush : Calc Unit := modify (fun (f : NumStat) => { f with status := f.status ||| stFlushed, flush := f.flush + 1 })
def flagBadScales (n : Nat) : Calc Unit :=
  modify (fun (f : NumStat) => if n = 0 then f else { f with status := f.status ||| stBadScale, bs := f.bs + n })

/-- The NaN of an operation in ZD1 emulation: the first NaN operand, quieted, and 0xFFC00000 where the operation was
invalid (R208). -/
def firstNaN (a b : Num) : Num :=
  match a, b with
  | .nan p, _ => .nan (quiet p)
  | _, .nan p => .nan (quiet p)
  | _, _ => .nan 0xFFC00000

/-- A NaN consumed or produced: INVALID set; canonical in native numerics (R196). -/
def nanOf (a b : Num) : Calc Num := do
  flagInvalid
  if (← get).emu then return firstNaN a b else return .nan canonicalNaN

def invalidNaN : Calc Num := nanOf (.zero false) (.zero false)

/-- Round an exact finite result of finite operands into a wide format. -/
def roundTo (f : Fmt) (v : Rat) (zeroNeg : Bool) : Calc Num :=
  if v = 0 then pure (.zero zeroNeg)
  else do
    match f.roundWide v with
    | (x, .overflowed) => flagOverflow; return x
    | (x, .flushed) => flagFlush; return x
    | (x, .exactOrRounded) => return x

/-! ## Correctly rounded operations (R197) -/

def addIn (f : Fmt) (a b : Num) : Calc Num :=
  if a.isNaN || b.isNaN then nanOf a b
  else match a, b with
    | .inf x, .inf y => if x = y then pure (.inf x) else nanOf a b
    | .inf x, _ => pure (.inf x)
    | _, .inf y => pure (.inf y)
    | _, _ => roundTo f (a.rat + b.rat) (a.isZero && b.isZero && a.neg && b.neg)

def mulIn (f : Fmt) (a b : Num) : Calc Num :=
  let sg := a.neg != b.neg
  if a.isNaN || b.isNaN then nanOf a b
  else if (a.isInf && b.isZero) || (a.isZero && b.isInf) then nanOf a b
  else if a.isInf || b.isInf then pure (.inf sg)
  else roundTo f (a.rat * b.rat) sg

def divIn (f : Fmt) (a b : Num) : Calc Num :=
  let sg := a.neg != b.neg
  if a.isNaN || b.isNaN then nanOf a b
  else if (a.isInf && b.isInf) || (a.isZero && b.isZero) then nanOf a b
  else if a.isInf then pure (.inf sg)
  else if b.isInf then pure (.zero sg)
  else if b.isZero then do flagOverflow; return .inf sg
  else roundTo f (a.rat / b.rat) sg

/-- The integer square root, by bisection. -/
def isqrtGo : Nat → Nat → Nat → Nat → Nat
  | 0, _, lo, _ => lo
  | k + 1, n, lo, hi =>
    let m := (lo + hi) / 2
    if lo + 1 ≥ hi then lo else if m * m ≤ n then isqrtGo k n m hi else isqrtGo k n lo m

def isqrt (n : Nat) : Nat := isqrtGo (Nat.log2 n + 3) n 0 (2 ^ (Nat.log2 n / 2 + 2))

/-- A rational that rounds as √v does into any format of at most 60 significant bits. -/
def sqrtR (v : Rat) : Rat :=
  let k : Int := 64 - ilogR v / 2
  let w := v * pow2 (2 * k)
  let n := w.floor.toNat
  let r := isqrt n
  let exact := decide ((n : Rat) = w) && r * r == n
  ((2 * r + (if exact then 0 else 1) : Nat) : Rat) * pow2 (-k - 1)

def sqrtIn (f : Fmt) (a : Num) : Calc Num :=
  match a with
  | .nan _ => nanOf a a
  | .inf false => pure (.inf false)
  | .inf true => invalidNaN
  | .zero n => pure (.zero n)
  | .fin v => if v < 0 then invalidNaN else roundTo f (sqrtR v) false

def fadd := addIn .fp32
def fsub (a b : Num) : Calc Num := addIn .fp32 a b.flip
def fmul := mulIn .fp32
def fdiv := divIn .fp32
def fsqrt := sqrtIn .fp32

/-- Convert a value into a wide format (R193). -/
def toWide (f : Fmt) (x : Num) : Calc Num :=
  match x with
  | .nan _ => nanOf x x
  | .inf n => pure (.inf n)
  | .zero n => pure (.zero n)
  | .fin v => roundTo f v false

/-! ## The vector unit's functions (R197): the exact value to well beyond 24 bits, moved by at most 2 units in the last place -/

/-- ln 2 and 2/√π to 128 binary places. -/
def ln2R : Rat := (0xB17217F7D1CF79ABC9E3B39803F2F6AF : Nat) / (2 ^ 128 : Nat)
def twoOverSqrtPi : Rat := (0x120DD750429B6D11AE3A914FED7FD8688 : Nat) / (2 ^ 128 : Nat)

/-- A number cut to 128 binary places. -/
def cut (v : Rat) : Rat := ((v * pow2 128).floor : Rat) * pow2 (-128)

/-- Σ_{i<n} of terms, each the former times a factor. -/
def seriesGo : Nat → Nat → Rat → (Nat → Rat) → Rat → Rat
  | 0, _, _, _, acc => acc
  | k + 1, i, term, f, acc => seriesGo k (i + 1) (cut (term * f (i + 1))) f (acc + term)

def expR (x : Rat) : Rat :=
  let k := rne (x / ln2R)
  let r := cut (x - (k : Rat) * ln2R)
  seriesGo 34 0 1 (fun i => r / (i : Rat)) 0 * pow2 k

/-- ln of a positive number. -/
def lnR (v : Rat) : Rat :=
  let e := ilogR v
  let m := v * pow2 (-e)
  let (m, e) := if (3 / 2 : Rat) ≤ m then (m / 2, e + 1) else (m, e)
  let z := cut ((m - 1) / (m + 1))
  let s := (List.range 32).foldl (fun (acc : Rat × Rat) i => (acc.1 + acc.2 / ((2 * i + 1 : Nat) : Rat), cut (acc.2 * z * z))) (0, z)
  2 * s.1 + (e : Rat) * ln2R

def erfR (x : Rat) : Rat :=
  if 4 ≤ absR x then (if x < 0 then -1 else 1)
  else
    let s := (List.range 96).foldl (fun (acc : Rat × Rat) i =>
      (acc.1 + acc.2 / ((2 * i + 1 : Nat) : Rat), cut (-(acc.2 * x * x) / ((i + 1 : Nat) : Rat)))) (0, x)
    twoOverSqrtPi * s.1

/-- A binary32 value within 2 units in the last place of an exact one: one of the two on either side of it and their neighbours, as the
implementation has it (log 7); one that the format lacks there gives the nearest. -/
def moveUlp (fn : Nat) (arg : Nat) (v : Rat) : Num × RoundFlag :=
  let u := pow2 (ilogR v - 23)
  let near := Fmt.fp32.roundWide v
  match near with
  | (.fin _, _) =>
    let y := Fmt.fp32.roundWide ((((v / u).floor + ((Config.vecUlp fn arg % 4 : Nat) - 1) : Int) : Rat) * u)
    if y.2 = .exactOrRounded ∧ absR (y.1.rat - v) ≤ 2 * u then y else near
  | x => x

/-- In ZD1 emulation the ZD1's own implementation runs, of which the manual says nothing: a free value (R208, log 7). A subnormal one is
flushed, and an infinity or a NaN raises its flag (R187, R205). -/
def zd1Round (fn : Nat) (x : Num) : Calc Num := do
  let p := Config.zd1Fn fn (f32OfNum x)
  let y := Fmt.fp32.decodeWide p
  if y.isNaN then flagInvalid
  else if y.isInf ∧ x.isFinite then flagOverflow
  else if y.isZero ∧ p % 2 ^ 31 ≠ 0 then flagFlush
  return y

def vecRound (fn : Nat) (x : Num) (v : Rat) : Calc Num := do
  if (← get).emu then zd1Round fn x
  else if v = 0 then pure (.zero false)
  else do
    match moveUlp fn (f32OfNum x) v with
    | (y, .overflowed) => flagOverflow; return y
    | (y, .flushed) => flagFlush; return y
    | (y, .exactOrRounded) => return y

def fexp (x : Num) : Calc Num :=
  match x with
  | .nan _ => nanOf x x
  | .inf true => pure (.zero false)
  | .inf false => pure (.inf false)
  | .zero _ => vecRound 0 x 1
  | .fin v => if 100 ≤ v then (do flagOverflow; return .inf false) else if v ≤ -100 then (do flagFlush; return .zero false) else vecRound 0 x (expR v)

def fln (x : Num) : Calc Num :=
  match x with
  | .nan _ => nanOf x x
  | .inf false => pure (.inf false)
  | .zero _ => do flagOverflow; return .inf true
  | .inf true => invalidNaN
  | .fin v => if v < 0 then invalidNaN else if v = 1 then pure (.zero false) else vecRound 1 x (lnR v)

def ferf (x : Num) : Calc Num :=
  match x with
  | .nan _ => nanOf x x
  | .inf n => vecRound 2 x (if n then -1 else 1)
  | .zero n => pure (.zero n)
  | .fin v => vecRound 2 x (erfR v)

def ftanh (x : Num) : Calc Num :=
  match x with
  | .nan _ => nanOf x x
  | .inf n => vecRound 3 x (if n then -1 else 1)
  | .zero n => pure (.zero n)
  | .fin v =>
    if 20 ≤ absR v then vecRound 3 x (if v < 0 then -1 else 1)
    else if absR v < pow2 (-20) then vecRound 3 x (v - v * v * v / 3)
    else let e := expR (2 * v); vecRound 3 x ((e - 1) / (e + 1))

def fsigmoid (x : Num) : Calc Num :=
  match x with
  | .nan _ => nanOf x x
  | .inf n => if n then pure (.zero false) else vecRound 4 x 1
  | .zero _ => vecRound 4 x (1 / 2)
  | .fin v =>
    if v ≤ -100 then (do flagFlush; return .zero false)
    else if 100 ≤ v then vecRound 4 x 1
    else vecRound 4 x (1 / (1 + expR (-v)))

def frsqrt (x : Num) : Calc Num :=
  match x with
  | .nan _ => nanOf x x
  | .inf false => pure (.zero false)
  | .inf true => invalidNaN
  | .zero n => do flagOverflow; return .inf n
  | .fin v => if v < 0 then invalidNaN else vecRound 5 x (1 / sqrtR v)

/-- A reduction along a row: lane i mod 64 in ascending i, then the lanes halved down to lane 0 (R197). -/
def laneSum (xs : List Num) : Calc Num := do
  let lane (l : Nat) : Calc (Option Num) :=
    (List.range ((xs.length + 63 - l) / 64)).foldlM (fun (acc : Option Num) i =>
      match acc, xs[64 * i + l]? with
      | none, y => pure y
      | some a, some y => do return some (← fadd a y)
      | some a, none => pure (some a)) none
  let lanes ← (List.range 64).mapM lane
  let fold (ls : List (Option Num)) (h : Nat) : Calc (List (Option Num)) :=
    (List.range h).mapM (fun j =>
      match ls.getD j none, ls.getD (j + h) none with
      | some a, some b => do return some (← fadd a b)
      | a, none => pure a
      | none, b => pure b)
  let ls ← fold lanes 32
  let ls ← fold ls 16
  let ls ← fold ls 8
  let ls ← fold ls 4
  let ls ← fold ls 2
  let ls ← fold ls 1
  return ((ls.getD 0 none).getD (.zero false))

/-! ## Activations and their derivatives (R124, R263) -/

def one : Num := .fin 1

def half : Num := .fin (1 / 2)
/-- √2, √(2/π), 1/√(2π), and the two factors of R124 and R263, in FP32. -/
def sqrt2 : Num := numOfF32 0x3FB504F3
def sqrt2OverPi : Num := numOfF32 0x3F4C422A
def invSqrt2Pi : Num := numOfF32 0x3ECC422A
def geluCube : Num := numOfF32 0x3D372713
def geluSquare : Num := numOfF32 0x3E095D4F

/-- Beyond ±14 the tails of GELU lie below the smallest normal number, and softplus rounds to z or to e^z beyond 32 or −17. -/
def tail (z : Num) (v : Rat) : Bool := match z with
  | .inf _ => true
  | .fin x => decide (v ≤ absR x)
  | _ => false

/-- A value below the smallest normal number in a tail on the negative side: −0, flushed unless the tail is −infinity itself. -/
def flushedTail (z : Num) : Calc Num := do
  if z.isFinite then flagFlush
  return .zero true

/-- 1 + erf(z/√2). -/
def onePlusErf (z : Num) : Calc Num := do fadd one (← ferf (← fdiv z sqrt2))

/-- tanh(√(2/π) × (z + 0.044715 z³)); in the tails, where that is ±1 to well beyond FP32, tanh(z). -/
def geluTanh (z : Num) : Calc Num := do
  if tail z 14 then ftanh z
  else ftanh (← fmul sqrt2OverPi (← fadd z (← fmul geluCube (← fmul (← fmul z z) z))))

/-- An activation, by its formula with each operation rounded (R124); where the tails would be lost in a rounding they are
formed apart (DESIGN CHOICE, log 72). -/
def actF (fn : Nat) (z : Num) : Calc Num := do
  if z.isNaN then nanOf z z
  else if fn = 0 then return z
  else if fn = 1 then return (if z.neg || z.isZero then .zero false else z)
  else if fn = 2 then
    let p : Num := if z.neg || z.isZero then .zero false else z
    fmul p p
  else if fn = 3 then
    if tail z 14 && z.neg then flushedTail z else fmul (← fmul z half) (← onePlusErf z)
  else if fn = 4 then
    if tail z 14 && z.neg then flushedTail z else fmul (← fmul z half) (← fadd one (← geluTanh z))
  else if fn = 5 then fmul z (← fsigmoid z)
  else if fn = 6 then fsigmoid z
  else if fn = 7 then ftanh z
  else if tail z 32 && !z.neg then return z
  else if tail z 17 && z.neg then fexp z
  else fln (← fadd one (← fexp z))

/-- A derivative, by its formula as an activation is; at the infinities the values of R263. -/
def actD (fn : Nat) (z : Num) : Calc Num := do
  if z.isNaN then nanOf z z
  else if fn = 0 then return one
  else if fn = 1 then return (if z.neg || z.isZero then .zero false else one)
  else if z.isInf then
    (if fn = 2 then return (if z.neg then .zero false else .inf false)
     else if fn = 6 ∨ fn = 7 then return .zero false
     else return (if z.neg then .zero false else one))
  else if fn = 2 then fmul (.fin 2) (if z.neg || z.isZero then .zero false else z)
  else if fn = 3 then
    if tail z 14 && z.neg then flushedTail z
    else
      let p ← fmul half (← onePlusErf z)
      if tail z 14 then return p
      else
        let d ← fmul invSqrt2Pi (← fexp (← fmul half (← fmul z z)).flip)
        fadd p (← fmul z d)
  else if fn = 4 then
    if tail z 14 && z.neg then flushedTail z
    else
      let t ← geluTanh z
      let p ← fmul half (← fadd one t)
      if tail z 14 then return p
      else
        let q ← fmul (← fmul half z) (← fsub one (← fmul t t))
        let r ← fmul sqrt2OverPi (← fadd one (← fmul geluSquare (← fmul z z)))
        fadd p (← fmul q r)
  else if fn = 5 then
    let g ← fsigmoid z
    if tail z 100 && !z.neg then return g
    else fmul g (← fadd one (← fmul z (← fsub one g)))
  else if fn = 6 then
    let g ← fsigmoid z
    fmul g (← fsub one g)
  else if fn = 7 then
    let h ← ftanh z
    fsub one (← fmul h h)
  else fsigmoid z

/-! ## Products (R195, R196) -/

/-- The exact sum of one group, rounded once. -/
def groupSum (ps : List (Num × Num)) : Calc Num := do
  let fins := ps.filter (fun p => p.1.isFinite && p.2.isFinite)
  let exact := fins.foldl (fun (a : Rat) p => a + p.1.rat * p.2.rat) 0
  let allNegZero := fins.all (fun p => (p.1.isZero || p.2.isZero) && (p.1.neg != p.2.neg))
  let fsum ← roundTo .fp32 exact (allNegZero && !fins.isEmpty)
  let hasNaN := ps.any (fun p => p.1.isNaN || p.2.isNaN || (p.1.isInf && p.2.isZero) || (p.1.isZero && p.2.isInf))
  let infs := ps.filter (fun p => p.1.isInf || p.2.isInf)
  let signs := infs.map (fun p => p.1.neg != p.2.neg)
  if hasNaN || (signs.contains true && signs.contains false) then invalidNaN
  else match signs with
    | b :: _ => return .inf b
    | [] => return fsum

/-- One level of the tree: pairs added, a lone child passed up. -/
def pairUp : List Num → Calc (List Num)
  | a :: b :: r => do
    let x ← fadd a b
    let rest ← pairUp r
    return x :: rest
  | r => pure r

/-- A chunk of at most 16 group sums. -/
def chunkSum (gs : List Num) : Calc Num := do
  let l ← pairUp gs
  let l ← pairUp l
  let l ← pairUp l
  let l ← pairUp l
  return l.headD (.zero false)

/-- A contraction in native numerics, from an initial accumulator. -/
def dotNative (acc : Num) (xs ys : List Num) : Calc Num := do
  let ps := xs.zip ys
  let groups := chunks 64 (ps.length / 64 + 1) ps
  let sums ← groups.mapM groupSum
  (chunks 16 (sums.length / 16 + 1) sums).foldlM (fun a c => do fadd a (← chunkSum c)) acc

/-! ## ZD1 emulation (R208) -/

/-- Chunks of 16 products in ascending index, each product and each addition rounded. -/
def dotEmu (acc : Num) (xs ys : List Num) : Calc Num :=
  (chunks 16 (xs.length / 16 + 1) (xs.zip ys)).foldlM (fun a c => do
    match c with
    | [] => return a
    | p :: r => do
      let first ← fmul p.1 p.2
      let s ← r.foldlM (fun t q => do fadd t (← fmul q.1 q.2)) first
      fadd a s) acc

def dotIn (emu : Bool) (acc : Num) (xs ys : List Num) : Calc Num := if emu then dotEmu acc xs ys else dotNative acc xs ys

/-! ## Random words (R189) -/

def rngRound (z : Nat) : Nat :=
  let w := 2 ^ 64
  let z := ((z ^^^ (z >>> 30)) * 0xBF58476D1CE4E5B9) % w
  let z := ((z ^^^ (z >>> 27)) * 0x94D049BB133111EB) % w
  z ^^^ (z >>> 31)

def rngWord (seed step tile offset : Nat) : Nat :=
  rngRound (rngRound ((seed + step * 0x9E3779B97F4A7C15 + (tile * 2 ^ 32 + offset) * 0xD1B54A32D192ED03) % 2 ^ 64))

/-! ## Conversion into a narrow format (R191, R192) -/

/-- The magnitude grid of a narrow format around |v| ≤ Emax: the spacing of the grid at |v|. -/
def Fmt.quantum (f : Fmt) (v : Rat) : Rat :=
  match f with
  | .int _ => 1
  | _ =>
    let (m, e0) := f.small
    if v = 0 then pow2 (e0 - m) else pow2 (max (ilogR v) e0 - m)

/-- The code of a magnitude on the grid, with its sign. -/
def Fmt.encodeElem (f : Fmt) (mag : Rat) (neg : Bool) : Nat :=
  match f with
  | .int b =>
    if b ≤ 1 then (if neg then 1 else 0)
    else ofSigned b (if neg then -(mag.floor) else mag.floor)
  | _ =>
    let (m, e0) := f.small
    let s := if neg then 2 ^ (f.width - 1) else 0
    if mag = 0 then s
    else
      let e := ilogR mag
      if e < e0 then s + (mag / pow2 (e0 - m)).floor.toNat
      else s + ((e - e0 + 1).toNat) * 2 ^ m + ((mag / pow2 (e - m)).floor.toNat - 2 ^ m)

/-- The least E4M3 scale at or above a number, held to 2^−9 … 448 (R192). -/
def roundUpScale (q : Rat) : Rat :=
  if q ≤ pow2 (-9) then pow2 (-9)
  else if 448 ≤ q then 448
  else
    let u := Fmt.e4m3.quantum q
    let r := ((q / u).ceil : Rat) * u
    if 448 < r then 448 else r

def scaleByte (v : Rat) : Nat := Fmt.e4m3.encodeElem v false

/-- How a conversion rounds: to nearest even, or stochastically with the random word of each element. -/
inductive Rounding where
  | nearest
  | stochastic (word : Nat → Nat)

/-- What a conversion finds, for the layer counters (R222). -/
structure ConvStat where
  converted : Nat := 0
  saturated : Nat := 0
  nonzero : Nat := 0
  underflowed : Nat := 0
  fullSat : Nat := 0
  nonfinite : Nat := 0
  maxAbs : Rat := 0
  deriving DecidableEq, Repr

def ConvStat.add (a b : ConvStat) : ConvStat :=
  ⟨a.converted + b.converted, a.saturated + b.saturated, a.nonzero + b.nonzero, a.underflowed + b.underflowed,
   a.fullSat + b.fullSat, a.nonfinite + b.nonfinite, max a.maxAbs b.maxAbs⟩

def maxFinite (xs : List Num) : Rat := xs.foldl (fun m x => max m (absR x.rat)) 0

/-- One element against its scale: its code, whether it saturated, whether it drew a random word. -/
def Fmt.convElem (f : Fmt) (r : Rounding) (i : Nat) (x : Num) (s : Rat) : Nat × Bool × Bool :=
  let v := absR x.rat / s
  let emax : Rat := (f.emax : Nat)
  if emax < v then (f.encodeElem emax x.neg, true, false)
  else if f = .int 1 then (f.encodeElem 1 x.neg, false, false)
  else
    let q := f.quantum v
    let lo := ((v / q).floor : Rat) * q
    match r with
    | .nearest => (f.encodeElem (((rne (v / q) : Int) : Rat) * q) x.neg, false, false)
    | .stochastic word =>
      if lo = v then (f.encodeElem v x.neg, false, true)
      else
        let d := ((v - lo) / q * 65536).floor.toNat
        (f.encodeElem (if word i % 65536 < d then lo + q else lo) x.neg, false, true)

/-- A block as it is written: codes, scale byte. -/
structure BlockOut where
  codes : List Nat
  scale : Nat
  deriving DecidableEq, Repr


/-- Convert one block whose first element has index i0; `scale` none is the block mode. Every element of a poisoned block is a NaN
written (R185, R222). -/
def Fmt.convBlock (f : Fmt) (scale : Option Rat) (r : Rounding) (i0 : Nat) (xs : List Num) : Calc (BlockOut × ConvStat) := do
  if xs.any Num.bad then
    modify (fun (t : NumStat) => { t with status := t.status ||| stPoisoned, pb := t.pb + 1 })
    if xs.any Num.isNaN then flagInvalid
    return (⟨xs.map (fun _ => 0), 0x7F⟩, { nonfinite := xs.length, maxAbs := maxFinite xs })
  else
    let nz := (xs.filter (fun x => !x.isZero)).length
    let a := maxFinite xs
    let s := match scale with
      | some v => roundUpScale v
      | none => roundUpScale (a / (f.emax : Nat))
    let es := (xs.zipIdx.map (fun p => (p.1, f.convElem r (i0 + p.2) p.1 s)))
    let zeroElem (c : Nat) : Bool := match f.decodeElem c with | .zero _ => true | _ => false
    let allZero := nz = 0 || (decide (f ≠ .int 1) && es.all (fun e => zeroElem e.2.1))
    let sat := (es.filter (fun e => e.2.2.1)).length
    let ufl := (es.filter (fun e => !e.1.isZero && decide (f ≠ .int 1) && zeroElem e.2.1)).length
    let sr := (es.filter (fun e => e.2.2.2)).length
    modify (fun (t : NumStat) => { t with
      status := t.status ||| (if 0 < sat then stSaturated else 0) ||| (if 0 < ufl then stUnderflowed else 0)
        ||| (if allZero then stZeroBlock else 0),
      sat := t.sat + sat, ufl := t.ufl + ufl, zb := t.zb + (if allZero then 1 else 0), sr := t.sr + sr })
    let st : ConvStat := ⟨xs.length, sat, nz, ufl, if sat = 32 then 1 else 0, 0, a⟩
    if allZero then return (⟨xs.map (fun _ => 0), 0⟩, st)
    else return (⟨es.map (fun e => e.2.1), scaleByte s⟩, st)

/-- Elements packed b bits each, from bit 0 of byte 0 upwards, into a given number of bytes. -/
def packBits (b : Nat) (codes : List Nat) (bytes : Nat) : List Byte :=
  leBytes bytes ((codes.foldr (fun c acc => acc * 2 ^ b + c % 2 ^ b) 0))

/-- A block group's bytes from its blocks. -/
def Fmt.groupOut (f : Fmt) (bs : List BlockOut) : List Byte :=
  packBits f.width (bs.flatMap (fun b => b.codes ++ List.replicate (32 - b.codes.length) 0)) (256 * f.width)
    ++ (bs.map (fun b => BitVec.ofNat 8 b.scale) ++ zeros (64 - bs.length))

/-- Convert a tensor into a narrow format: its bytes and what was counted; the first element has index i0. -/
def Fmt.convTensor (f : Fmt) (scale : Option Rat) (r : Rounding) (i0 : Nat) (xs : List Num) : Calc (List Byte × ConvStat) := do
  let blocks := chunks 32 (xs.length / 32 + 1) xs
  let outs ← blocks.zipIdx.mapM (fun p => f.convBlock scale r (i0 + 32 * p.2) p.1)
  let groups := chunks 64 (outs.length / 64 + 1) (outs.map (·.1))
  return (groups.flatMap f.groupOut, outs.foldl (fun a o => a.add o.2) {})

/-- Write values in a wide format: NaNs are counted as they are written (R211). -/
def Fmt.wideTensor (f : Fmt) (xs : List Num) : Calc (List Byte) := do
  let ys ← xs.mapM (toWide f)
  let n := (ys.filter Num.isNaN).length
  modify (fun (t : NumStat) => { t with nans := t.nans + n })
  return ys.flatMap (fun y => leBytes (f.width / 8) (f.encodeWide y))

end Sys2Proof.Machine
end

