-- ==== Sys2Proof/Machine/Flags.lean ====
section
/-! DEFINITION. Status bits, numeric counters and layer counters; the level, the range and the scale a layer's task works with; reading and writing of tensors (R185 to R193, R205, R210 to R222). -/

namespace Sys2Proof.Machine

/-! ## Layers (R213 to R221) -/

def State.emulating (s : State) : Bool := s.get 0x5000 1 == 1
/-- A fresh evaluation under the numerics in force. -/
def State.calc (s : State) {α : Type} (c : Calc α) : α × NumStat := c.run { emu := s.emulating }

def State.historySteps (s : State) : Nat := s.get 0x5200 1

/-- FORCE_LEVEL holds a layer at or below a level; no layer is at FALLBACK in ZD1 emulation (R232, R240). -/
def State.forced (s : State) : Nat :=
  let f := s.get 0x5300 8
  if f = 0xFF then 0 else if s.emulating ∧ f = 1 then 2 else f

/-- The level a layer stands at: 0 CONFIGURED, 1 FALLBACK, 2 WIDE. -/
def State.level (s : State) (i : Nat) : Nat :=
  match s.layerAt i with
  | none => 0
  | some l => if l.path = 2 then 2 else max (s.layer i).level s.forced

/-- The uniform dock input width of a layer at FALLBACK (R213). -/
def State.uniformWidth (s : State) (i : Nat) (l : LayerDef) : Nat :=
  let ws : List Nat := match s.plan with
    | none => []
    | some p => (p.docks.filter (fun (d : DockMap) => d.layerIdx == i)).map (fun (d : DockMap) => if d.blockWidth = 0 then l.inW else d.blockWidth)
  if ws = [] then max (s.get 0x5300 4) l.inW else ws.foldl max (s.get 0x5300 4)

/-- The input width at which a dock of a layer runs (R114). -/
def State.dockWidth (s : State) (i : Nat) (l : LayerDef) (e : DockMap) : Nat :=
  if s.level i = 1 then s.uniformWidth i l else if e.blockWidth = 0 then l.inW else e.blockWidth

/-- The classes IN, OUT and GRAD of a layer (R218). -/
def LayerSt.cls (x : LayerSt) (c : Nat) : ClassSt := if c = 0 then x.cin else if c = 1 then x.cout else x.cgrad
def LayerSt.setCls (x : LayerSt) (c : Nat) (y : ClassSt) : LayerSt :=
  if c = 0 then { x with cin := y } else if c = 1 then { x with cout := y } else { x with cgrad := y }

/-- Just-in-time mode: after a trip in the step, or while the history is incomplete (R221). -/
def State.jit (s : State) (i c : Nat) : Bool :=
  let x := (s.layer i).cls c
  x.jit || decide (x.hist.length < s.historySteps)

/-- The binary32 value nearest a rational. -/
def f32Round (v : Rat) : Rat := if v = 0 then 0 else (Fmt.fp32.roundWide v).1.rat

/-- The range of a class for a task whose source has a given largest magnitude (R220, R221). -/
def State.rangeFor (s : State) (i c : Nat) (a : Rat) : Rat :=
  if s.jit i c then (if a = 0 then 1 else a) else (numOfF32 ((s.layer i).cls c).range).rat

/-- The scale of a narrow destination in the layer mode, before it is rounded up to E4M3 (R218). -/
def State.layerScale (s : State) (i c : Nat) (f : Fmt) (a : Rat) : Rat := f32Round (s.rangeFor i c a / (f.emax : Nat))

/-- Gradient tasks (R214). -/
def Task.gradient (k : Task) : Bool :=
  k.opcode == 0x11 || k.opcode == 0x19 || (k.opcode == 0x28 && bit (k.w 6) 60)

/-- The format a level puts in place of one (R214). -/
def substitute (level fw gw : Nat) (grad : Bool) (f : Fmt) : Fmt :=
  if level = 0 then f
  else if level = 2 then (if f.narrow then .bf16 else f)
  else
    let w := if grad then gw else fw
    match f with
    | .int b => .int (max b w)
    | .fp4 => if grad then (if w = 4 then .fp4 else .e5m2) else (if w ≤ 4 then .fp4 else .e4m3)
    | g => g

/-- The substituted format of a task's field, for the class given. -/
def State.levelFmt (s : State) (k : Task) (grad : Bool) (f : Fmt) : Fmt :=
  match s.layerOf k with
  | none => f
  | some (i, _) => substitute (s.level i) (s.get 0x5300 4) (s.get 0x5300 5) grad f

def State.effFmt (s : State) (k : Task) (f : Fmt) : Fmt := s.levelFmt k k.gradient f

/-- At WIDE, or PATH 2 (R213, R217). -/
def State.isWide (s : State) (k : Task) : Bool := match s.layerOf k with
  | none => false
  | some (i, _) => s.level i == 2

/-! ## Tensors in memory (R186, R215) -/

/-- The format in which a narrow tensor is stored: the one a level put in place when it was written, else the descriptor's. -/
def State.storedFmt (s : State) (k : Task) (va : Nat) (f : Fmt) : Fmt :=
  if !f.narrow then f
  else match s.placeOf (s.taskTile k) k.ctx [(va, 1)] false with
    | (pa, _) :: _ => (match mget? s.stored pa with
      | some code => (Fmt.ofCode code).getD f
      | none => f)
    | [] => f

/-- A tensor is written in another format than its descriptor gives. -/
def State.noteStored (s : State) (k : Task) (va : Nat) (want eff : Fmt) : State :=
  if want = eff then s
  else match s.placeOf (s.taskTile k) k.ctx [(va, 1)] true with
    | (pa, _) :: _ => { s with stored := mset s.stored pa eff.code }
    | [] => s

/-- Read n elements: their values, how many scale bytes had their sign set, and the state after the access. -/
def State.readTensor (s : State) (t c va : Nat) (f : Fmt) (n : Nat) : Except AccFault ((List Num × Nat) × State) :=
  match s.readVa (some t) c va (f.bytes n) with
  | .error e => .error e
  | .ok (bs, s) => .ok (f.readTensor bs n, s)

/-- Write bytes at a virtual address. -/
def State.writeBytes (s : State) (t c va : Nat) (bs : List Byte) : Except AccFault State :=
  match s.writeVa (some t) c va bs with
  | .error e => .error e
  | .ok (_, s) => .ok s

/-- Ranges within parts of a tile's own SRAM; what does not translate is left to the access itself. -/
def State.within (s : State) (t c lo hi : Nat) (ranges : List (Nat × Nat)) (write : Bool) : Bool :=
  (s.placeOf (some t) c ranges write).all (fun p => decide (tileAddr t lo ≤ p.1 ∧ p.1 + p.2 ≤ tileAddr t hi))

/-- Working space of a tile, and the space from its ferry buffers on (R81). -/
def State.workSpan (s : State) (t : Nat) : Nat × Nat × Nat := match s.plan with
  | none => (0, 0, 0)
  | some p => match p.tilePart t with
    | none => (0, 0, 0)
    | some x => (x.ferryBase, x.workBase, x.holdBase)

def State.inWork (s : State) (t c : Nat) (ranges : List (Nat × Nat)) (write : Bool) : Bool :=
  let (_, w, h) := s.workSpan t
  s.within t c w h ranges write

def State.inWorkOrFerry (s : State) (t c : Nat) (ranges : List (Nat × Nat)) : Bool :=
  let (f, _, h) := s.workSpan t
  s.within t c f h ranges false

/-! ## Conversion into a destination (R191 to R193, R218 to R221) -/

/-- How the scale of a narrow destination is found (R192). -/
inductive ScaleMode where
  | layer | block | explicit (v : Rat)
  deriving DecidableEq, Repr

/-- Values as they are written: bytes, and what the layer's counters take of it. `want` is the descriptor's format, `eff` the
one written. -/
def State.destOut (s : State) (li : Option Nat) (c : Nat) (want eff : Fmt) (mode : ScaleMode) (r : Rounding) (xs : List Num) :
    Calc (List Byte × ConvStat) :=
  if eff.narrow then
    let scale : Option Rat := match mode, li with
      | .layer, some i => some (s.layerScale i c eff (maxFinite xs))
      | .explicit v, _ => some v
      | _, _ => none
    eff.convTensor scale r 0 xs
  else do
    let bs ← eff.wideTensor xs
    let bad := (xs.filter Num.bad).length
    let lost := ((eff.readTensor bs xs.length).1.filter Num.bad).length
    return (bs, { nonfinite := max bad lost, maxAbs := if want.narrow then maxFinite xs else 0 })

/-! ## Books (R205, R211, R212, R219, R222) -/

/-- Package totals. -/
def State.countNum (s : State) (n : NumStat) : State :=
  let add (s : State) (sub v : Nat) : State := if v = 0 then s else s.count 0x5001 sub 64 v
  add (add (add (add (add (add (add (add (add s 1 n.nans) 2 n.ovf) 3 n.flush) 4 n.sat) 5 n.ufl) 6 n.zb) 7 n.pb) 8 n.bs) 9 n.sr

/-- The numeric codes that LOG_MASK lets through, each at most once per task. -/
def State.logNum (s : State) (k : Task) (status : Nat) : State :=
  let mask := s.get 0x5000 2
  let one (s : State) (b code : Nat) : State :=
    if bit status b && bit mask b then s.logEv (s.ctxEv k.ctx code note 9 k.ctx (leBytes 2 k.layerId)) else s
  one (one (one (one (one s 7 0x3005) 6 0x3006) 4 0x3007) 1 0x3004) 0 0x3003

def State.bookNum (s : State) (k : Task) (n : NumStat) : State := (s.countNum n).logNum k n.status

/-- What a task of a layer records: the maximum of a class, its counts, and NONFINITE. At WIDE only the maximum and
NONFINITE count; a task of an alternate manifest records nothing (R283). -/
def State.bookLayer (s : State) (k : Task) (li : Option Nat) (c : Nat) (v : ConvStat) : State :=
  match li with
  | none => s
  | some i =>
    if k.alt then s
    else
      let x := s.layer i
      let y := x.cls c
      let y := { y with stepMax := max y.stepMax v.maxAbs }
      let y := if s.level i = 2 then y else
        { y with converted := y.converted + v.converted, saturated := y.saturated + v.saturated, nonzero := y.nonzero + v.nonzero,
                 underflowed := y.underflowed + v.underflowed, fullSat := y.fullSat + v.fullSat }
      s.setLayer i { x.setCls c y with nonfinite := x.nonfinite + v.nonfinite }

/-- NaN and infinity elements that a task consumed. -/
def badCount (xs : List Num) : Nat := (xs.filter Num.bad).length

def State.bookBad (s : State) (k : Task) (li : Option Nat) (n : Nat) : State :=
  if n = 0 then s else s.bookLayer k li 0 { nonfinite := n }

end Sys2Proof.Machine
end

