-- ==== Sys2Proof/Machine/FabricBase.lean ====
section
/-! DEFINITION. Hawser ports and messages: routes, credits, the replay buffer, transfers and their answers, convoys at a node (R356 to R374). -/

namespace Sys2Proof.Machine

/-! ## Routes (R368, R369, R385) -/

def State.ownDom (s : State) : Nat := s.get 0x2200 1
def State.ownPkg (s : State) : Nat := s.get 0x2200 2
def portIdx (p : Nat) : Nat := 0x7010 + p
/-- LINK_STATE of a port (R386): 0 DOWN, 1 TRAINING, 2 UP, 3 RETRAINING, 4 FAILED, 5 HELD. -/
def State.linkState (s : State) (p : Nat) : Nat := s.get (portIdx p) 2
def State.fabricDef (s : State) (p : Nat) : Option FabricDef := match s.plan with
  | none => none
  | some pl => pl.fabric.find? (fun f => f.port == p)

def portMask (ps : List Nat) : Nat := ps.foldl (fun m p => m ||| 2 ^ p) 0

/-- The mask that plan load gives a package. -/
def State.defaultRoute (s : State) (dom pkg : Nat) : Nat :=
  match s.plan with
  | none => 0
  | some pl =>
    if dom = s.ownDom ∧ pkg = s.ownPkg then 0
    else
      let fair := (pl.fabric.filter (fun f => f.mode == 2 && f.peerDom == dom && f.peerPkg == pkg)).map (·.port)
      if fair ≠ [] then portMask fair
      else if dom = s.ownDom then portMask ((pl.fabric.filter (fun f => f.mode == 1)).map (·.port))
      else 0

/-- ROUTE_TABLE as the host last wrote it, else as plan load filled it. -/
def State.routeMask (s : State) (dom pkg : Nat) : Nat :=
  match mget? s.blobs (key 0x7000 0) with
  | some bs => field bs (4 * (dom % 2 * 16384 + pkg % 16384)) 4
  | none => s.defaultRoute dom pkg

/-- The port that carries messages to a package on a channel. -/
def State.egress (s : State) (dom pkg vc : Nat) : Option Nat :=
  let m := s.routeMask dom pkg
  let on := (List.range 32).filter (fun i => bit m i)
  on[(pkg * 8 + vc) % (max 1 on.length)]?

/-- Whether a task may send to a package on a channel (R363, R369, R371). -/
def State.mayRoute (s : State) (c dom pkg vc : Nat) : Except AccFault Nat :=
  if vc = 6 then .error (.refuse 0x5002)
  else match s.egress dom pkg vc with
    | none => .error (.refuse 0x5001)
    | some p =>
      if s.linkState p = 5 then .error (.refuse 0x5001)
      else if s.linkState p = 4 then .error (.job 0x5006 9 c [])
      else match s.fabricDef p with
        | none => .error (.refuse 0x5002)
        | some f => if bit f.vcMask vc then .ok p else .error (.refuse 0x5002)

/-! ## The link layer (R357, R359, R361, R362) -/

/-- Flits of a message: a header flit with up to 192 bytes of its payload, and as many data flits as the rest takes. -/
def msgFlits (m : Msg) : Nat := 1 + ceilDiv (m.payload.length - 192) 256

/-- The 64 bytes of a message's header (R365). -/
def msgHeader (m : Msg) : List Byte :=
  let place (dom pkg : Nat) : List Byte := leBytes 2 (pkg % 2 ^ 14 + dom % 2 * 2 ^ 15)
  leBytes 1 m.typ ++ leBytes 1 (m.vc % 8 + (if m.express then 8 else 0) + (if m.last then 16 else 0)) ++ place m.srcDom m.srcPkg
    ++ place m.dstDom m.dstPkg ++ leBytes 1 m.ctx ++ leBytes 1 m.hops ++ leBytes 2 m.plen ++ leBytes 6 m.dstAddr ++ leBytes 6 m.srcAddr
    ++ leBytes 2 m.convoy ++ leBytes 2 m.bollard ++ [0, 0] ++ leBytes 4 m.increment ++ leBytes 8 m.transfer ++ leBytes 4 m.step
    ++ leBytes 4 m.epoch ++ (m.typeData ++ zeros (16 - m.typeData.length))

/-- The flits of a message, of 256 bytes each, and the CRC-32 that each carries (R357, R359). -/
def msgWire (m : Msg) : List (List Byte) :=
  (chunks 256 (msgFlits m) (msgHeader m ++ m.payload)).map (fun f => f ++ zeros (256 - f.length))
def flitCheck (f : List Byte) : Nat := crc32 f

def replayFlits : Nat := 1024

def State.port (s : State) (p : Nat) : Port :=
  mgetD s.fabric.ports p ⟨(List.range 8).map (fun v => s.get 0x7030 (v + 1)), 0, 0, [], [], [], (0, 0), 0, []⟩

def State.setPort (s : State) (p : Nat) (x : Port) : State :=
  { s with fabric := { s.fabric with ports := mset s.fabric.ports p x } }

/-- Send flits of the waiting messages as far as credits and the replay buffer allow, in order on each channel. Answers
what still waits, the port, and the messages wholly sent. -/
def Port.drain (q : List (Msg × Nat)) (stuck : List Nat) (x : Port) : List (Msg × Nat) × Port × List Msg :=
  match q with
  | [] => ([], x, [])
  | (m, left) :: r =>
    if stuck.contains m.vc then
      let (q', x', out) := Port.drain r stuck x
      ((m, left) :: q', x', out)
    else
      let n := min left (min (x.credits.getD m.vc 0) (replayFlits - (x.tx - x.acked)))
      let x := { x with credits := x.credits.set m.vc (x.credits.getD m.vc 0 - n), tx := x.tx + n }
      if n = left then
        let (q', x', out) := Port.drain r stuck { x with replay := x.replay ++ [(x.tx, m)] }
        (q', x', m :: out)
      else
        let (q', x', out) := Port.drain r (m.vc :: stuck) x
        ((m, left - n) :: q', x', out)

/-- A port has taken a message out of its receive buffer: its flits' credits go back, with the sequence number expected next. -/
def State.returnCredit (s : State) (p vc n : Nat) : State := s.emit (.creditReturn p vc n ((s.port p).rx % 4096))

/-- A message in transit has wholly left: the port where it had arrived returns its credits (R362). -/
def State.returnHeld (s : State) (m : Msg) : State :=
  match s.fabric.ports.find? (fun e => e.2.held.any (fun h => h.2 == m)) with
  | none => s
  | some (p, x) => (s.setPort p { x with held := x.held.eraseP (fun h => h.2 == m) }).returnCredit p m.vc (msgFlits m)

/-- A port that is UP sends what it can. -/
def State.pump (s : State) (p : Nat) : State :=
  if s.linkState p ≠ 2 then s
  else
    let x := s.port p
    let (q, x, out) := Port.drain x.queue [] x
    let s := s.setPort p { x with queue := q }
    out.foldl (fun s m => ((s.count 0x7040 1 64 1).emit (.fabric p m)).returnHeld m) s

/-- Hand a message to the port its route gives; a message with no route is not sent, and one for a FAILED port is lost. -/
def State.sendMsg (s : State) (m : Msg) : State :=
  match s.egress m.dstDom m.dstPkg m.vc with
  | none => s
  | some p =>
    if s.linkState p = 4 then s
    else
      let x := s.port p
      (s.setPort p { x with queue := x.queue ++ [(m, (msgFlits m))] }).pump p

/-- An event of a port. -/
def portEv (code sev p : Nat) (detail : List Byte := []) : Ev := { code := code, severity := sev, kind := 6, id := p, detail := detail }

/-! ## Messages and transfers (R365, R366) -/

/-- A message of this package, its payload and addresses still to be filled in. -/
def State.message (s : State) (typ vc dom pkg c xid : Nat) : Msg :=
  { typ := typ, vc := vc, express := false, last := false, srcDom := s.ownDom, srcPkg := s.ownPkg, dstDom := dom, dstPkg := pkg,
    ctx := c, hops := 0, dstAddr := 0, srcAddr := 0, plen := 0, convoy := 0xFFFF, bollard := 0, increment := 0,
    transfer := xid, step := s.stepOf c % 2 ^ 32, epoch := s.epochOf c, typeData := zeros 16, payload := [], origin := 0 }

/-- The tile field of TRANSFER_ID in the harbourmaster's own transfers (log 32). -/
def hmTile : Nat := 0xFFFF

/-- A new TRANSFER_ID of a tile. -/
def State.newTid (s : State) (tile : Nat) : Nat × State :=
  (tile * 2 ^ 48 + s.fabric.nextSeq % 2 ^ 48, { s with fabric := { s.fabric with nextSeq := s.fabric.nextSeq + 1 } })

def State.setXfer (s : State) (xid : Nat) (x : Xfer) : State :=
  { s with fabric := { s.fabric with xfers := mset s.fabric.xfers xid x } }
def State.dropXfer (s : State) (xid : Nat) : State :=
  { s with fabric := { s.fabric with xfers := merase s.fabric.xfers xid } }
def State.xfer? (s : State) (xid : Nat) : Option Xfer := mget? s.fabric.xfers xid

/-- Bytes become PUT-like messages of one transfer, cut at the destination's 4 KiB boundaries; the last raises the bollard. -/
def msgSplit (m : Msg) (dst : Nat) (bs : List Byte) (bollard inc : Nat) : List Msg :=
  let us := unitsOf dst bs.length
  us.zipIdx.map (fun (u, i) =>
    let l := decide (i + 1 = us.length)
    { m with dstAddr := dst + u.1, plen := u.2, payload := sub_ bs u.1 u.2, last := l,
             bollard := if l then bollard else 0, increment := if l then inc else 0 })

/-- Send a transfer's messages, to be answered for its owner. -/
def State.sendXfer (s : State) (owner : XOwner) (c dom pkg port xid : Nat) (group : Bool) (ms : List Msg) : State :=
  ms.foldl State.sendMsg (s.setXfer xid ⟨owner, c, dom, pkg, port, ms.length, group⟩)

/-- A task waits for the answers of a transfer. -/
def State.awaits (s : State) (t id xid : Nat) : State :=
  s.modTask t id (fun k => { k with unanswered := k.unanswered ++ [xid] })

/-- A task's transfer is wholly answered. -/
def State.answered (s : State) (t id xid : Nat) : State :=
  (s.modTask t id (fun k => { k with unanswered := k.unanswered.filter (· != xid) })).settleLoad t id

/-- The answer to a message, on channel 6. -/
def State.answer (s : State) (typ : Nat) (m : Msg) (typeData : List Byte) : State :=
  s.sendMsg { s.message typ 6 m.srcDom m.srcPkg m.ctx m.transfer with typeData := typeData ++ zeros (16 - typeData.length) }

def State.ack (s : State) (m : Msg) : State := s.answer 0x09 m []
def State.nack (s : State) (m : Msg) (code : Nat) : State := s.answer 0x0A m (leBytes 2 code)

/-- A message is dropped (0x5003). -/
def State.dropMsg (s : State) (p : Nat) : State := (s.count 0x7040 4 64 1).logEv (portEv 0x5003 warning p)

/-- A signal from the fabric: raised where the bollard lies in a range, else dropped with 0x1308 (R311). -/
def State.landSignal (s : State) (c b inc : Nat) : State :=
  if inc = 0 then s
  else match s.bollardOwner b with
    | some _ => s.raise b inc true
    | none => s.logEv (s.ctxEv c 0x1308 warning 9 c)

/-! ## Convoys at a node (R372 to R374) -/

/-- This package's place in a convoy: its node index, if it has one. -/
def ConvoyDef.indexOf (d : ConvoyDef) (pkg : Nat) : Option Nat := d.nodes.findIdx? (fun n => n.pkg == pkg)
def ConvoyDef.root (d : ConvoyDef) : Nat := match d.nodes.find? (fun n => n.parent == 0xFFFF) with
  | some n => n.pkg
  | none => 0xFFFF
/-- The packages below a node. -/
def ConvoyDef.childrenOf (d : ConvoyDef) (i : Nat) : List Nat := (d.nodes.filter (fun n => n.parent == i)).map (·.pkg)

def State.convoyDef (s : State) (c : Nat) : Option ConvoyDef := match s.plan with
  | none => none
  | some p => p.convoy c

/-- This package is the root of a convoy. -/
def State.isRoot (s : State) (c : Nat) : Bool := match s.convoyDef c with
  | none => false
  | some d => d.root == s.ownPkg

def State.convoyKids (s : State) (c : Nat) : List Nat := match s.convoyDef c with
  | none => []
  | some d => match d.indexOf s.ownPkg with
    | none => []
    | some i => d.childrenOf i

/-- The parent of this node in a convoy. -/
def State.convoyParent (s : State) (c : Nat) : Option Nat := match s.convoyDef c with
  | none => none
  | some d => match d.nodes.find? (fun n => n.pkg == s.ownPkg) with
    | none => none
    | some n => (d.nodes[n.parent]?).map (·.pkg)

def edgeKey (convoy child : Nat) : Nat := convoy * 65536 + child
def State.edge (s : State) (convoy child : Nat) : Edge := mgetD s.fabric.edges (edgeKey convoy child) ⟨0, [], false, false⟩
def State.setEdge (s : State) (convoy child : Nat) (e : Edge) : State :=
  { s with fabric := { s.fabric with edges := mset s.fabric.edges (edgeKey convoy child) e } }

def Relay.mod (r : Relay) (pkg : Nat) (f : RelayChild → RelayChild) : Relay :=
  { r with children := r.children.map (fun c => if c.pkg = pkg then f c else c) }

def State.relay? (s : State) (tid : Nat) : Option Relay := s.fabric.relays.find? (fun r => r.tid == tid)
def State.setRelay (s : State) (r : Relay) : State :=
  { s with fabric := { s.fabric with relays := s.fabric.relays.map (fun x => if x.tid = r.tid then r else x) } }
def State.addRelay (s : State) (r : Relay) : State := { s with fabric := { s.fabric with relays := s.fabric.relays ++ [r] } }
def State.dropRelay (s : State) (tid : Nat) : State :=
  { s with fabric := { s.fabric with relays := s.fabric.relays.filter (fun r => r.tid != tid) } }

/-- A message of a multicast still waits on the edge to some attached child. -/
def State.edgeWaits (s : State) (convoy : Nat) (m : Msg) : Bool :=
  (s.convoyKids convoy).any (fun k => (s.edge convoy k).waiting.any (fun w => w.transfer == m.transfer && w.dstAddr == m.dstAddr))

/-- This node's children hold its credit returns: something waits on the edge to one of them. -/
def State.kidsHold (s : State) (convoy : Nat) : Bool := (s.convoyKids convoy).any (fun k => (s.edge convoy k).waiting != [])

/-- A node that is not the root returns credit to its parent, marked as held where its children hold it (R372, R373). -/
def State.creditUp (s : State) (convoy flits : Nat) : State := match s.convoyParent convoy with
  | none => s
  | some q => s.emit (.convoyCredit convoy q flits (s.kidsHold convoy))

/-- A message has left the edge to a child: as the last to take it, that child frees its credit. -/
def State.forwarded (s : State) (convoy : Nat) (m : Msg) : State := if s.edgeWaits convoy m then s else s.creditUp convoy (msgFlits m)

/-- Send the messages of an edge that its credit admits; a message longer than the whole credit goes alone (log 16). -/
def State.pumpEdge (s : State) (convoy child : Nat) : Nat → State
  | 0 => s
  | n + 1 =>
    let e := s.edge convoy child
    match e.waiting with
    | [] => s
    | m :: r =>
      if e.used = 0 ∨ e.used + (msgFlits m) ≤ s.get 0x7001 6 then
        (((s.setEdge convoy child { e with used := e.used + (msgFlits m), waiting := r }).sendMsg m).forwarded convoy m).pumpEdge convoy child n
      else s

def State.pumpEdges (s : State) (convoy child : Nat) : State := s.pumpEdge convoy child ((s.edge convoy child).waiting.length)

/-- DETACH: the transfer, where it starts at the receivers, its bollard and increment, and in its payload the offset F and the root's
source address (R373, log 33). -/
def State.sendDetach (s : State) (r : Relay) (child f : Nat) : State :=
  s.sendMsg { s.message 0x0C 6 s.ownDom child r.ctx r.tid with
    convoy := r.convoy, dstAddr := r.dst, bollard := r.bollard, increment := r.increment, step := r.step,
    plen := 16, payload := leBytes 8 f ++ leBytes 8 r.src }

/-- Put a message on the edge to every attached child of a transfer. -/
def State.queueAll (s : State) (r : Relay) (kids : List RelayChild) (m : Msg) : State :=
  kids.foldl (fun (s : State) c =>
    let e := s.edge r.convoy c.pkg
    s.setEdge r.convoy c.pkg { e with waiting := e.waiting ++ [{ m with srcDom := s.ownDom, srcPkg := s.ownPkg, dstPkg := c.pkg, hops := 0 }] }) s

/-- Pass a message on to every attached child of a transfer; with none attached its credit is free at once, and while it waits for
one the returns of this node are marked as held. -/
def State.forwardAll (s : State) (r : Relay) (m : Msg) : State :=
  let kids := r.children.filter (fun c => !c.detached)
  if kids = [] then s.creditUp r.convoy (msgFlits m)
  else
    let s := kids.foldl (fun (s : State) c => s.pumpEdges r.convoy c.pkg) (s.queueAll r kids m)
    if s.edgeWaits r.convoy m then s.creditUp r.convoy 0 else s

/-- A transfer begins at this node: a child whose edge is detached is told to fetch all of it. -/
def State.beginRelay (s : State) (r : Relay) : State :=
  let kids := (s.convoyKids r.convoy).map (fun k => (⟨k, 0, (s.edge r.convoy k).detached⟩ : RelayChild))
  let r := { r with children := kids }
  kids.foldl (fun s k => if k.detached then s.sendDetach r k.pkg 0 else s) (s.addRelay r)

/-- How many messages of a transfer every attached child has acknowledged. -/
def Relay.floor (r : Relay) : Nat :=
  (r.children.filter (fun c => !c.detached)).foldl (fun n c => min n c.acked) r.count

/-- Acknowledge to the parent what has become complete; at the root, the issuing task has its answer when all is. -/
def State.settleRelay (s : State) (tid : Nat) : State :=
  match s.relay? tid with
  | none => s
  | some r =>
    let n := r.floor - r.acked
    let s := s.setRelay { r with acked := r.floor }
    if s.isRoot r.convoy then
      match r.task with
      | some (t, _, id) => if r.last ∧ r.floor = r.count then s.answered t id tid else s
      | none => s
    else
      let s := match s.convoyParent r.convoy with
        | some q => iter n (fun _ s => s.sendMsg { s.message 0x09 6 s.ownDom q r.ctx tid with convoy := r.convoy }) s
        | none => s
      if r.last ∧ r.floor = r.count then s.dropRelay tid else s

/-- A multicast of bytes by a task of the root (R372, R380, R409). -/
def State.multicast (s : State) (t : Nat) (k : Task) (convoy vc src dst : Nat) (bs : List Byte) (bollard inc : Nat) (express : Bool) : State :=
  let (tid, s) := s.newTid t
  let base := { s.message 0x06 vc s.ownDom s.ownPkg k.ctx tid with convoy := convoy, express := express, origin := src }
  let ms := msgSplit base dst bs bollard inc
  let r : Relay := ⟨tid, convoy, k.ctx, some (t, k.berth, k.id), src, dst, bs.length, bollard, inc, base.step, express, ms.length,
    true, 0, []⟩
  let s := (s.beginRelay r).awaits t k.id tid
  let s := ms.foldl (fun s m => match s.relay? tid with
    | some r => s.forwardAll r m
    | none => s) s
  s.settleRelay tid

/-- Whether a multicast may leave: every child's route is checked as a task's own destination is. -/
def State.mayMulticast (s : State) (c convoy vc : Nat) : Except AccFault Unit :=
  (s.convoyKids convoy).foldl (fun r k => match r with
    | .error e => .error e
    | .ok () => match s.mayRoute c s.ownDom k vc with
      | .error e => .error e
      | .ok _ => .ok ()) (if vc = 6 then .error (.refuse 0x5002) else .ok ())

/-- Poisoned data that reaches the transmitting die is a payload parity mismatch (R360, log 34). -/
def atTransmit (p : Nat) : AccFault → AccFault
  | .data pa code => if code = 0x7004 then .dataErr 0x5007 6 [p] else .data pa code
  | f => f

/-! ## Lost ports and peers (R361, R366, R426) -/

/-- The partner is lost: a hard fault of the secure context (R443). -/
def State.lostPartner (s : State) : State := s.jobFault s.secureCtx 0x700F 9 s.secureCtx {} []

/-- A hard fault that is a port's: every context with traffic there is FAULTED, and its tasks with unanswered messages there
are aborted, those of a multicast whose messages it held among them; a write of an open copy that waits there loses the partner
(R441). -/
def State.failLink (s : State) (p : Nat) : State :=
  let x := s.port p
  let lost := ((x.queue.map (·.1)) ++ x.replay.map (·.2)).filter (fun m => m.srcDom == s.ownDom && m.srcPkg == s.ownPkg)
  let relays := s.fabric.relays.filter (fun r => lost.any (fun m => m.typ == 0x06 && m.transfer == r.tid))
  let cs := (lost.map (·.ctx) ++ (s.fabric.xfers.filter (fun e => e.2.port == p)).map (·.2.ctx)).eraseDups
  let tasks := (s.fabric.xfers.filter (fun e => e.2.port == p)).filterMap (fun e => match e.2.owner with
    | .task t id => some (t, id)
    | .chunk _ t id => some (t, id)
    | _ => none) ++ relays.filterMap (fun r => r.task.map (fun x => (x.1, x.2.2)))
  let partner := s.fabric.xfers.any (fun e => e.2.port == p && (match e.2.owner with
    | .chunk _ _ _ => true
    | .header => true
    | .commit => true
    | _ => false))
  let s := (s.put (portIdx p) 2 4).setPort p { x with queue := [], replay := [], held := [] }
  let s := if cs = [] then s.logHard (portEv 0x5006 Sys2Proof.Machine.jobFault p) else cs.foldl (fun s c => s.jobFault c 0x5006 6 p {} []) s
  let s := tasks.eraseDups.foldl (fun s e =>
    match (s.tile e.1).tasks.find? (fun k => k.id == e.2) with
    | some k => s.abort e.1 k (.job 0x5006 9 k.ctx [])
    | none => s) s
  let s := relays.foldl (fun s r => s.dropRelay r.tid) s
  if partner then s.lostPartner else s

/-- A link starts to retrain (R361): a port that does so too often within 10 s fails. -/
def State.retrain (s : State) (p : Nat) : State :=
  if s.linkState p ≠ 2 then s
  else
    let x := s.port p
    let recent := s.timer :: x.retrains.filter (fun t => decide (s.timer ≤ t + 10000000000))
    let s := (s.setPort p { x with retrains := recent }).count (portIdx p) 7 32 1
    let s := ((s.logEv (portEv 0x500C note p)).riskAddK (s.get 0x9500 11)).emit (.linkRetrain p)
    if s.get 0x7001 4 < recent.length then s.failLink p else s.put (portIdx p) 2 3

/-- An edge is used again by the transfers that begin from now on (R374). -/
def State.readmit (s : State) (convoy child : Nat) : State :=
  s.setEdge convoy child { s.edge convoy child with detached := false, used := 0, held := false }

/-- A child is detached (R373): every transfer in progress on the edge counts it as having acknowledged and tells it from where to
fetch, but for one that it has been sent whole; what only this edge held frees its credit. -/
def State.detachChild (s : State) (convoy child : Nat) : State :=
  let e := s.edge convoy child
  let rs := s.fabric.relays.filter (fun r => r.convoy == convoy && r.children.any (fun c => c.pkg == child && !c.detached)
    && !(r.last && r.children.all (fun c => c.pkg != child || c.acked == r.count)))
  let s := s.setEdge convoy child { e with detached := true, waiting := [], used := 0, held := false }
  let s := e.waiting.foldl (fun (s : State) m => s.forwarded convoy m) s
  rs.foldl (fun s r =>
    let r' := r.mod child (fun c => { c with detached := true })
    let s := s.setRelay r'
    (match e.waiting.find? (fun (m : Msg) => m.transfer == r.tid), r.last with
      | some m, _ => s.sendDetach r' child (m.dstAddr - r.dst)
      | none, true => s
      | none, false => s.sendDetach r' child r.length).settleRelay r.tid) s

end Sys2Proof.Machine
end

