-- ==== Sys2Proof/Machine/Scales.lean ====
section
/-! DEFINITION. Ranges and histories of the layers: the push at a step's end, the ranges of a step, and the objects WIDTH_MAP, SCALE_HISTORY and LAYER_COUNTERS (R219 to R222, R239 to R244). -/

namespace Sys2Proof.Machine

/-- The layers of a context, by position. -/
def State.ctxLayers (s : State) (c : Nat) : List (Nat × LayerDef) := match s.plan with
  | none => []
  | some p => (p.layers.zipIdx.filter (fun x => x.1.ctx == c)).map (fun x => (x.2, x.1))

/-- The range a class takes when a step starts: the history's maximum times 2^MARGIN_EXP, 1.0 when every entry is 0; free where the
product lies beyond binary32 (R220, log 7). -/
def State.stepRange (s : State) (h : List Nat) : Nat :=
  let m := h.foldl max 0
  let v := scaled (numOfF32 m) (pow2 (s.get 0x5200 2 : Nat))
  if m = 0 then 0x3F800000 else if pow2 128 ≤ v.rat then (Config.rangeBeyond m).toNat else f32OfNum v

def State.startClass (s : State) (x : ClassSt) : ClassSt :=
  { x with range := s.stepRange x.hist, stepMax := 0, converted := 0, saturated := 0, nonzero := 0, underflowed := 0, fullSat := 0 }

/-- A step starts for a layer: ranges from the histories, counts and maxima at 0. -/
def State.startLayer (s : State) (x : LayerSt) : LayerSt :=
  { x with cin := s.startClass x.cin, cout := s.startClass x.cout, cgrad := s.startClass x.cgrad, nonfinite := 0, tally := false, gate := none, seen := [] }

/-- The step maximum of the final attempt enters a class's ring. -/
def State.pushClass (s : State) (x : ClassSt) : ClassSt :=
  { x with hist := (f32OfNum (if x.stepMax = 0 then .zero false else .fin x.stepMax) :: x.hist).take (s.historySteps) }

def State.pushLayer (s : State) (x : LayerSt) : LayerSt :=
  { x with cin := s.pushClass x.cin, cout := s.pushClass x.cout, cgrad := s.pushClass x.cgrad }

/-- Counts of an attempt restart (R222). -/
def ClassSt.clear (x : ClassSt) : ClassSt :=
  { x with stepMax := 0, converted := 0, saturated := 0, nonzero := 0, underflowed := 0, fullSat := 0 }
def LayerSt.clear (x : LayerSt) : LayerSt :=
  { x with cin := x.cin.clear, cout := x.cout.clear, cgrad := x.cgrad.clear, nonfinite := 0, tally := false, seen := [] }

/-- What a layer's counters hold: those of each class, then NONFINITE. -/
def ClassSt.counters (x : ClassSt) : List Nat := [x.converted, x.saturated, x.nonzero, x.underflowed, x.fullSat]
def LayerSt.counters (x : LayerSt) : List Nat := x.cin.counters ++ x.cout.counters ++ x.cgrad.counters ++ [x.nonfinite]

def ClassSt.since (x : ClassSt) (n : List Nat) : ClassSt :=
  { x with converted := x.converted - n.getD 0 0, saturated := x.saturated - n.getD 1 0, nonzero := x.nonzero - n.getD 2 0,
           underflowed := x.underflowed - n.getD 3 0, fullSat := x.fullSat - n.getD 4 0 }

/-- A layer's counters without what a gate had evaluated when the update of the step was skipped (R237). -/
def LayerSt.since (x : LayerSt) : LayerSt :=
  { x with cin := x.cin.since x.seen, cout := x.cout.since (x.seen.drop 5), cgrad := x.cgrad.since (x.seen.drop 10),
           nonfinite := x.nonfinite - x.seen.getD 15 0 }

/-- History incomplete (R239). -/
def State.historyShort (s : State) (x : LayerSt) : Bool := decide (x.cin.hist.length < s.historySteps)

/-! ## SCALE_HISTORY (R243) -/

def histBytes (h : List Nat) : List Byte := (h.flatMap (fun v => leBytes 4 v)) ++ zeros (256 - 4 * h.length)

def State.historyRecord (s : State) (i : Nat) (l : LayerDef) : List Byte :=
  let x := s.layer i
  leBytes 2 l.id ++ leBytes 1 (if l.path = 2 then 2 else x.level) ++ leBytes 1 x.cin.hist.length ++ leBytes 4 x.clean ++ zeros 8
    ++ histBytes x.cin.hist ++ histBytes x.cout.hist ++ histBytes x.cgrad.hist

def State.planLayers (s : State) : List LayerDef := match s.plan with
  | none => []
  | some p => p.layers

/-- PLAN_ID_LOADED, 0 outside LOADED (R82, R243). -/
def State.planIdLoaded (s : State) : Nat := s.get 0x2400 8

def State.scaleHistory (s : State) : List Byte :=
  leBytes 4 0x54534853 ++ leBytes 8 s.planIdLoaded ++ leBytes 1 s.historySteps ++ [0] ++ leBytes 2 s.planLayers.length
    ++ s.planLayers.zipIdx.flatMap (fun p => s.historyRecord p.2 p.1)

/-- A record that a download may hold. -/
def State.recordOk (s : State) (l : LayerDef) (e : List Byte) : Bool :=
  let fill := field e 3 1
  decide (field e 0 2 = l.id ∧ field e 2 1 ≤ 2 ∧ fill ≤ s.historySteps) && (l.path != 2 || field e 2 1 == 2) && isZero (sub_ e 8 8)
    && [16, 272, 528].all (fun o => isZero (sub_ e (o + 4 * fill) (256 - 4 * fill)))

def State.historyOk (s : State) (bs : List Byte) : Bool :=
  decide (bs.length = 16 + 784 * s.planLayers.length ∧ field bs 0 4 = 0x54534853 ∧ field bs 4 8 = s.planIdLoaded
    ∧ field bs 12 1 = s.historySteps ∧ field bs 13 1 = 0 ∧ field bs 14 2 = s.planLayers.length)
  && s.planLayers.zipIdx.all (fun p => s.recordOk p.1 (sub_ bs (16 + 784 * p.2) 784))

def readHist (e : List Byte) (o fill : Nat) : List Nat := (List.range fill).map (fun i => field e (o + 4 * i) 4)

/-- The level at which a record leaves its layer: while its history is short, FALLBACK at the highest in native numerics (R239). In ZD1
emulation no layer is at FALLBACK: a record of it leaves CONFIGURED while the history is short and WIDE otherwise (R240; DEDUCED, log 41). -/
def State.recordLevel (s : State) (level fill : Nat) : Nat :=
  let short := decide (fill < s.historySteps)
  if s.emulating then (if level = 1 then (if short then 0 else 2) else level)
  else if short then max 1 level else level

/-- A history takes effect: each layer's level, clean count and rings, and the ranges that follow. -/
def State.loadHistory (s : State) (bs : List Byte) : State :=
  s.planLayers.zipIdx.foldl (fun s p =>
    let e := sub_ bs (16 + 784 * p.2) 784
    let fill := field e 3 1
    let x := s.layer p.2
    let cls (y : ClassSt) (o : Nat) : ClassSt := { y with hist := readHist e o fill, range := s.stepRange (readHist e o fill) }
    s.setLayer p.2 { x with level := s.recordLevel (field e 2 1) fill, clean := field e 4 4, cin := cls x.cin 16, cout := cls x.cout 272, cgrad := cls x.cgrad 528,
                            pending := none, tripped := false }) s

/-- A layer as it starts with no history (R239, R240). -/
def State.freshLayer (s : State) (l : LayerDef) (x : LayerSt) : LayerSt :=
  { LayerSt.empty with level := if l.path = 2 then 2 else if s.emulating then 0 else 1, version := x.version, landed := x.landed }

/-! ## WIDTH_MAP and LAYER_COUNTERS (R241, R244) -/

def State.widthEntry (s : State) (i : Nat) (l : LayerDef) : List Byte :=
  let x := s.layer i
  let lev := s.level i
  let flags := (if s.jit i 0 then 1 else 0) + (if s.jit i 1 then 2 else 0) + (if s.jit i 2 then 4 else 0)
    + (if s.historyShort x then 8 else 0) + (if x.level < lev ∧ l.path ≠ 2 then 16 else 0)
  let width := if lev = 1 then s.uniformWidth i l else 0
  leBytes 2 l.id ++ leBytes 1 lev ++ leBytes 1 l.inW ++ leBytes 1 l.gradW ++ leBytes 1 width ++ leBytes 1 flags ++ [0]
    ++ leBytes 4 x.cin.range ++ leBytes 4 x.cout.range ++ leBytes 4 x.cgrad.range ++ leBytes 4 x.clean ++ leBytes 4 x.trips ++ zeros 4

def State.widthMap (s : State) : List Byte := s.planLayers.zipIdx.flatMap (fun p => s.widthEntry p.2 p.1)

def ClassSt.counts (x : ClassSt) : List Byte :=
  [x.converted, x.saturated, x.nonzero, x.underflowed, x.fullSat].flatMap (fun n => leBytes 4 (min (2 ^ 32 - 1) n))

def State.layerCounters (s : State) : List Byte := s.planLayers.zipIdx.flatMap (fun p =>
  let x := s.layer p.2
  x.cin.counts ++ x.cout.counts ++ x.cgrad.counts ++ leBytes 4 (min (2 ^ 32 - 1) x.nonfinite))

/-! ## Checker tiles (R227) -/

/-- Insert a number into a rising list. -/
def insertNat (a : Nat) : List Nat → List Nat
  | [] => [a]
  | b :: r => if a ≤ b then a :: b :: r else b :: insertNat a r

/-- The tiles that can check a sample of a tile, in the order in which they are taken. -/
def State.checkers (s : State) (c tile : Nat) : List Nat :=
  match s.plan with
  | none => []
  | some p =>
    let all := ((p.tiles.filter (fun t => t.checker && p.berths.any (fun b => b.tile == t.tile && b.ctx == c && b.prio == 3))).map
      (·.tile)).foldr insertNat []
    (all.filter (fun t => decide (tile < t))) ++ all.filter (fun t => decide (t < tile))

end Sys2Proof.Machine
end

