-- ==== Sys2Proof/Machine/Secure.lean ====
section
/-! DEFINITION. Securing and restoring state: requests, the open copy, SECURE_COPY, commit and swap, LOAD and VERIFY (R431 to R447). -/

namespace Sys2Proof.Machine

def State.modCopy (s : State) (f : CopySt → CopySt) : State :=
  { s with secure := { s.secure with copy := s.secure.copy.map f } }

def CopySt.modChunk (cp : CopySt) (i : Nat) (f : ChunkSt → ChunkSt) : CopySt :=
  match cp.chunks[i]? with
  | none => cp
  | some c => { cp with chunks := cp.chunks.set i (f c) }

/-- An event of the secure context. -/
def State.secEv (s : State) (code sev : Nat) (detail : List Byte := []) : Ev := s.ctxEv s.secureCtx code sev 9 s.secureCtx detail

def upTo4k (n : Nat) : Nat := (n + 4095) / 4096 * 4096

/-! ## Requests (R434, R435) -/

/-- The target of a securing goes to every package of the group: T into its own rank's mailbox slot, then the bollard. -/
def State.sendTarget (s : State) (T : Nat) : State :=
  let c := s.secureCtx
  match s.secureGroup.findIdx? (fun p => p == s.ownPkg) with
  | none => s
  | some rank =>
    let va := s.get 0x8200 14 + 8 * rank
    let b := s.get 0x8200 13
    s.secureGroup.foldl (fun s p =>
      if p = s.ownPkg then
        match s.writeNow none c va (leBytes 8 T) with
        | .ok (_, s) => s.raise b 1 true
        | .error (.trans code va lv w) => s.transFault c code { va := va, level := lv, write := w, noTask := true }
        | .error _ => s
      else match s.egress s.ownDom p 7 with
        | none => s
        | some port =>
          let (xid, s) := s.newTid hmTile
          s.sendXfer .target c s.ownDom p port xid false
            (msgSplit { s.message 0x01 7 s.ownDom p c xid with express := true } va (leBytes 8 T) 0 0)) s

/-- A member's mailbox slot is written and acknowledged: its bollard is raised by a SIGNAL (R435, R309). -/
def State.targetAcked (s : State) (x : Xfer) : State :=
  match s.egress x.dom x.pkg 7 with
  | none => s
  | some port =>
    let (xid, s) := s.newTid hmTile
    s.sendXfer .device x.ctx x.dom x.pkg port xid false
      [{ s.message 0x05 7 x.dom x.pkg x.ctx xid with last := true, bollard := s.get 0x8200 13, increment := 1 }]

/-- A securing is requested for a target step: 0x7010, and the group is told. -/
def State.requestSecure (s : State) (T : Nat) : State := (s.logEv (s.secEv 0x7010 note)).sendTarget T

def State.requestEff (s : State) (v : Nat) : Except Nat State :=
  let c := s.secureCtx
  if c = 0xFF then .error 0xA009
  else if v ≠ 0 ∧ v < s.stepOf c then .error 0xA007
  else .ok (s.requestSecure (if v = 0 then s.stepOf c + s.get 0x8200 9 else v))

/-- REQUEST_TARGET (R434). -/
def execRequestTarget (src : Src) (value : Nat) (s : State) : Host.Outcome State Fault Refusal :=
  .next (s.guarded src 0x8201 1 (leBytes 8 value) (fun v s => s.requestEff v))

/-- The risk estimate requests a securing when it rises to the threshold, once per fall below it (R434). -/
def State.riskRequest (s : State) : State :=
  let risk := s.get 0x9500 1
  let th := s.get 0x8200 6
  let arm (b : Bool) : State := { s with secure := { s.secure with armed := b } }
  if risk + s.get 0x8200 7 < th then arm true
  else if th ≤ risk ∧ s.secure.armed ∧ s.secureCtx ≠ 0xFF ∧ s.power.hmRunning then
    (arm false).requestSecure (s.stepOf s.secureCtx + s.get 0x8200 9)
  else s

/-- RISK_UPDATE (R471, R434). -/
def execRiskUpdate (s : State) : Host.Outcome State Fault Refusal :=
  .next (if s.power.pst = .off ∨ s.power.pst = .aux ∨ s.power.pst = .sleep then s else (s.riskCompute).riskRequest)

/-! ## The record (R437, R438, R446) -/

def State.partner (s : State) : Option PartnerDef := match s.plan with
  | none => none
  | some p => p.partner

/-- Chunks of 1 MiB of every region, in region order. -/
def regionChunks (rs : List Region) : List ChunkSt :=
  rs.zipIdx.flatMap (fun p => (List.range (ceilDiv p.1.length 1048576)).map (fun i =>
    ⟨p.2, i, min 1048576 (p.1.length - i * 1048576), false, 0, []⟩))

/-- STREAM_CHECK. -/
def State.streamCheck (s : State) (step : Nat) : Nat := match s.plan with
  | none => 0
  | some p => rngWord p.jobSeed step 0xFFFF 0xFFFFFFFF

def State.recordHeader (s : State) (seq T count hist : Nat) : List Byte :=
  let rs := mgetD s.blobs (key 0x8210 0) []
  let h := leBytes 4 0x43455253 ++ leBytes 2 1 ++ leBytes 2 (rs.length / 32) ++ leBytes 8 seq ++ leBytes 8 T ++ leBytes 8 (s.streamCheck T)
    ++ leBytes 8 s.planIdLoaded ++ leBytes 2 s.ownPkg ++ leBytes 1 s.ownDom ++ leBytes 1 s.secureCtx ++ leBytes 4 (s.get 0x2210 0)
    ++ leBytes 4 count ++ leBytes 4 hist ++ zeros 8 ++ rs
  h ++ zeros (4096 - h.length)

def chunkEntry (c : ChunkSt) : List Byte :=
  leBytes 2 c.region ++ zeros 2 ++ leBytes 4 c.idx ++ leBytes 4 c.length ++ zeros 4 ++ c.digest ++ zeros (48 - c.digest.length)

def tableOffset : Nat := 0x1000
def historyOffset (count : Nat) : Nat := tableOffset + upTo4k (64 * count)
def chunkOffset (count hist i : Nat) : Nat := historyOffset count + upTo4k hist + i * 1048576

/-- What a slot must hold. -/
def recordSize (count hist : Nat) : Nat := chunkOffset count hist count + 4096

def CopySt.table (cp : CopySt) : List Byte := cp.chunks.flatMap chunkEntry
def commitRecord (seq : Nat) (head : List Byte) : List Byte := leBytes 4 0x544D4353 ++ zeros 4 ++ leBytes 8 seq ++ sha384 head

/-- Write at an offset of the record's slot, at the partner and in the host store. -/
def State.storeAt (s : State) (cp : CopySt) (owner : XOwner) (vc off : Nat) (bs : List Byte) : State :=
  let c := s.secureCtx
  let at_ (base : Nat) : Nat := base + cp.seq % 2 * s.get 0x8200 3 + off
  let s := if s.get 0x8200 4 = 0 then s else
    match s.writeNow none c (at_ (s.get 0x8200 4)) bs with
    | .ok (_, s) => s
    | .error (.trans code va lv w) => s.transFault c code { va := va, level := lv, write := w, noTask := true }
    | .error _ => s
  match s.partner with
  | none => s
  | some p => match s.egress p.dom p.pkg vc with
    | none => s
    | some port =>
      let tile := match owner with | .chunk _ t _ => t | _ => hmTile
      let (xid, s) := s.newTid tile
      let express := match owner with | .chunk _ _ _ => false | _ => true
      let ms := msgSplit { s.message 0x01 vc p.dom p.pkg c xid with express := express } (at_ (s.get 0x8200 2)) bs 0 0
      let s := match owner with
        | .chunk i t id => (s.modCopy (fun cp => cp.modChunk i (fun q => { q with outstanding := q.outstanding + 1 }))).awaits t id xid
        | _ => s
      s.sendXfer owner c p.dom p.pkg port xid false ms

/-! ## Open (R436, R438) -/

/-- Chunks of the open record not yet acknowledged. -/
def CopySt.left (cp : CopySt) : Nat := (cp.chunks.filter (fun c => !(c.written && c.outstanding == 0))).length

def State.openCopy (s : State) (T : Nat) : State :=
  let seq := s.get 0x8201 4 + 1
  let hist := s.scaleHistory
  let chunks := regionChunks s.regions
  let cp : CopySt := ⟨seq, T, s.timer, 0, chunks, [], false, false, s.recordHeader seq T chunks.length hist.length, hist⟩
  let s := { s with secure := { s.secure with copy := some cp } }
  let s := (((s.put 0x8201 4 seq).put 0x8201 3 1).put 0x8201 6 0).put 0x8201 7 chunks.length
  if s.get 0x8200 3 < recordSize chunks.length hist.length ∨ (s.get 0x8200 5 = 1 ∧ s.get 0x8200 4 = 0) then s.abandonCopy
  else match s.partner with
    | none => s.lostPartner
    | some p =>
      if s.routeMask p.dom p.pkg = 0 then s.lostPartner
      else s.storeAt cp .commit 7 (s.get 0x8200 3 - 4096) (zeros 64)

/-- At the advance from a step: a pending or due copy opens, or its open waits (R434, R436). -/
def State.openDue (s : State) (c T : Nat) : State :=
  if c ≠ s.secureCtx then s
  else
    let n := s.get 0x8200 8
    let pend := s.get 0x8201 2 == T
    if !pend ∧ !(n ≠ 0 ∧ (T + 1) % n = 0) then s
    else
      let s := if pend then s.put 0x8201 2 noTarget else s
      match s.secure.copy with
      | none => s.openCopy T
      | some _ => ({ s with secure := { s.secure with deferred := some T } }).logEv (s.secEv 0x7015 warning)

/-! ## Acknowledgements (R438, R440) -/

/-- A write of the open record is acknowledged. -/
def State.recordAcked (s : State) (owner : XOwner) (xid : Nat) : State :=
  match owner with
  | .commit => match s.secure.copy with
    | none => s
    | some cp =>
      if cp.stage = 0 then
        let s := s.modCopy (fun c => { c with stage := 1 })
        let s := s.storeAt cp .header 7 0 (cp.header)
          |>.storeAt cp .header 7 (historyOffset cp.chunks.length) cp.history
        s
      else if cp.stage = 3 then s.modCopy (fun c => { c with stage := 4 })
      else s
  | .header =>
    if s.fabric.xfers.any (fun e => decide (e.2.owner = .header)) then s
    else match s.secure.copy with
      | some cp =>
        -- The harbourmaster fences its own writes before it raises a bollard (R309).
        if cp.stage = 1 then (s.modCopy (fun c => { c with stage := 2 })).raise (s.get 0x8200 11) 1 false else s
      | none => s
  | .chunk i t id =>
    let before := match s.secure.copy with | some cp => cp.left | none => 0
    let s := s.modCopy (fun cp => cp.modChunk i (fun q => { q with outstanding := q.outstanding - 1 }))
    let s := match s.secure.copy with
      | none => s
      | some cp =>
        let s := s.put 0x8201 7 cp.left
        if cp.left < before then s.count 0x8220 7 64 ((cp.chunks[i]?).elim 0 (·.length)) else s
    s.answered t id xid
  | _ => s

/-! ## SECURE_COPY (R439) -/

def Task.secRegion (k : Task) : Nat := bits (k.w 6) 63 58
def Task.secVc (k : Task) : Nat := bits (k.w 6) 57 55
def Task.secChunk (k : Task) : Nat := bits (k.w 6) 31 0

/-- The position in the record of the chunk that a task names. -/
def CopySt.find (cp : CopySt) (k : Task) : Option Nat := cp.chunks.findIdx? (fun c => c.region == k.secRegion && c.idx == k.secChunk)

/-- Where a chunk lies in the frozen half. -/
def State.frozenAt (s : State) (k : Task) : Nat := match s.regions[k.secRegion]? with
  | none => 0
  | some r => r.half r.live + k.secChunk * 1048576

/-- Bytes of the frozen half, read without direction. -/
def State.readHalf (s : State) (tile : Option Nat) (c va : Nat) : Nat → Nat → Except AccFault (List Byte × State)
  | 0, _ => .ok ([], s)
  | fuel + 1, n =>
    if n = 0 then .ok ([], s) else
    let k := min n (4096 - va % 4096)
    match s.translate tile c va .read with
    | .error f => .error f
    | .ok (pa, s) =>
      let held := heldLines s pa k false
      if held ≠ [] then .error (.stall held)
      else match s.firstPoison pa k with
        | some (a, code) => .error (.data a code)
        | none => match s.readHalf tile c (va + k) fuel (n - k) with
          | .error f => .error f
          | .ok (r, s') => .ok (s.bytesAt pa k ++ r, s')

def secureUnits (k : Task) : Nat := (unitsOf 0 k.len0).length

def secureMove (s : State) (t : Nat) (k : Task) (from_ n : Nat) : Except AccFault State :=
  match s.secure.copy, s.partner with
  | some cp, some p =>
    if cp.swapping then .error (.refuse 0x7014)
    else if cp.stage < 2 then .error .wait
    else match s.mayRoute k.ctx p.dom p.pkg k.secVc with
      | .error f => .error f
      | .ok port => match cp.find k with
        | none => .error (.refuse 0x7014)
        | some i =>
          let lo := 4096 * from_
          let hi := min k.len0 (4096 * (from_ + n))
          match s.readHalf (some t) k.ctx (s.frozenAt k + lo) (n + 1) (hi - lo) with
          | .error f => .error (atTransmit port f)
          | .ok (bs, s) =>
            let s := s.storeAt cp (.chunk i t k.id) k.secVc (chunkOffset cp.chunks.length cp.history.length i + lo) bs
            if hi < k.len0 then .ok s
            else match s.readHalf (some t) k.ctx (s.frozenAt k) 258 k.len0 with
              | .error f => .error f
              | .ok (all, s) =>
                let s := s.modCopy (fun cp => cp.modChunk i (fun q => { q with digest := sha384 all, written := true }))
                match s.secure.copy with
                | none => .ok s
                | some cp => .ok (s.storeAt cp (.chunk i t k.id) k.secVc (tableOffset + 64 * i)
                    (chunkEntry (cp.chunks.getD i ⟨0, 0, 0, false, 0, []⟩)))
  | _, _ => .error (.refuse 0x7014)

/-- SECURE_COPY: further 4 KiB units of the chunk; the table entry follows the last. -/
def execSecureCopy (t : TileId) (units : Nat) (s : State) : Host.Outcome State Fault Refusal :=
  .next (s.runDma t.val 0x70 units
    ⟨fun _ _ => [], fun _ _ => [], fun _ k => secureUnits k, fun _ _ _ => [], secureMove⟩)

/-! ## Commit and swap (R433, R440, R441) -/

/-- SECURE_COMMIT: every chunk is acknowledged at every store. -/
def execSecureCommit (s : State) : Host.Outcome State Fault Refusal :=
  .next (match s.secure.copy with
    | none => s
    | some cp =>
      if cp.swapping ∨ cp.stage ≠ 2 ∨ cp.left ≠ 0 then s
      else
        let head := cp.header ++ cp.table ++ cp.history
        let s := s.modCopy (fun c => { c with stage := 3, committed := true, swapping := true })
        let s := { s with secure := { s.secure with record := head } }
        (s.storeAt cp .commit 7 (s.get 0x8200 3 - 4096) (commitRecord cp.seq head)).put 0x8201 3 2)

/-- One unmarked granule goes from the frozen half to the other. -/
def State.copyGranule (s : State) (c : Nat) (r : Region) (off : Nat) : Except AccFault State :=
  match s.translate none c (r.half r.live + off) .read with
  | .error f => .error f
  | .ok (src, s) => match s.translate none c (r.half (1 - r.live) + off) .write with
    | .error f => .error f
    | .ok (dst, s) =>
      let s := s.takeLines (heldLines s dst 4096 true)
      let codes := s.poison.filter (fun e => decide (src ≤ e.1 ∧ e.1 < src + 4096))
      let s := s.writeAt dst (s.bytesAt src 4096)
      .ok (codes.foldl (fun s e => s.poisonAt (dst + (e.1 - src)) 1 e.2) s)

/-- Every unmarked granule of every region; a translation fault on the way is the context's. -/
def State.swapCopy (s : State) (c : Nat) (marks : AMap Nat) : State :=
  s.regions.zipIdx.foldl (fun s p =>
    (List.range (p.1.length / 4096)).foldl (fun s g =>
      if (mget? marks (granuleKey p.2 (4096 * g))).isSome then s
      else match s.copyGranule c p.1 (4096 * g) with
        | .ok s => s
        | .error (.trans code va lv w) => s.transFault c code { va := va, level := lv, write := w, noTask := true }
        | .error _ => s) s) s

/-- LIVE of every region changes over. -/
def State.flipLive (s : State) : State :=
  let bs := mgetD s.blobs (key 0x8210 0) []
  let flip (e : List Byte) : List Byte := patch e 7 [BitVec.ofNat 8 (1 - field e 7 1)]
  { s with blobs := mset s.blobs (key 0x8210 0) ((chunks 32 64 bs).flatMap flip) }

/-- The end of a swap (R433): the other half is live, the copy is over, and after a commit the books of R440 are kept. -/
def State.swapEnd (s : State) (cp : CopySt) : State :=
  let s := (s.swapCopy s.secureCtx cp.marks).flipLive
  let s := ({ s with secure := { s.secure with copy := none } }.put 0x8201 3 0).put 0x8201 7 0
  if cp.committed then
    let s := ((s.put 0x8201 5 cp.step).put 0x8201 6 1).count 0x8220 5 64 1
    let s := s.logEv (s.secEv 0x700D note ([0, 0] ++ leBytes 8 cp.seq))
    s.raise (s.get 0x8200 12) 1 false
  else s

/-- SWAP_DONE: the other half is live; what a committed record leaves (R440), and the open that waited for it. -/
def execSwapDone (s : State) : Host.Outcome State Fault Refusal :=
  .next (match s.secure.copy with
    | none => s
    | some cp =>
      if !cp.swapping ∨ (cp.committed ∧ cp.stage ≠ 4) then s
      else
        let u := s.swapEnd cp
        match u.secure.deferred with
        | none => u
        | some _ => ({ u with secure := { u.secure with deferred := none } }).openCopy (u.stepOf s.secureCtx - 1))

/-- SECURE_TIMEOUT (R441). -/
def execSecureTimeout (s : State) : Host.Outcome State Fault Refusal :=
  .next (match s.secure.copy with
    | none => s
    | some cp =>
      if cp.swapping ∨ s.timer < cp.openedAt + s.get 0x8200 10 * 1000000 then s else s.abandonCopy)

/-! ## Restore (R444 to R447) -/

/-- A record as LOAD reads it: header, table, history, commit record. -/
structure Head where
  header : List Byte
  table : List Byte
  history : List Byte
  commit : List Byte
  deriving DecidableEq, Repr

def Head.seq (h : Head) : Nat := field h.header 8 8
def Head.step (h : Head) : Nat := field h.header 16 8
def Head.count (h : Head) : Nat := field h.header 48 4
def Head.bytes (h : Head) : List Byte := h.header ++ h.table ++ h.history

/-- The parts that a header gives the sizes of. -/
def splitHead (header rest : List Byte) : Head :=
  let n := 64 * field header 48 4
  let m := field header 52 4
  ⟨header, rest.take n, (rest.drop n).take m, (rest.drop (n + m)).take 64⟩

/-- What a GET of both slots of the partner brought: each slot's header, table, history and commit record, one after the
other (log 13). -/
def remoteHeads : Nat → List Byte → List Head
  | 0, _ => []
  | n + 1, bs =>
    if bs.length < 4096 then [] else
    let h := splitHead (bs.take 4096) (bs.drop 4096)
    h :: remoteHeads n (bs.drop (4096 + h.table.length + h.history.length + 64))

def Head.committed (h : Head) : Bool :=
  field h.header 0 4 == 0x43455253 && field h.header 4 2 == 1 && field h.commit 0 4 == 0x544D4353 && field h.commit 8 8 == h.seq
    && sub_ h.commit 16 48 == sha384 h.bytes

/-- The heads in the host store. -/
def State.hostHead (s : State) (slot : Nat) : Option Head :=
  let base := s.get 0x8200 4 + slot * s.get 0x8200 3
  let rd (a n : Nat) : Option (List Byte) := match s.readVa none s.secureCtx a n with
    | .ok (bs, _) => some bs
    | .error _ => none
  match rd base 4096 with
  | none => none
  | some h =>
    let n := field h 48 4
    let m := field h 52 4
    if s.get 0x8200 3 < recordSize n m then none
    else match rd (base + tableOffset) (64 * n), rd (base + historyOffset n) m, rd (base + s.get 0x8200 3 - 4096) 64 with
      | some t, some hi, some c => some ⟨h, t, hi, c⟩
      | _, _, _ => none

/-- The record LOAD uses: the committed one of the wanted step. -/
def State.pickRecord (s : State) (remote : List Byte) : Option Head :=
  let T := s.get 0x8202 2
  let ok (h : Head) : Bool := h.committed && h.step == T
  match s.get 0x8202 1 with
  | 0 => (remoteHeads 2 remote).find? ok
  | 1 => if s.get 0x8200 4 = 0 then none else ([s.hostHead 0, s.hostHead 1].filterMap id).find? ok
  | _ =>
    let h := splitHead (s.secure.record.take 4096) (s.secure.record.drop 4096)
    if s.get 0x8201 6 = 1 ∧ h.step = T then some h else none

/-- Regions of the same count and lengths. -/
def State.sameRegions (s : State) (h : Head) : Bool :=
  let rs := s.regions
  field h.header 6 2 == rs.length && rs.zipIdx.all (fun p => field h.header (64 + 32 * p.2 + 16) 8 == p.1.length)

/-- A restore fails with a code of its own; a translation fault that stopped it has been logged as the fault it is. -/
def State.restoreFail (s : State) (code : Nat) : State :=
  let s := (s.put 0x8202 5 5).put 0x8202 6 code
  if code / 4096 = 2 then s else s.logEv (s.secEv code warning)

/-- A restore may run: a plan is LOADED and the secure context is HALTED. -/
def State.mayRestore (s : State) : Bool :=
  s.loaded && decide (s.secureCtx < 64) && s.ctxState s.secureCtx == 1

def State.loadEff (s : State) (remote : List Byte) : Except Nat State :=
  if !s.mayRestore ∨ s.get 0x8202 5 = 1 ∨ s.get 0x8202 5 = 3 then .error 0xA009
  else
    let s := s.put 0x8202 6 0
    match s.pickRecord remote with
    | none => .ok (s.restoreFail 0x7011)
    | some h =>
      if !s.sameRegions h then .ok (s.restoreFail 0x7011)
      else if s.get 0x8202 3 ≠ h.step ∨ s.streamCheck (s.get 0x8202 3) ≠ field h.header 24 8 then .ok (s.restoreFail 0x7012)
      else .ok (({ s with secure := { s.secure with loading := h.bytes } }).put 0x8202 5 1)

/-- RESTORE_LOAD (R445): `remote` is what the GETs of the partner's slots bring. -/
def execRestoreLoad (src : Src) (remote : List Byte) (s : State) : Host.Outcome State Fault Refusal :=
  .next (s.guarded src 0x8202 4 [1] (fun _ s => s.loadEff remote))

def State.loadingHead (s : State) : Head := splitHead (s.secure.loading.take 4096) (s.secure.loading.drop 4096)

/-- The chunks of the record, as the source gives them. -/
def State.chunkBytes (s : State) (h : Head) (remote : List Byte) (off : Nat) (i : Nat) (e : List Byte) : List Byte :=
  let len := field e 8 4
  match s.get 0x8202 1 with
  | 0 => sub_ remote off len
  | 1 => s.peek none s.secureCtx (s.get 0x8200 4 + h.seq % 2 * s.get 0x8200 3 + chunkOffset h.count h.history.length i) len
  | _ => []

/-- Write bytes at a half's own address, unit by unit, until an access fails; the code of the failure is answered. A translation
fault on the way is the context's own (R340). -/
def State.writeHalf (s : State) (c va : Nat) (bs : List Byte) : State × Option Nat :=
  (unitsOf va bs.length).foldl (fun r u => match r with
    | (s, some code) => (s, some code)
    | (s, none) => match s.translate none c (va + u.1) .write with
      | .error (.trans code va lv w) => (s.transFault c code { va := va, level := lv, write := w, noTask := true }, some code)
      | .error _ => (s, some 0x7011)
      | .ok (pa, s) => ((s.takeLines (heldLines s pa u.2 true)).writeAt pa (sub_ bs u.1 u.2), none)) (s, none)

def setLive (bs : List Byte) (v : Nat) : List Byte := (chunks 32 64 bs).flatMap (fun e => patch e 7 [BitVec.ofNat 8 v])

/-- R445, step 2: every chunk is written to its region's A half, until an access fails. -/
def State.loadChunks (s : State) (h : Head) (remote : List Byte) : Nat → Nat → List (List Byte) → State × Option Nat
  | _, _, [] => (s, none)
  | i, off, e :: rest =>
    match s.regions[field e 0 2]? with
    | none => (s, some 0x7011)
    | some r =>
      match s.writeHalf s.secureCtx (r.a + field e 4 4 * 1048576) (s.chunkBytes h remote off i e) with
      | (s, some code) => (s, some code)
      | (s, none) => s.loadChunks h remote (i + 1) (off + field e 8 4) rest

/-- Bytes of a half's own addresses, as far as they can be read. -/
def State.peekHalf (s : State) (c va n : Nat) : List Byte := match s.readHalf none c va (n / 4096 + 2) n with
  | .ok (bs, _) => bs
  | .error _ => []

/-- R445, step 3: the live halves hold every chunk of the table with its digest. -/
def State.chunksGood (s : State) (h : Head) : Bool :=
  (chunks 64 h.count h.table).all (fun e => match s.regions[field e 0 2]? with
    | none => false
    | some r => sha384 (s.peekHalf s.secureCtx (r.half r.live + field e 4 4 * 1048576) (field e 8 4)) == sub_ e 16 48)

/-- R445, step 2: from the local source the idle half becomes live, from the others the A half takes the chunks and is live. -/
def State.loadData (s : State) (h : Head) (remote : List Byte) : State × Option Nat :=
  if s.get 0x8202 1 = 2 then (s.flipLive, none)
  else ({ s with blobs := mset s.blobs (key 0x8210 0) (setLive (mgetD s.blobs (key 0x8210 0) []) 0) }).loadChunks h remote 0 0
    (chunks 64 h.count h.table)

/-- What a completed LOAD sets (R445, steps 4 to 7). -/
def State.loadFinish (s : State) (h : Head) : State :=
  let c := s.secureCtx
  let s := if s.get 0x8200 15 = 0 then s else
    match s.writeNow none c (s.get 0x8200 15) h.table with
    | .ok (_, s) => s
    | .error (.trans code va lv w) => s.transFault c code { va := va, level := lv, write := w, noTask := true }
    | .error _ => s
  let s := if field h.header 32 8 = s.planIdLoaded ∧ s.historyOk h.history then s.loadHistory h.history
    else s.planLayers.zipIdx.foldl (fun s p => s.setLayer p.2 (s.freshLayer p.1 (s.layer p.2))) s
  let s := s.put 0x4001 (c + 1) (h.step + 1)
  let s := s.planLayers.zipIdx.foldl (fun s p => s.setLayer p.2 { s.layer p.2 with version := ((s.layer p.2).version + 2) % 2 ^ 30 }) s
  s.put 0x8202 5 2

/-- RESTORE_LOAD_DONE (R445): `remote` is what the GETs of the chunks bring, one chunk after the other. -/
def execRestoreLoadDone (remote : List Byte) (s : State) : Host.Outcome State Fault Refusal :=
  .next (if s.get 0x8202 5 ≠ 1 then s else
    let h := s.loadingHead
    match s.loadData h remote with
    | (s, some code) => s.restoreFail code
    | (s, none) => if s.chunksGood h then s.loadFinish h else s.restoreFail 0x7011)

def State.verifyEff (s : State) : Except Nat State :=
  if !s.mayRestore ∨ s.get 0x8202 5 ≠ 2 then .error 0xA009 else .ok (s.put 0x8202 5 3)

/-- RESTORE_VERIFY (R447). -/
def execRestoreVerify (src : Src) (s : State) : Host.Outcome State Fault Refusal :=
  .next (s.guarded src 0x8202 4 [2] (fun _ s => s.verifyEff))

/-- Digests of a region's chunks in the loaded table, as little-endian numbers. -/
def State.regionDigests (s : State) (region : Nat) : List Nat :=
  let h := s.loadingHead
  ((chunks 64 h.count h.table).filter (fun e => field e 0 2 == region)).map (fun e => ofLe (sub_ e 16 48))

/-- RESTORE_VERIFY_DONE (R447): for each region that names a replica, in region order, the digests fetched from it. -/
def execRestoreVerifyDone (replicas : List (List Nat)) (s : State) : Host.Outcome State Fault Refusal :=
  .next (if s.get 0x8202 5 ≠ 3 then s else
    let rs := s.regions.zipIdx.filter (fun p => p.1.replicaPkg != 0xFFFF)
    if rs.map (fun p => s.regionDigests p.2) = replicas then (s.put 0x8202 5 4).count 0x8220 8 64 1 else s.restoreFail 0x7013)

end Sys2Proof.Machine
end

