-- ==== Sys2Proof/Machine/Vector.lean ====
section
/-! DEFINITION. The vector unit's opcodes: NORM, ACT, SOFTMAX, CONVERT and RNG_FILL (R198 to R203). -/

namespace Sys2Proof.Machine

/-! ## Shared parts -/

/-- Write what a task computed, in order. -/
def State.writeAll (s : State) (t c : Nat) : List (Nat × List Byte) → Except AccFault State
  | [] => .ok s
  | (va, bs) :: r =>
    match s.writeBytes t c va bs with
    | .error e => .error e
    | .ok s => s.writeAll t c r

/-- The end of a numeric task's work: its writes, its status bits and package totals, what its layer records. -/
def State.commit (s : State) (t : Nat) (k : Task) (ws : List (Nat × List Byte)) (n : NumStat) (cs : List (Nat × ConvStat)) (bad : Nat) :
    Except AccFault (State × Nat) :=
  match s.writeAll t k.ctx ws with
  | .error e => .error e
  | .ok s =>
    let li := (s.layerOf k).map (·.1)
    let s := s.bookNum k n
    let s := cs.foldl (fun (s : State) c => s.bookLayer k li c.1 c.2) s
    .ok (s.bookBad k li bad, n.status)

/-- The format of a header field; a validated task's field always names one. -/
def fmtOf (code : Nat) : Fmt := (Fmt.ofCode code).getD .fp32

def Task.addrE (k : Task) : Nat := bits (k.w 7) 47 0
def Task.rowStride (k : Task) : Nat := 64 * bits (k.w 6) 47 32

/-- The rows of a tensor with a stride. -/
def rowRanges (va stride len rows : Nat) : List (Nat × Nat) := (List.range rows).map (fun i => (va + i * stride, len))

/-- Read rows of n elements. -/
def State.readRows (s : State) (t c : Nat) (f : Fmt) (n : Nat) : List Nat → Except AccFault (List (List Num) × State)
  | [] => .ok ([], s)
  | va :: r =>
    match s.readTensor t c va f n with
    | .error e => .error e
    | .ok ((xs, _), s) =>
      match s.readRows t c f n r with
      | .error e => .error e
      | .ok (ys, s) => .ok (xs :: ys, s)

def rowAddrs (va stride rows : Nat) : List Nat := (List.range rows).map (fun i => va + i * stride)

/-- The sum of a row over its length. -/
def meanOf (xs : List Num) : Calc Num := do fdiv (← laneSum xs) (.fin (xs.length : Nat))

def map2M (f : Num → Num → Calc Num) (xs ys : List Num) : Calc (List Num) := (xs.zip ys).mapM (fun p => f p.1 p.2)

/-! ## NORM (R199) -/

/-- Mean, reciprocal standard deviation and normalised elements of a row. -/
def normRow (rms : Bool) (eps : Num) (xs : List Num) : Calc (Num × Num × List Num) := do
  let mu ← if rms then pure (.zero false) else meanOf xs
  let ds ← xs.mapM (fun x => if rms then pure x else fsub x mu)
  let var ← meanOf (← ds.mapM (fun d => fmul d d))
  let r ← frsqrt (← fadd var eps)
  let hs ← ds.mapM (fun d => fmul d r)
  return (mu, r, hs)

def Task.normRms (k : Task) : Bool := bits (k.w 6) 63 62 == 1 || bits (k.w 6) 63 62 == 3
def Task.normBack (k : Task) : Bool := decide (2 ≤ bits (k.w 6) 63 62)
/-- FP32 rows held at ADDR_B: γ, β (LayerNorm), and in the backward dγ, dβ after them. -/
def Task.normParams (k : Task) : Nat := (if k.normRms then 1 else 2) * (if k.normBack then 2 else 1)

def normReads (_ : State) (k : Task) : List (Nat × Nat) :=
  let w := (fmtOf k.fmtA).width / 8
  rowRanges k.addrA k.rowStride (k.len1 * w) k.len0 ++ [(k.addrB, 4 * k.len1 * k.normParams)]
    ++ (if k.normBack then rowRanges k.addrE k.rowStride (k.len1 * w) k.len0 else [])

def normWrites (_ : State) (k : Task) : List (Nat × Nat) :=
  rowRanges k.addrD k.rowStride (k.len1 * ((fmtOf k.fmtD).width / 8)) k.len0
    ++ (if k.normBack then
          (let half := 4 * k.len1 * (k.normParams / 2); [(k.addrB + half, half)])
        else if k.addrE = 0 then [] else [(k.addrE, 8 * k.len0)])

/-- Operands outside the working space refuse the task with 0x3002 (R198). -/
def State.vecOutside (s : State) (t : Nat) (k : Task) (reads writes : List (Nat × Nat)) : Bool :=
  !(s.inWork t k.ctx reads false && s.inWork t k.ctx writes true)

def normForward (s : State) (t : Nat) (k : Task) : Except AccFault (State × Nat) :=
  if s.vecOutside t k (normReads s k) (normWrites s k) then .error (.refuse 0x3002) else
  match s.readRows t k.ctx (fmtOf k.fmtA) k.len1 (rowAddrs k.addrA k.rowStride k.len0) with
  | .error e => .error e
  | .ok (xs, s) =>
    match s.readTensor t k.ctx k.addrB .fp32 (k.len1 * k.normParams) with
    | .error e => .error e
    | .ok ((ps, _), s) =>
      let gamma := ps.take k.len1
      let beta := ps.drop k.len1
      let eps := numOfF32 (bits (k.w 6) 31 0)
      let fd := fmtOf k.fmtD
      let (rows, n) := s.calc (xs.mapM (fun x => do
        let (mu, r, hs) ← normRow k.normRms eps x
        let ys ← map2M fmul hs gamma
        let ys ← if k.normRms then pure ys else map2M fadd ys beta
        let bs ← fd.wideTensor ys
        let st ← if k.addrE = 0 then pure [] else Fmt.fp32.wideTensor [if k.normRms then .zero false else mu, r]
        return (bs, st, badCount ys)))
      let outs := (rowAddrs k.addrD k.rowStride k.len0).zip (rows.map (·.1))
      let stats := if k.addrE = 0 then [] else [(k.addrE, rows.flatMap (·.2.1))]
      s.commit t k (outs ++ stats) n [] (xs.foldl (fun a x => a + badCount x) (badCount ps) + rows.foldl (fun a r => a + r.2.2) 0)

/-- The gradient rows, and the running sums of dγ and dβ. -/
def normBackRows (rms : Bool) (eps : Num) (gamma : List Num) :
    List (List Num × List Num) → List Num → List Num → Calc (List (List Num) × List Num × List Num)
  | [], dg, db => return ([], dg, db)
  | (x, dy) :: r, dg, db => do
    let (_, rs, hs) ← normRow rms eps x
    let g ← map2M fmul dy gamma
    let mg ← if rms then pure (.zero false) else meanOf g
    let mgh ← meanOf (← map2M fmul g hs)
    let dx ← (g.zip hs).mapM (fun p => do
      let a ← if rms then pure p.1 else fsub p.1 mg
      fmul rs (← fsub a (← fmul p.2 mgh)))
    let dg ← map2M fadd dg (← map2M fmul dy hs)
    let db ← if rms then pure db else map2M fadd db dy
    let (rest, dg, db) ← normBackRows rms eps gamma r dg db
    return (dx :: rest, dg, db)

def normBackward (s : State) (t : Nat) (k : Task) : Except AccFault (State × Nat) :=
  if s.vecOutside t k (normReads s k) (normWrites s k) then .error (.refuse 0x3002) else
  match s.readRows t k.ctx (fmtOf k.fmtA) k.len1 (rowAddrs k.addrA k.rowStride k.len0) with
  | .error e => .error e
  | .ok (xs, s) =>
    match s.readRows t k.ctx (fmtOf k.fmtA) k.len1 (rowAddrs k.addrE k.rowStride k.len0) with
    | .error e => .error e
    | .ok (dys, s) =>
      match s.readTensor t k.ctx k.addrB .fp32 (k.len1 * k.normParams) with
      | .error e => .error e
      | .ok ((ps, _), s) =>
        let half := k.len1 * (k.normParams / 2)
        let dg := (ps.drop half).take k.len1
        let db := ps.drop (half + k.len1)
        let fd := fmtOf k.fmtD
        let ((rows, sums, bad), n) := s.calc (do
          let (dxs, dg, db) ← normBackRows k.normRms (numOfF32 (bits (k.w 6) 31 0)) (ps.take k.len1) (xs.zip dys) dg db
          let rows ← dxs.mapM fd.wideTensor
          let sums ← Fmt.fp32.wideTensor (dg ++ db)
          return (rows, sums, dxs.foldl (fun a x => a + badCount x) (badCount (dg ++ db))))
        let eaten := (xs ++ dys).foldl (fun a x => a + badCount x) (badCount ps)
        s.commit t k ((rowAddrs k.addrD k.rowStride k.len0).zip rows ++ [(k.addrB + 4 * half, sums)]) n [] (eaten + bad)

/-- NORM in its forward modes (R199). -/
def execNormForward (t : TileId) (s : State) : Host.Outcome State Fault Refusal :=
  .next (s.runTask t.val 0x20 (fun k => !k.normBack) ⟨normReads, normWrites, normForward⟩)

/-- NORM in its backward modes (R199). -/
def execNormBackward (t : TileId) (s : State) : Host.Outcome State Fault Refusal :=
  .next (s.runTask t.val 0x20 Task.normBack ⟨normReads, normWrites, normBackward⟩)

/-! ## ACT (R200) -/

def Task.actDeriv (k : Task) : Bool := bit (k.w 6) 59
def Task.actFn (k : Task) : Nat := bits (k.w 6) 63 60

def actReads (_ : State) (k : Task) : List (Nat × Nat) :=
  let n := k.len0 * ((fmtOf k.fmtA).width / 8)
  (k.addrA, n) :: (if k.actDeriv then [(k.addrE, n)] else [])
def actWrites (_ : State) (k : Task) : List (Nat × Nat) := [(k.addrD, k.len0 * ((fmtOf k.fmtD).width / 8))]

def actForward (s : State) (t : Nat) (k : Task) : Except AccFault (State × Nat) :=
  if s.vecOutside t k (actReads s k) (actWrites s k) then .error (.refuse 0x3002) else
  match s.readTensor t k.ctx k.addrA (fmtOf k.fmtA) k.len0 with
  | .error e => .error e
  | .ok ((xs, _), s) =>
    let ((bs, bad), n) := s.calc (do
      let ys ← xs.mapM (actF k.actFn)
      return (← (fmtOf k.fmtD).wideTensor ys, badCount ys))
    s.commit t k [(k.addrD, bs)] n [] (badCount xs + bad)

def actBackward (s : State) (t : Nat) (k : Task) : Except AccFault (State × Nat) :=
  if s.vecOutside t k (actReads s k) (actWrites s k) then .error (.refuse 0x3002) else
  match s.readTensor t k.ctx k.addrA (fmtOf k.fmtA) k.len0 with
  | .error e => .error e
  | .ok ((xs, _), s) =>
    match s.readTensor t k.ctx k.addrE (fmtOf k.fmtA) k.len0 with
    | .error e => .error e
    | .ok ((dys, _), s) =>
      let ((bs, bad), n) := s.calc (do
        let ys ← (dys.zip xs).mapM (fun p => do fmul p.1 (← actD k.actFn p.2))
        return (← (fmtOf k.fmtD).wideTensor ys, badCount ys))
      s.commit t k [(k.addrD, bs)] n [] (badCount xs + badCount dys + bad)

/-- ACT with ACT_MODE 0 (R200). -/
def execAct (t : TileId) (s : State) : Host.Outcome State Fault Refusal :=
  .next (s.runTask t.val 0x21 (fun k => !k.actDeriv) ⟨actReads, actWrites, actForward⟩)

/-- ACT with ACT_MODE 1 (R200, R263). -/
def execActDerivative (t : TileId) (s : State) : Host.Outcome State Fault Refusal :=
  .next (s.runTask t.val 0x21 Task.actDeriv ⟨actReads, actWrites, actBackward⟩)

/-! ## SOFTMAX (R201) -/

def Task.smBack (k : Task) : Bool := bit (k.w 6) 63
def Task.preScale (k : Task) : Num := numOfF32 (bits (k.w 6) 31 0)

def smReads (_ : State) (k : Task) : List (Nat × Nat) :=
  let w := (fmtOf k.fmtA).width / 8
  rowRanges k.addrA k.rowStride (k.len1 * w) k.len0
    ++ (if k.smBack then rowRanges k.addrE k.rowStride (k.len1 * w) k.len0 else [])
def smWrites (_ : State) (k : Task) : List (Nat × Nat) :=
  rowRanges k.addrD k.rowStride (k.len1 * ((fmtOf k.fmtD).width / 8)) k.len0
    ++ (if k.smBack || k.addrE == 0 then [] else [(k.addrE, 4 * k.len0)])

/-- The larger of two numbers neither of which is a NaN or +infinity. -/
def maxNum (a b : Num) : Num :=
  match a, b with
  | .inf true, y => y
  | x, .inf true => x
  | x, y => if x.rat < y.rat then y else x

/-- One row: its outputs and its log-sum-exp. -/
def softmaxRow (pre : Num) (xs : List Num) : Calc (List Num × Num) := do
  if xs.any Num.isNaN then
    flagInvalid
    return (xs.map (fun _ => .nan canonicalNaN), .nan canonicalNaN)
  else
    let ys ← xs.mapM (fmul pre)
    if ys.any (fun y => y == .inf false || y.isNaN) then
      flagInvalid
      return (xs.map (fun _ => .nan canonicalNaN), .nan canonicalNaN)
    else
      let m := ys.foldl maxNum (.inf true)
      if m = .inf true then return (xs.map (fun _ => .zero false), .inf true)
      else
        let es ← ys.mapM (fun y => do fexp (← fsub y m))
        let sum ← laneSum es
        let outs ← es.mapM (fun e => fdiv e sum)
        return (outs, ← fadd m (← fln sum))

def softmaxForward (s : State) (t : Nat) (k : Task) : Except AccFault (State × Nat) :=
  if s.vecOutside t k (smReads s k) (smWrites s k) then .error (.refuse 0x3002) else
  match s.readRows t k.ctx (fmtOf k.fmtA) k.len1 (rowAddrs k.addrA k.rowStride k.len0) with
  | .error e => .error e
  | .ok (xs, s) =>
    let (rows, n) := s.calc (xs.mapM (fun x => do
      let (ys, l) ← softmaxRow k.preScale x
      let bs ← (fmtOf k.fmtD).wideTensor ys
      let lse ← if k.addrE = 0 then pure [] else Fmt.fp32.wideTensor [l]
      return (bs, lse, badCount ys)))
    let lse := rows.flatMap (·.2.1)
    let outs := (rowAddrs k.addrD k.rowStride k.len0).zip (rows.map (·.1)) ++ (if k.addrE = 0 then [] else [(k.addrE, lse)])
    s.commit t k outs n [] (xs.foldl (fun a x => a + badCount x) 0 + rows.foldl (fun a r => a + r.2.2) 0)

def softmaxBackward (s : State) (t : Nat) (k : Task) : Except AccFault (State × Nat) :=
  if s.vecOutside t k (smReads s k) (smWrites s k) then .error (.refuse 0x3002) else
  match s.readRows t k.ctx (fmtOf k.fmtA) k.len1 (rowAddrs k.addrA k.rowStride k.len0) with
  | .error e => .error e
  | .ok (ys, s) =>
    match s.readRows t k.ctx (fmtOf k.fmtA) k.len1 (rowAddrs k.addrE k.rowStride k.len0) with
    | .error e => .error e
    | .ok (dys, s) =>
      let (rows, n) := s.calc ((ys.zip dys).mapM (fun p => do
        let sum ← laneSum (← map2M fmul p.2 p.1)
        let dx ← (p.1.zip p.2).mapM (fun q => do fmul (← fmul k.preScale q.1) (← fsub q.2 sum))
        return (← (fmtOf k.fmtD).wideTensor dx, badCount dx)))
      s.commit t k ((rowAddrs k.addrD k.rowStride k.len0).zip (rows.map (·.1))) n []
        ((ys ++ dys).foldl (fun a x => a + badCount x) 0 + rows.foldl (fun a r => a + r.2) 0)

/-- SOFTMAX forward (R201). -/
def execSoftmaxForward (t : TileId) (s : State) : Host.Outcome State Fault Refusal :=
  .next (s.runTask t.val 0x22 (fun k => !k.smBack) ⟨smReads, smWrites, softmaxForward⟩)

/-- SOFTMAX backward (R201). -/
def execSoftmaxBackward (t : TileId) (s : State) : Host.Outcome State Fault Refusal :=
  .next (s.runTask t.val 0x22 Task.smBack ⟨smReads, smWrites, softmaxBackward⟩)

/-! ## CONVERT (R202) -/

/-- The stored format of operand A, and the format D is written in. -/
def State.fmtIn (s : State) (k : Task) : Fmt := s.storedFmt k k.addrA (fmtOf k.fmtA)
def State.fmtOut (s : State) (k : Task) : Fmt := s.effFmt k (fmtOf k.fmtD)

def convertReads (s : State) (k : Task) : List (Nat × Nat) := [(k.addrA, (s.fmtIn k).bytes k.len0)]
def convertWrites (s : State) (k : Task) : List (Nat × Nat) := [(k.addrD, (s.fmtOut k).bytes k.len0)]

def Task.scaleMode (k : Task) : ScaleMode :=
  let m := bits (k.w 6) 63 62
  if m = 1 then .layer else if m = 3 then .explicit (numOfF32 (bits (k.w 7) 63 32)).rat else .block

/-- The random words of a task on a tile (R189). -/
def State.words (s : State) (t : Nat) (k : Task) (i : Nat) : Nat :=
  rngWord (match s.plan with | some p => p.jobSeed | none => 0) (s.stepOf k.ctx) t (bits (k.w 7) 31 0 + i)

def convert (s : State) (t : Nat) (k : Task) : Except AccFault (State × Nat) :=
  let fin := s.fmtIn k
  let want := fmtOf k.fmtD
  let eff := s.fmtOut k
  if s.vecOutside t k (convertReads s k) (convertWrites s k) then .error (.refuse 0x3002) else
  match s.readTensor t k.ctx k.addrA fin k.len0 with
  | .error e => .error e
  | .ok ((xs, bad), s) =>
    let li := (s.layerOf k).map (·.1)
    let cls := if bit (k.w 6) 60 then 2 else 0
    let r : Rounding := if bit (k.w 6) 61 then .stochastic (s.words t k) else .nearest
    let ((bs, cs), n) := s.calc (do
      flagBadScales bad
      s.destOut li cls want eff k.scaleMode r xs)
    match s.commit t k [(k.addrD, bs)] n [(cls, cs)] (badCount xs) with
    | .error e => .error e
    | .ok (s, st) => .ok (s.noteStored k k.addrD want eff, st)

/-- CONVERT (R191, R192, R202). -/
def execConvert (t : TileId) (s : State) : Host.Outcome State Fault Refusal :=
  .next (s.runTask t.val 0x28 (fun _ => true) ⟨convertReads, convertWrites, convert⟩)

/-! ## RNG_FILL (R203) -/

def rngWrites (_ : State) (k : Task) : List (Nat × Nat) := [(k.addrD, k.len0 * ((fmtOf k.fmtD).width / 8))]

/-- The code of one element. -/
def rngElem (f : Fmt) (dist : Nat) (prob : Rat) (word : Nat) : Nat :=
  let u : Rat := ((word >>> 40 : Nat) : Rat) * pow2 (-24)
  let code (v : Rat) : Nat := f.encodeWide (if v = 0 then .zero false else .fin v)
  if dist = 0 then word % 2 ^ 32
  else if dist = 1 then code (if f = .bf16 then ((word >>> 56 : Nat) : Rat) * pow2 (-8) else u)
  else code (if u < prob then 1 else 0)

def rngFill (s : State) (t : Nat) (k : Task) : Except AccFault (State × Nat) :=
  let f := fmtOf k.fmtD
  if s.vecOutside t k [] (rngWrites s k) then .error (.refuse 0x3002) else
  let bs := (List.range k.len0).flatMap (fun i =>
    leBytes (f.width / 8) (rngElem f (bits (k.w 6) 63 62) (numOfF32 (bits (k.w 6) 31 0)).rat (s.words t k i)))
  s.commit t k [(k.addrD, bs)] {} [] 0

/-- RNG_FILL (R203). -/
def execRngFill (t : TileId) (s : State) : Host.Outcome State Fault Refusal :=
  .next (s.runTask t.val 0x80 (fun _ => true) ⟨fun _ _ => [], rngWrites, rngFill⟩)

end Sys2Proof.Machine
end

