-- ==== Sys2Proof/Machine/Digital.lean ====
section
/-! DEFINITION. The digital arrays and the matrix-vector unit: GEMM, MATVEC, GEMM_BWD_PAIR and the attention blocks (R249 to R270). -/

namespace Sys2Proof.Machine

/-! ## Matrices (R250, R251) -/

/-- A matrix as it is read: rows of values, the block scale of each element (0 in a wide format), and whether the element has
the largest magnitude its format writes (R229). -/
structure Mat where
  vals : List (List Num)
  scales : List (List Rat)
  big : List (List Bool)
  deriving DecidableEq, Repr

/-- Rows and columns exchanged; c is the number of columns. -/
def transpose {α : Type} (c : Nat) (m : List (List α)) : List (List α) := (List.range c).map (fun j => m.filterMap (fun r => r[j]?))

def Mat.turn (m : Mat) (c : Nat) : Mat := ⟨transpose c m.vals, transpose c m.scales, transpose c m.big⟩

/-- The block scale of element i of a narrow tensor; 0 where the block is zero or poisoned. -/
def Fmt.scaleAt (f : Fmt) (bs : List Byte) (i : Nat) : Rat :=
  match readScale (field bs (i / 2048 * f.groupBytes + 256 * f.width + i % 2048 / 32) 1) with
  | .val v => v
  | _ => 0

/-- An element at the largest magnitude its narrow format writes. -/
def Fmt.largest (f : Fmt) (x : Num) (scale : Rat) : Bool := scale != 0 && absR x.rat == (f.emax : Rat) * scale

/-- Read a matrix stored as r rows of c elements. -/
def State.readMat (s : State) (t k va : Nat) (f : Fmt) (r c : Nat) : Except AccFault ((Mat × Nat) × State) :=
  match s.readVa (some t) k va (f.bytes (r * c)) with
  | .error e => .error e
  | .ok (bs, s) =>
    let (xs, bad) := f.readTensor bs (r * c)
    let scales := (List.range (r * c)).map (fun i => if f.narrow then f.scaleAt bs i else 0)
    let big := (xs.zip scales).map (fun p => f.narrow && f.largest p.1 p.2)
    let rows {α : Type} (l : List α) : List (List α) := chunks c r l
    .ok ((⟨rows xs, rows scales, rows big⟩, bad), s)

/-- At WIDE a narrow operand is rounded once to BF16 (R215). -/
def widen (wide : Bool) (f : Fmt) (m : Mat) : Calc Mat := do
  if wide && f.narrow then return { m with vals := ← m.vals.mapM (fun r => r.mapM (toWide .bf16)) }
  else return m

def badMat (m : List (List Num)) : Nat := m.foldl (fun a r => a + badCount r) 0

/-- Every output of a product: one row against one column, from its initial accumulator. -/
def matmul (init : List (List Num)) (rows cols : List (List Num)) : Calc (List (List Num)) :=
  (rows.zip init).mapM (fun p => (cols.zip p.2).mapM (fun q => do dotIn (← get).emu q.2 p.1 q.1))

def zeroMat (r c : Nat) : List (List Num) := List.replicate r (List.replicate c (.zero false))

/-- MACs whose multiplier is gated: one element zero, the other finite (R253). -/
def gatedMacs (rows cols : List (List Num)) : Nat :=
  rows.foldl (fun a r => cols.foldl (fun a c =>
    a + ((r.zip c).filter (fun p => (p.1.isZero && p.2.isFinite) || (p.2.isZero && p.1.isFinite))).length) a) 0

def State.countMacs (s : State) (macs gated : Nat) : State := (s.count 0x2610 1 64 macs).count 0x2610 2 64 gated

/-! ## Masters (R217, R242, R257) -/

/-- A layer's entry of WIDE_BINDING. -/
structure Binding where
  master : Nat
  stride : Nat
  bias : Nat
  fit : Nat
  deriving DecidableEq, Repr

def State.binding (s : State) (i : Nat) : Binding :=
  let e := ((mgetD s.blobs (key 0x5110 0) []).drop (32 * i)).take 32
  ⟨field e 0 6, 64 * field e 6 2, field e 8 6, field e 16 6⟩

/-- Rows of M48 master weights; no task makes these accesses (R340). -/
def State.readMaster (s : State) (t c : Nat) (b : Binding) (row col rows cols : Nat) : Except AccFault (List (List Num) × State) :=
  match s.readRows t c .m48 cols ((List.range rows).map (fun r => b.master + (row + r) * b.stride + 6 * col)) with
  | .error (.trans code va level w) => .error (.noTask code va level w)
  | r => r

/-! ## Rates and splits (R194, R258) -/

def rate (f : Fmt) : Nat := if f.width ≤ 4 then 8192 else if f.width ≤ 8 then 4096 else 1024
def up64 (n : Nat) : Nat := (n + 63) / 64 * 64
/-- The rate of a product, with a transposed operand narrower than 8 bits at the rate of the 8-bit formats (R251). -/
def rateOf (f : Fmt) (turned : Bool) : Nat := if turned && decide (f.width < 8) then 4096 else rate f

/-! ## Bodies -/

def Task.bodyK (k : Task) : Nat := bits (k.w 6) 63 40
def Task.aT (k : Task) : Bool := bit (k.w 6) 37
def Task.bT (k : Task) : Bool := bit (k.w 6) 36
def Task.dT (k : Task) : Bool := bit (k.w 6) 35
def Task.weightB (k : Task) : Bool := bit (k.w 6) 34
def Task.accInit (k : Task) : Nat := bits (k.w 6) 39 38
def Task.addrC (k : Task) : Nat := bits (k.w 7) 47 0
def Task.masterRow (k : Task) : Nat := 256 * bits (k.w 6) 31 16
def Task.masterCol (k : Task) : Nat := 256 * bits (k.w 6) 15 0

/-- A GEMM that runs on the matrix-vector unit (R254). -/
def Task.thin (k : Task) : Bool := k.opcode == 0x12 || (decide (k.len0 ≤ 8) && !k.aT && !k.bT && !k.dT)

def State.gemmMaster (s : State) (k : Task) : Bool := k.weightB && s.isWide k

/-- What a product reads, weights that the master replaces among it: their ferry slots are waited for and released as though
they had been read (R304). -/
def gemmReads (s : State) (k : Task) : List (Nat × Nat) :=
  let fa := s.storedFmt k k.addrA (fmtOf k.fmtA)
  let fb := s.storedFmt k k.addrB (fmtOf k.fmtB)
  [(k.addrA, fa.bytes (k.len0 * k.bodyK))] ++ [(k.addrB, fb.bytes (k.len1 * k.bodyK))]
    ++ (if k.accInit = 1 then [(k.addrC, 4 * k.len0 * k.len1)] else if k.accInit = 2 then [(k.addrC, 4 * k.len1)] else [])

/-- Reads without a weight operand that the master replaces. -/
def unlessMaster (k : Task) (master : Bool) (rs : List (Nat × Nat)) : List (Nat × Nat) :=
  rs.filter (fun r => !(master && r.1 == k.addrB && r.1 != k.addrA))

def gemmWrites (s : State) (k : Task) : List (Nat × Nat) := [(k.addrD, (s.fmtOut k).bytes (k.len0 * k.len1))]

/-- Operand B of a product: the matrix at ADDR_B as K columns per output, or the master rounded to BF16; answers N rows of K. -/
def State.weights (s : State) (t : Nat) (k : Task) (fb : Fmt) (wide master turned : Bool) :
    Except AccFault ((Mat × NumStat) × State) :=
  let K := k.bodyK
  let N := k.len1
  if master then
    match s.layerOf k with
    | none => .error (.refuse 0x7109)
    | some (i, _) =>
      let b := s.binding i
      if b.master = 0 then .error (.refuse 0x7109)
      else match s.readMaster t k.ctx b k.masterRow k.masterCol K N with
        | .error e => .error e
        | .ok (rows, s) =>
          let (ws, n) := s.calc (rows.mapM (fun r => r.mapM (toWide .bf16)))
          let m : Mat := ⟨transpose N ws, [], []⟩
          .ok ((m, n), s)
  else
    match (if turned then s.readMat t k.ctx k.addrB fb K N else s.readMat t k.ctx k.addrB fb N K) with
    | .error e => .error e
    | .ok ((m, bad), s) =>
      let m := if turned then m.turn N else m
      let (m, n) := s.calc (do
        flagBadScales bad
        widen wide fb m)
      .ok ((m, n), s)

/-- Add up what two evaluations flagged and counted. -/
def NumStat.add (a b : NumStat) : NumStat :=
  { a with status := a.status ||| b.status, nans := a.nans + b.nans, ovf := a.ovf + b.ovf, flush := a.flush + b.flush,
           sat := a.sat + b.sat, ufl := a.ufl + b.ufl, zb := a.zb + b.zb, pb := a.pb + b.pb, bs := a.bs + b.bs, sr := a.sr + b.sr }

/-- Which outputs have an input element at the largest magnitude of its grid. -/
def bigOuts (a b : Mat) : List Bool :=
  a.big.flatMap (fun r => b.big.map (fun c => r.any id || c.any id))

/-- The checker reads a weight's master in its place: its stored elements explain nothing (R229). -/
def Mat.unflagged (m : Mat) : Mat := { m with big := m.vals.map (fun r => r.map (fun _ => false)) }

/-- What a GEMM or a MATVEC counts (R287). -/
def State.gemmCount (s : State) (k : Task) (bBytes gated : Nat) : State :=
  let M := k.len0
  let N := k.len1
  let K := k.bodyK
  let s := if k.thin then
      let s := s.count 0x2610 3 64 (M * N * K)
      if k.opcode = 0x10 then s.count 0x2610 4 64 1 else s
    else s.countMacs (M * N * K) gated
  let r := rateOf (s.effFmt k (fmtOf k.fmtA)) (k.aT || k.bT)
  let past := if k.thin then decide (49152 * r / 2 < M * up64 N * up64 K ∨ 8388608 < bBytes)
    else decide (98304 * r < up64 M * up64 N * up64 K)
  if past then s.count 0x2610 5 64 1 else s

/-- A task may be sampled (R224). -/
def State.sampleable (s : State) (k : Task) : Bool := (s.layerOf k).isSome && !k.noSample && !k.alt && !k.noop

def State.gemmRun (s : State) (t : Nat) (k : Task) : Except AccFault (State × Nat) :=
  let M := k.len0
  let N := k.len1
  let K := k.bodyK
  let wide := s.isWide k
  let fa := s.storedFmt k k.addrA (fmtOf k.fmtA)
  let fb := s.storedFmt k k.addrB (fmtOf k.fmtB)
  let want := fmtOf k.fmtD
  let eff := s.fmtOut k
  let master := s.gemmMaster k
  if !(s.inWorkOrFerry t k.ctx (unlessMaster k master (gemmReads s k)) && s.inWork t k.ctx (gemmWrites s k) true) then .error (.refuse 0x1207) else
  match s.weights t k fb wide master k.bT with
  | .error e => .error e
  | .ok ((b, nb), s) =>
    match (if k.aT then s.readMat t k.ctx k.addrA fa K M else s.readMat t k.ctx k.addrA fa M K) with
    | .error e => .error e
    | .ok ((a, bad), s) =>
      let a := if k.aT then a.turn M else a
      match (if k.accInit = 1 then s.readTensor t k.ctx k.addrC .fp32 (M * N)
             else if k.accInit = 2 then s.readTensor t k.ctx k.addrC .fp32 N
             else .ok (([], 0), s)) with
      | .error e => .error e
      | .ok ((cs, _), s) =>
        let init : List (List Num) :=
          if k.accInit = 1 then (if k.dT then transpose M (chunks M N cs) else chunks N M cs)
          else if k.accInit = 2 then List.replicate M cs
          else zeroMat M N
        let li := (s.layerOf k).map (·.1)
        let ((a, acc, bs, cv), na) := s.calc (do
          flagBadScales bad
          let a ← widen wide fa a
          let acc ← matmul init a.vals b.vals
          let out := if k.dT then transpose N acc else acc
          let (bs, cv) ← s.destOut li 1 want eff (if li.isSome then .layer else .block) .nearest out.flatten
          return (a, acc, bs, cv))
        let n := na.add nb
        let s := s.gemmCount k (fb.bytes (N * K)) (gatedMacs a.vals b.vals)
        let s := if s.sampleable k then
            match li with
            | none => s
            | some i => s.setCap t k ⟨if wide then 2 else 1, i,
                [⟨a.vals, b.vals, b.scales, if k.weightB && !master then fb.code else 0, k.weightB, k.masterRow,
                  k.masterCol, false, init.flatten, acc.flatten, if wide then [] else bigOuts a (if k.weightB && !master then b.unflagged else b)⟩], [], false, false⟩
          else s
        match s.commit t k [(k.addrD, bs)] n [(1, cv)] (badMat a.vals + badMat b.vals) with
        | .error e => .error e
        | .ok (s, st) => .ok (s.noteStored k k.addrD want eff, st)

/-- Parts of a number of columns where a part may take a number of them: whole multiples of 64, and at least 64. -/
def partsOf (n most : Nat) : Nat := (up64 n + max 64 (most / 64 * 64) - 1) / max 64 (most / 64 * 64)

/-- The parts of a GEMM or MATVEC, split along N at the rate of the layer's level (R258). -/
def State.gemmParts (s : State) (k : Task) : Nat :=
  let r := rateOf (s.effFmt k (fmtOf k.fmtA)) (k.aT || k.bT)
  if k.thin then
    let fb := s.storedFmt k k.addrB (fmtOf k.fmtB)
    max (partsOf k.len1 (49152 * r / 2 / max 1 (k.len0 * up64 k.bodyK))) (partsOf k.len1 (8388608 / max 1 (fb.bytes k.bodyK)))
  else partsOf k.len1 (98304 * r / max 1 (up64 k.len0 * up64 k.bodyK))

/-- GEMM (R255 to R258). -/
def execGemm (t : TileId) (s : State) : Host.Outcome State Fault Refusal :=
  .next (s.runSplit t.val 0x10 (fun _ => true) ⟨gemmReads, gemmWrites, State.gemmRun⟩ State.gemmParts)

/-- MATVEC (R254, R255). -/
def execMatvec (t : TileId) (s : State) : Host.Outcome State Fault Refusal :=
  .next (s.runSplit t.val 0x12 (fun _ => true) ⟨gemmReads, gemmWrites, State.gemmRun⟩ State.gemmParts)

/-! ## GEMM_BWD_PAIR (R260 to R264) -/

def Task.derivFn (k : Task) : Nat := bits (k.w 6) 39 36
def Task.zF32 (k : Task) : Bool := bit (k.w 6) 35
def Task.dwAccum (k : Task) : Bool := bit (k.w 6) 34
def Task.zFmt (k : Task) : Fmt := if k.zF32 then .fp32 else .bf16

/-- Addresses of X, z and dW. -/
structure PairFrame where
  x : Nat
  z : Nat
  dw : Nat
  deriving DecidableEq, Repr

def pairFrame (bs : List Byte) : PairFrame := ⟨field bs 0 8, field bs 8 8, field bs 16 8⟩

/-- The rules of the frame (R264). -/
def pairFrameOk (k : Task) (bs : List Byte) : Bool :=
  let f := pairFrame bs
  let ok (a : Nat) : Bool := decide (a < 2 ^ 48 ∧ a % 64 = 0)
  ok f.x && ok f.z && ok f.dw && isZero (sub_ bs 24 40) && (decide (f.z = 0) == decide (k.derivFn = 0))

def pairReads (s : State) (k : Task) : List (Nat × Nat) :=
  let f := pairFrame (s.peekFrame k)
  let fa := fmtOf k.fmtA
  let K := k.bodyK
  [(k.addrA, (s.storedFmt k k.addrA fa).bytes (k.len0 * k.len1)), (f.x, (s.storedFmt k f.x fa).bytes (k.len0 * K)),
   (k.addrFrame, 64)]
    ++ [(k.addrB, (s.storedFmt k k.addrB (fmtOf k.fmtB)).bytes (k.len1 * K))]
    ++ (if k.derivFn = 0 then [] else [(f.z, k.zFmt.bytes (k.len0 * K))])
    ++ (if k.dwAccum then [(f.dw, 4 * k.len1 * K)] else [])

def pairWrites (s : State) (k : Task) : List (Nat × Nat) :=
  let f := pairFrame (s.peekFrame k)
  [(k.addrD, (s.fmtOut k).bytes (k.len0 * k.bodyK)), (f.dw, 4 * k.len1 * k.bodyK)]

def State.pairRun (s : State) (t : Nat) (k : Task) : Except AccFault (State × Nat) :=
  let M := k.len0
  let N := k.len1
  let K := k.bodyK
  let wide := s.isWide k
  let fdy := s.storedFmt k k.addrA (fmtOf k.fmtA)
  let fw := s.storedFmt k k.addrB (fmtOf k.fmtB)
  let want := fmtOf k.fmtD
  let eff := s.fmtOut k
  if !s.inWork t k.ctx [(k.addrFrame, 64)] false then .error (.refuse 0x1207) else
  match s.readFrame t k with
  | .error e => .error e
  | .ok (fb, s) =>
    if !pairFrameOk k fb then .error (.refuse 0x1201) else
    let f := pairFrame fb
    let fx := s.storedFmt k f.x (fmtOf k.fmtA)
    if !(s.inWorkOrFerry t k.ctx (unlessMaster k wide (pairReads s k)) && s.inWork t k.ctx (pairWrites s k) true) then .error (.refuse 0x1207) else
    match s.weights t k fw wide wide false with
    | .error e => .error e
    | .ok ((w, nw), s) =>
      match s.readMat t k.ctx k.addrA fdy M N with
      | .error e => .error e
      | .ok ((dy, bad1), s) =>
        match s.readMat t k.ctx f.x fx M K with
        | .error e => .error e
        | .ok ((x, bad2), s) =>
          match (if k.derivFn = 0 then .ok (([], 0), s) else s.readTensor t k.ctx f.z k.zFmt (M * K)) with
          | .error e => .error e
          | .ok ((zs, _), s) =>
            match (if k.dwAccum then s.readTensor t k.ctx f.dw .fp32 (N * K)
                   else .ok ((List.replicate (N * K) (Num.zero false), 0), s)) with
            | .error e => .error e
            | .ok ((dw0, _), s) =>
              let li := (s.layerOf k).map (·.1)
              let ((dy, x, dx, dw, bs, cv, ds), n) := s.calc (do
                flagBadScales (bad1 + bad2)
                let dy ← widen wide fdy dy
                let x ← widen wide fx x
                let dx ← matmul (zeroMat M K) dy.vals (transpose K w.vals)
                let gs ← if k.derivFn = 0 then pure dx.flatten
                  else (dx.flatten.zip zs).mapM (fun p => do fmul p.1 (← actD k.derivFn p.2))
                let dw ← matmul (chunks K N dw0) (transpose N dy.vals) (transpose K x.vals)
                let (bs, cv) ← s.destOut li 2 want eff .layer .nearest gs
                let ds ← Fmt.fp32.wideTensor dw.flatten
                return (dy, x, dx, dw, bs, cv, ds))
              let macs := M * N * K
              let s := s.countMacs (2 * macs)
                (gatedMacs dy.vals (transpose K w.vals) + gatedMacs (transpose N dy.vals) (transpose K x.vals))
              let fr := s.effFmt k (fmtOf k.fmtA)
              let r := if fr.width < 8 then 4096 else rate fr
              let s := if 49152 * r < up64 M * up64 N * up64 K then s.count 0x2610 5 64 1 else s
              let s := if s.sampleable k then
                  match li with
                  | none => s
                  | some i =>
                    let wt := w.turn K
                    let dyT := dy.turn N
                    s.setCap t k ⟨if wide then 2 else 1, i,
                      [⟨dy.vals, wt.vals, wt.scales, if wide then 0 else fw.code, true, k.masterRow, k.masterCol,
                        true, List.replicate (M * K) (.zero false), dx.flatten, if wide then [] else bigOuts dy wt.unflagged⟩,
                       ⟨dyT.vals, (x.turn K).vals, [], 0, false, 0, 0, false, dw0, dw.flatten,
                        if wide then [] else bigOuts dyT (x.turn K)⟩],
                      [], false, false⟩
                else s
              match s.commit t k [(k.addrD, bs), (f.dw, ds)] (n.add nw) [(2, cv)]
                  (badMat dy.vals + badMat w.vals + badMat x.vals + badCount zs + badMat dw) with
              | .error e => .error e
              | .ok (s, st) => .ok (s.noteStored k k.addrD want eff, st)

/-- The parts of a GEMM_BWD_PAIR, split along K (R258). -/
def State.pairParts (s : State) (k : Task) : Nat :=
  partsOf k.bodyK (49152 * rateOf (s.effFmt k (fmtOf k.fmtA)) true / max 1 (up64 k.len0 * up64 k.len1))

/-- GEMM_BWD_PAIR (R260 to R264). -/
def execGemmBwdPair (t : TileId) (s : State) : Host.Outcome State Fault Refusal :=
  .next (s.runSplit t.val 0x11 (fun _ => true) ⟨pairReads, pairWrites, State.pairRun⟩ State.pairParts)

/-! ## Attention (R266 to R269) -/

def Task.headDim (k : Task) : Nat := 16 * bits (k.w 6) 63 59
def Task.first (k : Task) : Bool := bit (k.w 6) 58
def Task.last (k : Task) : Bool := bit (k.w 6) 57
def Task.causal (k : Task) : Bool := bit (k.w 6) 56
def Task.qPos (k : Task) : Nat := bits (k.w 6) 47 24
def Task.kPos (k : Task) : Nat := bits (k.w 6) 23 0

/-- Address and format byte of a slot of the frame. -/
def slotAddr (fb : List Byte) (i : Nat) : Nat := field fb (8 * i) 6
def slotFmt (fb : List Byte) (i : Nat) : Nat := field fb (8 * i + 6) 1
def frameScale (fb : List Byte) : Nat := field fb 56 4

/-- The rules of the frame (R268). -/
def attnFrameOk (back : Bool) (fb : List Byte) : Bool :=
  let used : List Nat := if back then [0, 1, 2, 3, 4, 5, 6] else [0, 1, 2]
  (List.range 7).all (fun i =>
    if used.contains i then
      field fb (8 * i + 7) 1 == 0 && slotAddr fb i % 64 == 0
        && (if back && i == 1 then slotFmt fb i == 1 || slotFmt fb i == 2 else slotFmt fb i == 0)
    else field fb (8 * i) 8 == 0)
  && field fb 60 4 == 0
  && (match numOfF32 (frameScale fb) with | .fin _ => true | _ => false)

def attnReads (back : Bool) (s : State) (k : Task) : List (Nat × Nat) :=
  let fb := s.peekFrame k
  let D := k.headDim
  let sz (va rows : Nat) : Nat × Nat := (va, (s.storedFmt k va (fmtOf k.fmtA)).bytes (rows * D))
  [sz k.addrA k.len0, sz k.addrB k.len1, sz (slotAddr fb 0) k.len1, (k.addrFrame, 64)]
    ++ (if back then
          [(slotAddr fb 1, (fmtOf (slotFmt fb 1)).bytes (k.len0 * D)), (slotAddr fb 2, 8 * k.len0), sz (slotAddr fb 3) k.len0]
            ++ (if k.first then [] else [(slotAddr fb 4, 4 * k.len0 * D)])
            ++ (if k.last then [] else [(slotAddr fb 5, 4 * k.len1 * D), (slotAddr fb 6, 4 * k.len1 * D)])
        else if k.first then [] else [(slotAddr fb 1, 4 * k.len0 * D), (slotAddr fb 2, 8 * k.len0)])

def attnWrites (back : Bool) (s : State) (k : Task) : List (Nat × Nat) :=
  let fb := s.peekFrame k
  let D := k.headDim
  if back then
    (if k.first then [(slotAddr fb 2, 8 * k.len0)] else [])
      ++ [(slotAddr fb 4, 4 * k.len0 * D), (slotAddr fb 5, 4 * k.len1 * D), (slotAddr fb 6, 4 * k.len1 * D)]
  else
    [(slotAddr fb 1, 4 * k.len0 * D), (slotAddr fb 2, 8 * k.len0)]
      ++ (if k.last then [(k.addrD, (s.fmtOut k).bytes (k.len0 * D))] else [])

/-- Rows of probabilities or of dS in the operand format: BF16, or quantised in the block mode; no narrow element is written, and none
is counted (log 41). -/
def quantRow (f : Fmt) (xs : List Num) : Calc (List Num) := do
  if f.narrow then return (f.readTensor ((f.convTensor none .nearest 0 xs).run {}).1.1 xs.length).1
  else xs.mapM (toWide .bf16)

/-- The scores of a query row against every key row. -/
def scoreRow (k : Task) (scale : Num) (i : Nat) (q : List Num) (ks : List (List Num)) : Calc (List Num) :=
  ks.zipIdx.mapM (fun p => do
    let d ← dotIn (← get).emu (.zero false) q p.1
    let v ← fmul scale d
    return (if k.causal && decide (k.qPos + i < k.kPos + p.2) then .inf true else v))

/-- The state of one query row: o, m, l. -/
structure AttnRow where
  o : List Num
  m : Num
  l : Num
  deriving DecidableEq, Repr

/-- One row against one block of keys, with the MACs of P × V that were gated; a row with no live key has P = 0. -/
def attnStep (f : Fmt) (D : Nat) (st : AttnRow) (sc : List Num) (vT : List (List Num)) : Calc (AttnRow × Nat) := do
  if sc.any (fun x => x.isNaN || x == .inf false) || st.m.isNaN then
    flagInvalid
    return (⟨List.replicate D (.nan canonicalNaN), .nan canonicalNaN, .nan canonicalNaN⟩, 0)
  else
    let m := sc.foldl maxNum st.m
    if m = .inf true then return (st, gatedMacs [sc.map (fun _ => .zero false)] vT)
    else
      let alpha ← fexp (← fsub st.m m)
      let p ← sc.mapM (fun x => do fexp (← fsub x m))
      let l ← fadd (← fmul alpha st.l) (← laneSum p)
      let pq ← quantRow f p
      let o ← (st.o.zip vT).mapM (fun e => do
        fadd (← fmul alpha e.1) (← dotIn (← get).emu (.zero false) pq e.2))
      return (⟨o, m, l⟩, gatedMacs [pq] vT)

/-- The end of a row: its outputs and its log-sum-exp. -/
def attnFinish (st : AttnRow) : Calc (List Num × Num) := do
  if st.l.isNaN then return (st.o.map (fun _ => .nan canonicalNaN), .nan canonicalNaN)
  else if st.l = .zero false then return (st.o.map (fun _ => .zero false), .inf true)
  else
    let ys ← st.o.mapM (fun x => fdiv x st.l)
    return (ys, ← fadd st.m (← fln st.l))

/-- Pairs of FP32 values per row. -/
def pairsOf : List Num → List (Num × Num)
  | a :: b :: r => (a, b) :: pairsOf r
  | _ => []

/-- Q, K and V as the block reads them, with what reading flagged. -/
def State.readQkv (s : State) (t : Nat) (k : Task) (fb : List Byte) : Except AccFault ((Mat × Mat × Mat × NumStat) × State) :=
  let D := k.headDim
  let wide := s.isWide k
  let f (va : Nat) : Fmt := s.storedFmt k va (fmtOf k.fmtA)
  let fq := f k.addrA
  let fk := f k.addrB
  let fv := f (slotAddr fb 0)
  match s.readMat t k.ctx k.addrA fq k.len0 D with
  | .error e => .error e
  | .ok ((q, b1), s) =>
    match s.readMat t k.ctx k.addrB fk k.len1 D with
    | .error e => .error e
    | .ok ((kk, b2), s) =>
      match s.readMat t k.ctx (slotAddr fb 0) fv k.len1 D with
      | .error e => .error e
      | .ok ((v, b3), s) =>
        let ((q, kk, v), n) := s.calc (do
          flagBadScales (b1 + b2 + b3)
          return (← widen wide fq q, ← widen wide fk kk, ← widen wide fv v))
        .ok ((q, kk, v, n), s)

def State.attnForward (s : State) (t : Nat) (k : Task) : Except AccFault (State × Nat) :=
  let D := k.headDim
  let want := fmtOf k.fmtD
  let eff := s.fmtOut k
  let fp := s.effFmt k (fmtOf k.fmtA)
  if !s.inWork t k.ctx [(k.addrFrame, 64)] false then .error (.refuse 0x1207) else
  match s.readFrame t k with
  | .error e => .error e
  | .ok (fb, s) =>
    if !attnFrameOk false fb then .error (.refuse 0x1201) else
    if !(s.inWorkOrFerry t k.ctx (attnReads false s k) && s.inWork t k.ctx (attnWrites false s k) true) then .error (.refuse 0x1207) else
    match s.readQkv t k fb with
    | .error e => .error e
    | .ok ((q, kk, v, nq), s) =>
      match (if k.first then .ok ((List.replicate (k.len0 * D) (Num.zero false), 0), s)
             else s.readTensor t k.ctx (slotAddr fb 1) .fp32 (k.len0 * D)) with
      | .error e => .error e
      | .ok ((o0, _), s) =>
        match (if k.first then .ok (((List.replicate k.len0 [Num.inf true, Num.zero false]).flatten, 0), s)
               else s.readTensor t k.ctx (slotAddr fb 2) .fp32 (2 * k.len0)) with
        | .error e => .error e
        | .ok ((ml, _), s) =>
          let li := (s.layerOf k).map (·.1)
          let scale := numOfF32 (frameScale fb)
          let sts : List AttnRow := ((chunks D k.len0 o0).zip (pairsOf ml)).map (fun p => ⟨p.1, p.2.1, p.2.2⟩)
          let ((os, stats, outs, cv, gated), n) := s.calc (do
            let steps ← (q.vals.zip sts).zipIdx.mapM (fun p => do
              attnStep fp D p.1.2 (← scoreRow k scale p.2 p.1.1 kk.vals) (transpose D v.vals))
            let rows := steps.map (·.1)
            let gated := steps.foldl (fun a x => a + x.2) 0
            let os ← Fmt.fp32.wideTensor (rows.flatMap (·.o))
            if k.last then
              let fin ← rows.mapM attnFinish
              let stats ← Fmt.fp32.wideTensor (fin.flatMap (fun r => [r.2, .zero false]))
              let (bs, cv) ← s.destOut li 1 want eff (if li.isSome then .layer else .block) .nearest (fin.flatMap (·.1))
              return (os, stats, [(k.addrD, bs)], cv, gated)
            else
              let stats ← Fmt.fp32.wideTensor (rows.flatMap (fun r => [r.m, r.l]))
              return (os, stats, [], ({} : ConvStat), gated))
          let macs := k.len0 * k.len1 * D
          let s := (s.countMacs (2 * macs) (gatedMacs q.vals kk.vals + gated)).count 0x2610 6 64 1
          match s.commit t k ([(slotAddr fb 1, os), (slotAddr fb 2, stats)] ++ outs) (n.add nq) [(1, cv)]
              (badMat q.vals + badMat kk.vals + badMat v.vals) with
          | .error e => .error e
          | .ok (s, st) => .ok (if k.last then s.noteStored k k.addrD want eff else s, st)

/-- ATTN_FWD_BLOCK (R266). -/
def execAttnFwdBlock (t : TileId) (s : State) : Host.Outcome State Fault Refusal :=
  .next (s.runTask t.val 0x18 (fun _ => true) ⟨attnReads false, attnWrites false, State.attnForward⟩)

/-- The gradients of one block: dQ, dK, dV, the Δ of each row, and the MACs gated in its five products. -/
def attnGrads (k : Task) (f : Fmt) (D : Nat) (scale : Num) (q kk v dO o dq dk dv : List (List Num)) (stats : List (Num × Num)) :
    Calc (List (List Num) × List (List Num) × List (List Num) × List Num × Nat) := do
  let deltas ← if k.first then (dO.zip o).mapM (fun p => do laneSum (← map2M fmul p.1 p.2)) else pure (stats.map (·.2))
  let emu := (← get).emu
  let zero : Num := .zero false
  let ps ← (q.zip stats).zipIdx.mapM (fun p => do
    let sc ← scoreRow k scale p.2 p.1.1 kk
    let lse := p.1.2.1
    if lse = .inf true then return sc.map (fun _ => zero)
    else sc.mapM (fun x => do fexp (← fsub x lse)))
  let pq ← ps.mapM (quantRow f)
  let dv' ← (dv.zip (transpose k.len1 pq)).mapM (fun p => do
    (p.1.zip (transpose D dO)).mapM (fun e => do fadd e.1 (← dotIn emu zero p.2 e.2)))
  let ds ← ((ps.zip dO).zip deltas).mapM (fun p => do
    (p.1.1.zip v).mapM (fun e => do
      fmul e.1 (← fsub (← dotIn emu zero p.1.2 e.2) p.2)))
  let dsq ← ds.mapM (quantRow f)
  let dq' ← (dq.zip dsq).mapM (fun p => do
    (p.1.zip (transpose D kk)).mapM (fun e => do fadd e.1 (← fmul scale (← dotIn emu zero p.2 e.2))))
  let dk' ← (dk.zip (transpose k.len1 dsq)).mapM (fun p => do
    (p.1.zip (transpose D q)).mapM (fun e => do fadd e.1 (← fmul scale (← dotIn emu zero p.2 e.2))))
  let gated := gatedMacs q kk + gatedMacs (transpose k.len1 pq) (transpose D dO) + gatedMacs dO v
    + gatedMacs dsq (transpose D kk) + gatedMacs (transpose k.len1 dsq) (transpose D q)
  return (dq', dk', dv', deltas, gated)

/-- An FP32 accumulator: zeros at the start of its rows, else what it holds. -/
def State.accRows (s : State) (t c va rows D : Nat) (fresh : Bool) : Except AccFault (List (List Num) × State) :=
  if fresh then .ok (zeroMat rows D, s)
  else match s.readTensor t c va .fp32 (rows * D) with
    | .error e => .error e
    | .ok ((xs, _), s) => .ok (chunks D rows xs, s)

def State.attnBackward (s : State) (t : Nat) (k : Task) : Except AccFault (State × Nat) :=
  let D := k.headDim
  let fp := s.effFmt k (fmtOf k.fmtA)
  let wide := s.isWide k
  if !s.inWork t k.ctx [(k.addrFrame, 64)] false then .error (.refuse 0x1207) else
  match s.readFrame t k with
  | .error e => .error e
  | .ok (fb, s) =>
    if !attnFrameOk true fb then .error (.refuse 0x1201) else
    if !(s.inWorkOrFerry t k.ctx (attnReads true s k) && s.inWork t k.ctx (attnWrites true s k) true) then .error (.refuse 0x1207) else
    match s.readQkv t k fb with
    | .error e => .error e
    | .ok ((q, kk, v, nq), s) =>
      match s.readTensor t k.ctx (slotAddr fb 1) (fmtOf (slotFmt fb 1)) (k.len0 * D) with
      | .error e => .error e
      | .ok ((o, _), s) =>
        match s.readTensor t k.ctx (slotAddr fb 2) .fp32 (2 * k.len0) with
        | .error e => .error e
        | .ok ((ld, _), s) =>
          let fo := s.storedFmt k (slotAddr fb 3) (fmtOf k.fmtA)
          match s.readMat t k.ctx (slotAddr fb 3) fo k.len0 D with
          | .error e => .error e
          | .ok ((dO, b3), s) =>
            match s.accRows t k.ctx (slotAddr fb 4) k.len0 D k.first with
            | .error e => .error e
            | .ok (dq, s) =>
              match s.accRows t k.ctx (slotAddr fb 5) k.len1 D k.last with
              | .error e => .error e
              | .ok (dk, s) =>
                match s.accRows t k.ctx (slotAddr fb 6) k.len1 D k.last with
                | .error e => .error e
                | .ok (dv, s) =>
                  let stats := pairsOf ld
                  let ((bq, bk, bv, bst, bad, gated), n) := s.calc (do
                    flagBadScales b3
                    let dO ← widen wide fo dO
                    let (dq, dk, dv, deltas, gated) ← attnGrads k fp D (numOfF32 (frameScale fb)) q.vals kk.vals v.vals dO.vals
                      (chunks D k.len0 o) dq dk dv stats
                    let bst ← if k.first then Fmt.fp32.wideTensor ((stats.zip deltas).flatMap (fun p => [p.1.1, p.2])) else pure []
                    return (← Fmt.fp32.wideTensor dq.flatten, ← Fmt.fp32.wideTensor dk.flatten, ← Fmt.fp32.wideTensor dv.flatten, bst,
                      badMat dq + badMat dk + badMat dv, gated))
                  let macs := k.len0 * k.len1 * D
                  let s := (s.countMacs (5 * macs) gated).count 0x2610 6 64 1
                  s.commit t k ([(slotAddr fb 4, bq), (slotAddr fb 5, bk), (slotAddr fb 6, bv)]
                      ++ (if k.first then [(slotAddr fb 2, bst)] else [])) (n.add nq) []
                    (badMat q.vals + badMat kk.vals + badMat v.vals + badCount o + badMat dO.vals + bad)

/-- ATTN_BWD_BLOCK (R267). -/
def execAttnBwdBlock (t : TileId) (s : State) : Host.Outcome State Fault Refusal :=
  .next (s.runTask t.val 0x19 (fun _ => true) ⟨attnReads true, attnWrites true, State.attnBackward⟩)

end Sys2Proof.Machine
end

