-- ==== Sys2Proof/Machine/Weigh.lean ====
section
/-! DEFINITION. The weighbridge: contributions, exact accumulation, closes and replies; the factor descriptors and the optimiser (R388 to R416). -/

namespace Sys2Proof.Machine

/-! ## Entries, rounds and buckets (R388, R392, R418) -/

def State.reductionOf (s : State) (layer : Nat) : Option (Nat × ReductionDef) :=
  match s.plan with
  | none => none
  | some p => match p.reductions.findIdx? (fun r => r.layerIdx == layer), p.reductions.find? (fun r => r.layerIdx == layer) with
    | some i, some r => some (i, r)
    | _, _ => none

def State.reductionAt (s : State) (e : Nat) : Option ReductionDef := match s.plan with
  | none => none
  | some p => p.reductions[e]?

/-- An entry of REDUCTION_BINDING. -/
structure RedBind where
  pLanding : Nat
  closeBol : Nat
  qLanding : Nat
  paramBol : Nat
  accArea : Nat
  refusalMap : Nat
  deriving DecidableEq, Repr

def State.redBind (s : State) (e : Nat) : RedBind :=
  let b := sub_ (mgetD s.blobs (key 0x8010 0) []) (64 * e) 64
  ⟨field b 0 6, field b 6 2, field b 8 6, field b 14 2, field b 16 6, field b 24 6⟩

def RedBind.landing (b : RedBind) (q : Bool) : Nat := if q then b.qLanding else b.pLanding
def RedBind.complete (b : RedBind) : Bool := b.pLanding != 0 && b.qLanding != 0 && b.accArea != 0

/-- Rows of a factor bucket, and of a round. -/
def bucketRows (rank : Nat) : Nat := 1024 / rank
def roundRows (l : LayerDef) (q : Bool) : Nat := if q then l.n else l.k
def roundBuckets (l : LayerDef) (r : ReductionDef) (q : Bool) : Nat := ceilDiv (roundRows l q) (bucketRows r.rank)
/-- Elements of bucket j. -/
def bucketElems (l : LayerDef) (r : ReductionDef) (q : Bool) (j : Nat) : Nat :=
  (min (roundRows l q) ((j + 1) * bucketRows r.rank) - j * bucketRows r.rank) * r.rank

def State.contributors (s : State) (r : ReductionDef) : List Nat := match s.convoyDef r.projConvoy with
  | none => []
  | some d => d.nodes.map (·.pkg)

def instKey (e : Nat) (q : Bool) (j : Nat) : Nat := (2 * e + if q then 1 else 0) * 2 ^ 32 + j
def State.inst? (s : State) (k : Nat) : Option Inst := mget? s.weigh.insts k
def State.setInst (s : State) (k : Nat) (x : Inst) : State := { s with weigh := { s.weigh with insts := mset s.weigh.insts k x } }

/-- A reduction event of a layer's context: LAYER_ID and bucket in DETAIL. -/
def State.redEv (s : State) (l : LayerDef) (code sev j : Nat) : Ev :=
  s.ctxEv l.ctx code sev 9 l.ctx (leBytes 2 l.id ++ leBytes 2 j)

/-! ## The checks of a contribution (R400) -/

/-- CRC-64 of ECMA-182, reflected. -/
def crc64Step (c : Nat) : Nat := if c % 2 = 1 then (c / 2) ^^^ 0xC96C5795D7870F42 else c / 2
def crc64 (l : List Byte) : Nat :=
  (l.foldl (fun c b => iter 8 (fun _ x => crc64Step x) (c ^^^ b.toNat)) (2 ^ 64 - 1)) ^^^ (2 ^ 64 - 1)

def truncR (q : Rat) : Int := if q < 0 then -(-q).floor else q.floor

/-- Σ trunc(v × 2^32) modulo 2^64 over the finite elements. -/
def elementSum (xs : List Num) : Nat :=
  ofSigned 64 (xs.foldl (fun (a : Int) x => if x.isFinite then a + truncR (x.rat * pow2 32) else a) 0)

def f32s (bs : List Byte) : List Num := (Fmt.fp32.readTensor bs (bs.length / 4)).1

/-- TYPE_DATA of a contribution. -/
def accData (bs : List Byte) : List Byte := leBytes 8 (crc64 bs) ++ leBytes 8 (elementSum (f32s bs))

/-! ## Exact accumulation (R396, R397) -/

/-- What one element adds: its integer, saturated, below the window, non-finite. -/
def accOf (e : Int) (x : Num) : Int × Bool × Bool × Bool :=
  if x.bad then (0, false, false, true)
  else
    let v := x.rat
    if pow2 (e + 60) < absR v then ((if v < 0 then -(2 ^ 120 : Int) else 2 ^ 120), true, false, false)
    else
      let q := v / pow2 (e - 60)
      let n := rne q
      (n, false, decide ((n : Rat) ≠ q), false)

def addElems (e : Int) : List Int → List Bool → List Num → List Int × List Bool × Nat × Nat
  | a :: as, b :: bs, x :: xs =>
    let (n, sat, low, bad) := accOf e x
    let (as', bs', ns, nl) := addElems e as bs xs
    ((a + n) :: as', (b || bad) :: bs', ns + (if sat then 1 else 0), nl + (if low then 1 else 0))
  | _, _, _ => ([], [], 0, 0)

/-! ## Closes (R398, R402, R405) -/

/-- The values that a close writes, with what is counted of them: NaNs written, overflows, results flushed (R398, R211). -/
def closeCalc (x : Inst) (q : Bool) : Calc (List Num) :=
  let a := x.accepted.length
  (x.acc.zip x.bad).mapM (fun p =>
    if a = 0 then pure (.zero false)
    else if p.2 then do
      modify (fun (t : NumStat) => { t with nans := t.nans + 1 })
      return .nan canonicalNaN
    else roundTo .fp32 ((p.1 : Rat) * pow2 (x.exp - 60) / (if q then (a : Nat) else 1)) false)

def closeValues (x : Inst) (q : Bool) : List Num := (StateT.run (closeCalc x q) {}).1

/-- Every contributor that counts has been accepted: all, or all but an owner that skips its update (R406). -/
def State.instFull (s : State) (r : ReductionDef) (x : Inst) : Bool :=
  (s.contributors r).zipIdx.all (fun p => x.accepted.contains p.2 || (x.own && p.1 == s.ownPkg))

/-- An instance closes: the results go to the landing, the books are made up: who was neither accepted nor refused is missing (R405).
Landing writes that fault are never acknowledged. -/
def State.closeInst (s : State) (e : Nat) (q : Bool) (j : Nat) (deadline : Bool) : State :=
  match s.reductionAt e, s.inst? (instKey e q j) with
  | some r, some x => match s.layerAt r.layerIdx with
    | none => s
    | some l =>
      if x.phase ≠ 0 then s
      else
        let (vs, n) := s.calc (closeCalc x q)
        let s := s.countNum n
        let va := (s.redBind e).landing q + j * bucketRows r.rank * r.rank * 4
        let all := (s.contributors r).length
        let s := s.setInst (instKey e q j) { x with phase := 1 }
        let s := if deadline then s.count 0x8020 7 64 1 else if x.accepted.length = all then s.count 0x8020 6 64 1 else s
        let s := s.count 0x8020 8 64 (all - x.accepted.length - x.refused.length)
        let s := if x.saturated + x.below = 0 then s else s.logEv (s.redEv l 0x6006 note j)
        let s := if x.accepted = [] then s.logEv (s.redEv l 0x6007 warning j) else s
        match s.writeNow none l.ctx va (vs.flatMap (fun v => leBytes 4 (f32OfNum v))) with
        | .ok (_, s) => s
        | .error (.trans code va lv w) =>
          (s.setInst (instKey e q j) { x with phase := 2 }).transFault l.ctx code { va := va, level := lv, write := w, noTask := true }
        | .error _ => s.setInst (instKey e q j) { x with phase := 2 }
  | _, _ => s

/-- Close when nothing is waited for any more. -/
def State.maybeClose (s : State) (e : Nat) (q : Bool) (j : Nat) : State :=
  match s.reductionAt e, s.inst? (instKey e q j) with
  | some r, some x => if x.phase = 0 ∧ x.own ∧ s.instFull r x then s.closeInst e q j false else s
  | _, _ => s

/-- The exponent a new instance takes. -/
def State.baseExp (s : State) (k : Nat) : Int := match mget? s.weigh.exps k with
  | none => 0
  | some e => clampInt (-64) 64 (e + 4)

/-! ## A contribution at its owner (R394, R395, R401, R402) -/

/-- The bucket that a landing address begins. -/
def State.locate (s : State) (c dst : Nat) : Option (Nat × Bool × Nat) :=
  match s.plan with
  | none => none
  | some p =>
    let tryAt (e : Nat) (r : ReductionDef) (q : Bool) : Option (Nat × Bool × Nat) :=
      match p.layers[r.layerIdx]? with
      | none => none
      | some l =>
        let base := (s.redBind e).landing q
        let size := bucketRows r.rank * r.rank * 4
        if l.ctx = c ∧ r.owner = s.ownPkg ∧ base ≠ 0 ∧ base ≤ dst ∧ (dst - base) % size = 0 ∧ (dst - base) / size < roundBuckets l r q
        then some (e, q, (dst - base) / size) else none
    (p.reductions.zipIdx.flatMap (fun x => [tryAt x.2 x.1 false, tryAt x.2 x.1 true])).findSome? id

/-- An owned entry of the context whose binding is not complete. -/
def State.bindingGap (s : State) (c : Nat) : Bool := match s.plan with
  | none => true
  | some p => p.reductions.zipIdx.any (fun x => match p.layers[x.1.layerIdx]? with
    | none => false
    | some l => l.ctx == c && x.1.owner == s.ownPkg && !(s.redBind x.2).complete)

def newInst (step : Nat) (e : Int) (n deadline : Nat) : Inst :=
  ⟨step, e, List.replicate n 0, List.replicate n false, [], [], false, none, 0, 0, 0, deadline⟩

/-- STATUS of an answer and REFUSE_CODE (R403); 4 stands for a NACK (R367). -/
abbrev AccAnswer := Nat × Nat

/-- Accumulate what has passed both checks. -/
def State.accept1 (s : State) (e : Nat) (q : Bool) (j rank : Nat) (mine : Bool) (x : Inst) (vs : List Num) : State :=
  let (acc, bad, sat, low) := addElems x.exp x.acc x.bad vs
  let x := { x with acc := acc, bad := bad, accepted := x.accepted ++ [rank],
                    refused := x.refused.filter (fun i => i != rank), saturated := x.saturated + sat, below := x.below + low,
                    own := x.own || mine, timer := if mine then some s.timer else x.timer }
  let s := (s.setInst (instKey e q j) x).count 0x8020 1 64 1
  let s := (s.count 0x8020 4 64 sat).count 0x8020 5 64 low
  s.maybeClose e q j

/-- The instance that a contribution of a step meets, opened if there is none. -/
def State.openInst (s : State) (e : Nat) (q : Bool) (j step : Nat) (l : LayerDef) (r : ReductionDef) : Inst × State :=
  let k := instKey e q j
  let fresh (s : State) : Inst × State :=
    let x := newInst step (s.baseExp k) (bucketElems l r q j) (s.get 0x8000 1)
    (x, s.setInst k x)
  match s.inst? k with
  | none => fresh s
  | some x =>
    if x.phase ≠ 0 ∧ x.step < step then
      fresh (if x.phase = 1 then { s with weigh := { s.weigh with closing := s.weigh.closing ++ [(k, x)] } } else s)
    else (x, s)

/-- A contributor whose contribution to the open instance of its step was answered REFUSED, in its books (R405). -/
def State.bookRefused (s : State) (k step rank : Nat) : State :=
  match s.inst? k with
  | none => s
  | some x => if x.phase = 0 ∧ x.step = step ∧ !x.accepted.contains rank ∧ !x.refused.contains rank then
      s.setInst k { x with refused := x.refused ++ [rank] }
    else s

/-- One contribution: its answer, and the state after it. -/
def State.contribute (s : State) (c srcPkg step dst : Nat) (bs : List Byte) (data : List Byte) : AccAnswer × State :=
  match s.locate c dst with
  | none => ((3, if s.bindingGap c then 0x600C else 0x6001), s)
  | some (e, q, j) =>
    match s.reductionAt e with
    | none => ((3, 0x6001), s)
    | some r => match s.layerAt r.layerIdx with
      | none => ((3, 0x6001), s)
      | some l =>
        if !(s.redBind e).complete then ((3, 0x600C), s)
        else if bs.length ≠ 4 * bucketElems l r q j then
          ((3, 0x6001), match (s.contributors r).findIdx? (fun p => p == srcPkg) with
            | none => s
            | some rank => s.bookRefused (instKey e q j) step rank)
        else match (s.contributors r).findIdx? (fun p => p == srcPkg) with
          | none => ((3, 0x6002), s)
          | some rank =>
            let (x, s) := s.openInst e q j step l r
            if x.step = step ∧ x.accepted.contains rank then ((3, 0x6001), s)
            else if x.phase = 0 ∧ x.step < step then ((3, 0x6001), s)
            else if x.phase ≠ 0 ∨ step < x.step then
              ((1, 0), (s.setInst (instKey e q j) { x with
                refused := if x.step = step ∧ !x.refused.contains rank then x.refused ++ [rank] else x.refused }).count 0x8020 2 64 1)
            else if data ≠ accData bs then
              ((2, 0), ((s.count 0x8020 3 64 1).countError).logEv (s.redEv l 0x6003 note j))
            else
              match s.ranges none c dst bs.length .both with
              | .error (.trans code va lv w) => ((4, code), s.transFault c code { va := va, level := lv, write := w, noTask := true })
              | _ => ((0, 0), s.accept1 e q j rank (srcPkg == s.ownPkg) x (f32s bs))

/-- REPLY to a contribution (R403). -/
def State.replyAcc (s : State) (m : Msg) (a : AccAnswer) : State :=
  if a.1 = 4 then s.nack m a.2
  else s.answer 0x0B m ([BitVec.ofNat 8 a.1, 0] ++ leBytes 6 m.dstAddr ++ leBytes 2 a.2)

/-- BUCKET_DEADLINE (R402). -/
def execBucketDeadline (entry round bucket : Nat) (s : State) : Host.Outcome State Fault Refusal :=
  .next (
    let q := round == 1
    match s.inst? (instKey entry q bucket) with
    | some x => match x.timer with
      | some t => if x.phase = 0 ∧ t + x.deadline * 1000 ≤ s.timer then s.closeInst entry q bucket true else s
      | none => s
    | none => s)

/-- The record of a close, and its bollard (R397, R398). -/
def State.closeRecord (s : State) (entry : Nat) (q : Bool) (k : Nat) (x : Inst) : State :=
  let m := maxFinite (closeValues x q)
  let s := { s with weigh := { s.weigh with exps := if m = 0 then merase s.weigh.exps k else mset s.weigh.exps k (ilogR m) } }
  s.raise (s.redBind entry).closeBol 1 false

/-- BUCKET_CLOSE_ACKED (R397, R398): of a close that a newer instance has followed first. -/
def execBucketCloseAcked (entry round bucket : Nat) (s : State) : Host.Outcome State Fault Refusal :=
  .next (
    let q := round == 1
    let k := instKey entry q bucket
    match s.weigh.closing.find? (fun e => e.1 == k) with
    | some (_, x) =>
      ({ s with weigh := { s.weigh with closing := s.weigh.closing.eraseP (fun e => e.1 == k) } }).closeRecord entry q k x
    | none => match s.inst? k with
      | none => s
      | some x => if x.phase ≠ 1 then s else (s.setInst k { x with phase := 2 }).closeRecord entry q k x)

/-! ## Parameter buckets and versions (R409, R410) -/

/-- A parameter bucket of a layer has landed. -/
def State.bucketLanded (s : State) (layer : Nat) : State :=
  match s.reductionOf layer with
  | none => s
  | some (_, r) =>
    let x := s.layer layer
    let n := x.landed + 1
    let s := s.count 0x8020 9 64 1
    if r.buckets ≤ n then s.setLayer layer { x with landed := 0, version := (x.version + 1) % 2 ^ 30 }
    else s.setLayer layer { x with landed := n }

/-- An increment that a convoy's transfer applied to a bollard lands a bucket of the layer they are bound to. -/
def State.paramLanded (s : State) (convoy bollard inc : Nat) : State :=
  if inc = 0 then s
  else match s.plan with
    | none => s
    | some p => match p.reductions.zipIdx.find? (fun x => x.1.paramConvoy == convoy && (s.redBind x.2).paramBol == bollard) with
      | some x => s.bucketLanded x.1.layerIdx
      | none => s

/-- The owner's own contribution to a bucket, committed with count zero: it opens the step's instance where none has opened, and the
timer starts now (R395, R406). -/
def State.skipBucket (s : State) (e : Nat) (q : Bool) (j : Nat) (l : LayerDef) (r : ReductionDef) : State :=
  let (x, s) := s.openInst e q j (s.stepOf l.ctx % 2 ^ 32) l r
  if x.phase ≠ 0 then s
  else
    let timer := match x.timer with | some t => some t | none => some s.timer
    (s.setInst (instKey e q j) { x with own := true, timer := timer }).maybeClose e q j

/-- Every bucket of both rounds of an entry. -/
def State.skipBuckets (s : State) (e : Nat) (l : LayerDef) (r : ReductionDef) : State :=
  if !(s.redBind e).complete then s
  else [false, true].foldl (fun s q => (List.range (roundBuckets l r q)).foldl (fun s j => s.skipBucket e q j l r) s) s

/-- The notices to the receivers of a layer whose owner skips its update (R406). -/
def State.skipNotices (s : State) (c e : Nat) (r : ReductionDef) : State :=
  match s.convoyDef r.paramConvoy with
  | none => s
  | some d => (d.nodes.filter (fun n => n.pkg != s.ownPkg)).foldl (fun s n =>
    let (xid, s) := s.newTid hmTile
    match s.egress s.ownDom n.pkg 7 with
    | none => s
    | some port => s.sendXfer .device c s.ownDom n.pkg port xid false
        [{ s.message 0x05 7 s.ownDom n.pkg c xid with last := true, bollard := (s.redBind e).paramBol, increment := r.buckets }]) s

/-- A package skips its update (R406): for each layer it owns that has not been gated (R235), its own contributions count as committed
with count zero, and the receivers are told. -/
def State.weighSkip (s : State) (c : Nat) : State :=
  match s.plan with
  | none => s
  | some p => p.reductions.zipIdx.foldl (fun s x =>
    match p.layers[x.1.layerIdx]? with
    | none => s
    | some l =>
      if l.ctx ≠ c ∨ x.1.owner ≠ s.ownPkg ∨ (s.layer x.1.layerIdx).gate.isSome then s
      else (s.skipBuckets x.2 l x.1).skipNotices c x.2 x.1) s

/-! ## ACC (R393, R404, R415) -/

def Task.accFirst (k : Task) : Nat := bits (k.w 6) 63 48
def Task.accQ (k : Task) : Bool := bit (k.w 6) 47
def Task.vc (k : Task) : Nat := bits (k.w 6) 46 44
def Task.landingAddr (k : Task) : Nat := bits (k.w 7) 47 0

def noWrites (_ : State) (_ : Task) : List (Nat × Nat) := []
def readsA (_ : State) (k : Task) : List (Nat × Nat) := [(k.addrA, k.len0)]

/-- Write a bucket's bit of REFUSAL_MAP. -/
def State.refusalBit (s : State) (tile : Nat) (c e j : Nat) (v : Bool) : Except AccFault State :=
  let a := (s.redBind e).refusalMap + j / 8
  match s.readVa (some tile) c a 1 with
  | .error f => .error f
  | .ok (b, s) =>
    match s.writeNow (some tile) c a (leBytes 1 (setBit (ofLe b) (j % 8) v)) with
    | .error f => .error f
    | .ok (_, s) => .ok s

/-- The bits of REFUSAL_MAP that are set, for the first n buckets. -/
def State.refusals (s : State) (tile : Nat) (c e n : Nat) : Except AccFault (List Bool × State) :=
  match s.readVa (some tile) c (s.redBind e).refusalMap (ceilDiv n 8) with
  | .error f => .error f
  | .ok (bs, s) => .ok ((List.range n).map (fun j => bit (field bs (j / 8) 1) (j % 8)), s)

/-- What a final answer does at the sender (R404): the refusal bit of a Q bucket, the code logged, or the abort. -/
def State.accFinal (s : State) (t : Nat) (k : Task) (j : Nat) (a : AccAnswer) (exhausted : Bool) : Except AccFault State :=
  match s.layerOf k with
  | none => .ok s
  | some (i, l) =>
    let e := match s.reductionOf i with | some (e, _) => e | none => 0
    if a.1 = 3 ∨ a.1 = 4 then .error (.job a.2 9 k.ctx (leBytes 2 l.id ++ leBytes 2 j))
    else
      let s := if exhausted then s.logEv (s.redEv l 0x6004 warning j) else if a.1 = 1 then s.logEv (s.redEv l 0x6005 note j) else s
      if k.accQ then s.refusalBit t k.ctx e j (a.1 != 0) else .ok s

/-- The buckets of an ACC task: index, offset in its source, length. -/
def accBuckets (l : LayerDef) (r : ReductionDef) (k : Task) : List (Nat × Nat × Nat) :=
  let size := bucketRows r.rank * r.rank * 4
  (List.range (ceilDiv k.len0 size)).map (fun i => (k.accFirst + i, i * size, min size (k.len0 - i * size)))
    |>.filter (fun b => decide (b.1 < roundBuckets l r k.accQ))

def State.accLocal (s : State) (t : Nat) (k : Task) (bs : List Byte) : List (Nat × Nat × Nat) → Except AccFault State
  | [] => .ok s
  | (j, off, len) :: rest =>
    let piece := sub_ bs off len
    let (a, s) := s.contribute k.ctx s.ownPkg (s.stepOf k.ctx % 2 ^ 32) (k.landingAddr + off) piece (accData piece)
    match s.accFinal t k j a false with
    | .error f => .error f
    | .ok s => s.accLocal t k bs rest

/-- One contribution leaves (R393). -/
def State.sendAcc (s : State) (t : Nat) (k : Task) (owner port xid : Nat) (dst : Nat) (bs : List Byte) : State :=
  s.sendXfer (.task t k.id) k.ctx s.ownDom owner port xid false
    [{ s.message 0x04 k.vc s.ownDom owner k.ctx xid with
        dstAddr := dst, plen := bs.length, payload := bs, last := true, typeData := accData bs }]

def State.accRun (s : State) (t : Nat) (k : Task) : Except AccFault (State × Nat) :=
  match s.layerOf k with
  | none => .error (.refuse 0x600B)
  | some (i, l) => match s.reductionOf i with
    | none => .error (.refuse 0x600B)
    | some (_, r) =>
      if r.owner = s.ownPkg then
        match s.readVa (some t) k.ctx k.addrA k.len0 with
        | .error f => .error f
        | .ok (bs, s) => match s.accLocal t k bs (accBuckets l r k) with
          | .error f => .error f
          | .ok s => .ok (s, 0)
      else match s.mayRoute k.ctx s.ownDom r.owner k.vc with
        | .error f => .error f
        | .ok port => match s.readVa (some t) k.ctx k.addrA k.len0 with
          | .error f => .error (atTransmit port f)
          | .ok (bs, s) => .ok ((accBuckets l r k).foldl (fun s b =>
              let (xid, s) := s.newTid t
              let out : AccOut := ⟨t, k.id, xid, k.landingAddr + b.2.1, k.addrA + b.2.1, b.2.2, b.1, k.accQ, 0, s.get 0x8000 2⟩
              let s := ({ s with weigh := { s.weigh with outs := s.weigh.outs ++ [out] } }).awaits t k.id xid
              s.sendAcc t k r.owner port xid out.dst (sub_ bs b.2.1 b.2.2)) s, 0)

/-- ACC (R415). -/
def execAcc (t : TileId) (s : State) : Host.Outcome State Fault Refusal :=
  .next (s.runTask t.val 0x42 (fun _ => true) ⟨readsA, noWrites, State.accRun⟩)

/-- A contribution of a task has its final answer. -/
def State.accDone (s : State) (o : AccOut) (a : AccAnswer) (exhausted : Bool) : State :=
  let s := ({ s with weigh := { s.weigh with outs := s.weigh.outs.filter (fun x => x.xfer != o.xfer) } }).dropXfer o.xfer
  match s.findTask o.tile o.task with
  | none => s
  | some k => match s.accFinal o.tile k o.bucket a exhausted with
    | .error f => s.stopTask o.tile k f
    | .ok s => s.answered o.tile o.task o.xfer

/-- A contribution is sent again from its unchanged source. -/
def State.accResend (s : State) (o : AccOut) : State :=
  match s.findTask o.tile o.task, s.xfer? o.xfer with
  | some k, some x => match s.readVa (some o.tile) k.ctx o.src o.len with
    | .error f => s.stopTask o.tile k (atTransmit x.port f)
    | .ok (bs, s) =>
      let s := { s with weigh := { s.weigh with outs := s.weigh.outs.map (fun (y : AccOut) => if y.xfer = o.xfer then { y with resends := y.resends + 1 } else y) } }
      s.sendAcc o.tile k x.pkg x.port o.xfer o.dst bs
  | _, _ => s

/-- A REPLY to a contribution (R401, R404). -/
def State.accReply (s : State) (m : Msg) : State :=
  let echo := field m.typeData 2 6
  match s.weigh.outs.find? (fun o => o.xfer == m.transfer && o.dst == echo) with
  | none => s
  | some o =>
    let st := field m.typeData 0 1
    if st = 2 then
      (if o.resends < o.limit then s.accResend o else s.accDone o (2, 0) true)
    else s.accDone o (st, field m.typeData 8 2) false

/-! ## LOWRANK_PROJECT and RECONSTRUCT (R412, R413) -/

def Task.fold (k : Task) : Bool := bit (k.w 6) 35
def Task.addrR (k : Task) : Nat := bits (k.w 7) 47 0
def Task.resid (k : Task) : Bool := k.accInit == 1
def Task.qBase (k : Task) : Nat := bits (k.w 6) 31 0

def projReads (_ : State) (k : Task) : List (Nat × Nat) :=
  [(k.addrA, 4 * k.len0 * k.bodyK), (k.addrB, 4 * k.len1 * k.bodyK)]
    ++ (if k.accInit = 1 then [(k.addrD, 4 * k.len0 * k.len1)] else [])
    ++ (if k.fold then [(k.addrR, 4 * k.len0 * k.bodyK)] else [])
def projWrites (_ : State) (k : Task) : List (Nat × Nat) :=
  [(k.addrD, 4 * k.len0 * k.len1)] ++ (if k.fold then [(k.addrR, 4 * k.len0 * k.bodyK)] else [])

/-- The working-space rule of R252. -/
def State.arrayOutside (s : State) (t : Nat) (k : Task) (rs ws : List (Nat × Nat)) : Bool :=
  !(s.inWorkOrFerry t k.ctx rs && s.inWork t k.ctx ws true)

def toBf16 (m : List (List Num)) : Calc (List (List Num)) := m.mapM (fun r => r.mapM (toWide .bf16))

/-- FP32 elements as they are stored. -/
def f32Bytes (xs : List Num) : List Byte := xs.flatMap (fun x => leBytes 4 (f32OfNum x))

/-- Elements that a task writes in FP32: those written as NaN count (R211). -/
def NumStat.wrote (n : NumStat) (xs : List Num) : NumStat := { n with nans := n.nans + (xs.filter Num.isNaN).length }

def State.projRun (s : State) (t : Nat) (k : Task) : Except AccFault (State × Nat) :=
  let M := k.len0
  let N := k.len1
  let K := k.bodyK
  if s.arrayOutside t k (projReads s k) (projWrites s k) then .error (.refuse 0x1207) else
  match s.readTensor t k.ctx k.addrA .fp32 (M * K) with
  | .error e => .error e
  | .ok ((a, _), s) =>
  match (if k.fold then s.readTensor t k.ctx k.addrR .fp32 (M * K) else .ok (([], 0), s)) with
  | .error e => .error e
  | .ok ((r, _), s) =>
  match s.readTensor t k.ctx k.addrB .fp32 (N * K) with
  | .error e => .error e
  | .ok ((b, _), s) =>
  match (if k.accInit = 1 then s.readTensor t k.ctx k.addrD .fp32 (M * N) else .ok (([], 0), s)) with
  | .error e => .error e
  | .ok ((d, _), s) =>
    let ((g, rows, cols, acc), n) := s.calc (do
      let g ← if k.fold then map2M fadd a r else pure a
      let rows ← toBf16 (if k.aT then transpose M (chunks M K g) else chunks K M g)
      let cols ← toBf16 (if k.bT then transpose N (chunks N K b) else chunks K N b)
      let acc ← matmul (if k.accInit = 1 then chunks N M d else zeroMat M N) rows cols
      return (g, rows, cols, acc))
    let s := s.countMacs (M * N * K) (gatedMacs rows cols)
    let out := (if k.fold then g else []) ++ acc.flatten
    s.commit t k ((if k.fold then [(k.addrR, f32Bytes g)] else []) ++ [(k.addrD, f32Bytes acc.flatten)]) (n.wrote out) []
      (badMat rows + badMat cols + badCount out)

/-- LOWRANK_PROJECT (R412). -/
def execLowrankProject (t : TileId) (s : State) : Host.Outcome State Fault Refusal :=
  .next (s.runTask t.val 0x68 (fun _ => true) ⟨projReads, projWrites, State.projRun⟩)

def reconReads (_ : State) (k : Task) : List (Nat × Nat) :=
  [(k.addrA, 4 * k.len0 * k.bodyK), (k.addrB, 4 * k.len1 * k.bodyK)] ++ (if k.resid then [(k.addrD, 4 * k.len0 * k.len1)] else [])
def reconWrites (_ : State) (k : Task) : List (Nat × Nat) := [(k.addrD, 4 * k.len0 * k.len1)]

/-- The rows of Q_d as a residual reads them: a row of a refused bucket is +0. -/
def State.qRows (s : State) (t : Nat) (k : Task) (rows : List (List Num)) : Except AccFault (List (List Num) × State) :=
  if !k.resid then .ok (rows, s)
  else match s.layerOf k with
    | none => .ok (rows, s)
    | some (i, l) => match s.reductionOf i with
      | none => .ok (rows, s)
      | some (e, r) => match s.refusals t k.ctx e (roundBuckets l r true) with
        | .error f => .error f
        | .ok (map, s) => .ok (rows.zipIdx.map (fun p =>
            if map.getD ((k.qBase + p.2) / bucketRows r.rank) false then p.1.map (fun _ => .zero false) else p.1), s)

def State.reconRun (s : State) (t : Nat) (k : Task) : Except AccFault (State × Nat) :=
  let M := k.len0
  let N := k.len1
  let K := k.bodyK
  if s.arrayOutside t k (reconReads s k) (reconWrites s k) then .error (.refuse 0x1207) else
  match s.readTensor t k.ctx k.addrA .fp32 (M * K) with
  | .error e => .error e
  | .ok ((a, _), s) =>
  match s.readTensor t k.ctx k.addrB .fp32 (N * K) with
  | .error e => .error e
  | .ok ((b, _), s) =>
  match s.qRows t k (chunks K M a) with
  | .error e => .error e
  | .ok (aRows, s) =>
  match (if k.resid then s.readTensor t k.ctx k.addrD .fp32 (M * N) else .ok (([], 0), s)) with
  | .error e => .error e
  | .ok ((d, _), s) =>
    let ((rows, cols, out), n) := s.calc (do
      let rows ← toBf16 aRows
      let cols ← toBf16 (chunks K N b)
      let acc ← matmul (zeroMat M N) rows cols
      let out ← if k.resid then map2M fsub d acc.flatten else pure acc.flatten
      return (rows, cols, out))
    let s := s.countMacs (M * N * K) (gatedMacs rows cols)
    s.commit t k [(k.addrD, f32Bytes out)] (n.wrote out) [] (badMat rows + badMat cols + badCount out)

/-- RECONSTRUCT in owner mode (R413). -/
def execReconstructOwner (t : TileId) (s : State) : Host.Outcome State Fault Refusal :=
  .next (s.runTask t.val 0x6A (fun k => !k.resid) ⟨reconReads, reconWrites, State.reconRun⟩)

/-- RECONSTRUCT in residual mode (R413). -/
def execReconstructResidual (t : TileId) (s : State) : Host.Outcome State Fault Refusal :=
  .next (s.runTask t.val 0x6A (fun k => k.resid) ⟨reconReads, reconWrites, State.reconRun⟩)

/-! ## ORTHO (R414) -/

def Task.orthoMode (k : Task) : Nat := bits (k.w 6) 63 62
def Task.gramInit (k : Task) : Bool := bit (k.w 6) 61
def Task.refresh (k : Task) : Bool := bit (k.w 6) 60

/-- RANK of the task's layer. -/
def State.rankOf (s : State) (k : Task) : Nat := match s.layerOf k with
  | none => 0
  | some (i, _) => match s.reductionOf i with
    | none => 0
    | some (_, r) => r.rank

def orthoReads (s : State) (k : Task) : List (Nat × Nat) :=
  let r := s.rankOf k
  match k.orthoMode with
  | 0 => [(k.addrA, 4 * k.len0 * r)] ++ (if k.gramInit then [] else [(k.addrB, 4 * r * r)])
  | 1 => [(k.addrB, 4 * r * r)]
  | _ => [(k.addrA, 4 * k.len0 * r), (k.addrB, 4 * r * r + 8)]
def orthoWrites (s : State) (k : Task) : List (Nat × Nat) :=
  let r := s.rankOf k
  match k.orthoMode with
  | 0 => [(k.addrB, 4 * r * r)]
  | 1 => [(k.addrD, 4 * r * r + 8)]
  | _ => [(k.addrD, 4 * k.len0 * r)]

def State.orthoOutside (s : State) (t : Nat) (k : Task) : Bool :=
  !(s.inWork t k.ctx (orthoReads s k) false && s.inWork t k.ctx (orthoWrites s k) true)

def cell (m : List (List Num)) (i j : Nat) : Num := (m.getD i []).getD j (.zero false)

/-- One row into the Gram matrix: its upper triangle, mirrored. -/
def gramRow (r : Nat) (c : List (List Num)) (a : List Num) : Calc (List (List Num)) := do
  let up ← (List.range r).mapM (fun i => (List.range r).mapM (fun j =>
    if i ≤ j then do fadd (cell c i j) (← fmul (a.getD i (.zero false)) (a.getD j (.zero false))) else pure (.zero false)))
  return (List.range r).map (fun i => (List.range r).map (fun j => if i ≤ j then cell up i j else cell up j i))

def State.gramRun (s : State) (t : Nat) (k : Task) : Except AccFault (State × Nat) :=
  let r := s.rankOf k
  if s.orthoOutside t k then .error (.refuse 0x600A) else
  match s.readTensor t k.ctx k.addrA .fp32 (k.len0 * r) with
  | .error e => .error e
  | .ok ((a, _), s) =>
    match (if k.gramInit then .ok (((zeroMat r r).flatten, 0), s) else s.readTensor t k.ctx k.addrB .fp32 (r * r)) with
    | .error e => .error e
    | .ok ((c, _), s) =>
      let (out, n) := s.calc ((chunks r k.len0 a).foldlM (gramRow r) (chunks r r c))
      s.commit t k [(k.addrB, f32Bytes out.flatten)] (n.wrote out.flatten) [] (badCount a + badMat out)

/-- ORTHO in GRAM mode. -/
def execOrthoGram (t : TileId) (s : State) : Host.Outcome State Fault Refusal :=
  .next (s.runTask t.val 0x69 (fun k => k.orthoMode == 0) ⟨orthoReads, orthoWrites, State.gramRun⟩)

/-- Σ of products over a range of the inner index, subtracted in ascending order from a start. -/
def subProducts (start : Num) (xs ys : List Num) : Calc Num :=
  (xs.zip ys).foldlM (fun acc p => do fsub acc (← fmul p.1 p.2)) start

def numLe (a b : Num) : Bool := match a, b with
  | .nan _, _ => false
  | _, .nan _ => false
  | .inf true, _ => true
  | _, .inf false => true
  | .inf false, _ => false
  | _, .inf true => false
  | x, y => decide (x.rat ≤ y.rat)

/-- One column of the factor: L so far is kept by columns. Answers the column and whether it is deficient. -/
def factorCol (r : Nat) (limit : Num) (c : List (List Num)) (done : List (List Num)) (j : Nat) : Calc (List Num × Bool) := do
  let rowJ := done.map (fun col => col.getD j (.zero false))
  let d ← subProducts (cell c j j) rowJ rowJ
  if numLe d limit then
    return ((List.range r).map (fun i => if i = j then one else .zero false), true)
  else
    let p ← fsqrt d
    let col ← (List.range r).mapM (fun i =>
      if i < j then pure (.zero false)
      else if i = j then pure p
      else do
        let v ← subProducts (cell c i j) (done.map (fun col => col.getD i (.zero false))) rowJ
        fdiv v p)
    return (col, false)

/-- (Lᵀ)^−1 by back substitution, upper triangular, column by column: element (i, j) for i ≤ j. L is given by columns. -/
def invertCol (r : Nat) (l : List (List Num)) (j : Nat) : Calc (List Num) := do
  let lt (i k : Nat) : Num := (l.getD i []).getD k (.zero false)   -- (Lᵀ)[i][k] = L[k][i]
  let col ← (List.range (j + 1)).foldlM (fun (acc : List Num) step => do
      let i := j - step
      let start : Num := if i = j then one else .zero false
      -- acc holds rows i+1 .. j of the column
      let v ← subProducts start ((List.range (j - i)).map (fun m => lt i (i + 1 + m))) acc
      return (← fdiv v (lt i i)) :: acc) []
  return col ++ List.replicate (r - (j + 1)) (.zero false)

def State.factorRun (s : State) (t : Nat) (k : Task) : Except AccFault (State × Nat) :=
  let r := s.rankOf k
  if s.orthoOutside t k then .error (.refuse 0x600A) else
  match s.readTensor t k.ctx k.addrB .fp32 (r * r) with
  | .error e => .error e
  | .ok ((cs, _), s) =>
    let c := chunks r r cs
    let ((_, defs, tm), n) := s.calc (do
      let top := (List.range r).foldl (fun m i => maxNum m (cell c i i)) (.inf true)
      let limit ← fmul (.fin (pow2 (-40))) top
      let (cols, defs) ← (List.range r).foldlM (fun (acc : List (List Num) × List Bool) j => do
        let (col, d) ← factorCol r limit c acc.1 j
        return (acc.1 ++ [col], acc.2 ++ [d])) ([], [])
      let inv ← (List.range r).mapM (fun j => if defs.getD j false then pure (List.replicate r (.zero false)) else invertCol r cols j)
      return (cols, defs, transpose r inv))
    let mask := defs.zipIdx.foldl (fun m p => if p.1 then m + 2 ^ p.2 else m) 0
    let count := (defs.filter id).length
    let s := s.count 0x8020 10 64 count
    let s := match s.layerOf k with
      | some (_, l) => iter count (fun _ (s : State) => s.logEv (s.redEv l 0x600D note 0)) s
      | none => s
    s.commit t k [(k.addrD, f32Bytes tm.flatten ++ leBytes 8 mask)] (n.wrote tm.flatten) [] (badCount cs + badMat tm)

/-- ORTHO in FACTOR mode. -/
def execOrthoFactor (t : TileId) (s : State) : Host.Outcome State Fault Refusal :=
  .next (s.runTask t.val 0x69 (fun k => k.orthoMode == 1) ⟨orthoReads, orthoWrites, State.factorRun⟩)

/-- One element of APPLY: a row against a column of T, in ascending order. -/
def applyElem (row col : List Num) : Calc Num :=
  (row.zip col).foldlM (fun acc p => do fadd acc (← fmul p.1 p.2)) (.zero false)

def State.applyRun (s : State) (t : Nat) (k : Task) : Except AccFault (State × Nat) :=
  let r := s.rankOf k
  if s.orthoOutside t k then .error (.refuse 0x600A) else
  match s.readTensor t k.ctx k.addrA .fp32 (k.len0 * r) with
  | .error e => .error e
  | .ok ((a, _), s) =>
    match s.readVa (some t) k.ctx k.addrB (4 * r * r + 8) with
    | .error e => .error e
    | .ok (tb, s) =>
      let cols := transpose r (chunks r r (f32s (tb.take (4 * r * r))))
      let mask := field tb (4 * r * r) 8
      let (out, n) := s.calc ((chunks r k.len0 a).zipIdx.mapM (fun p => (cols.zipIdx.mapM (fun q => do
        if k.refresh && bit mask q.2 then
          let w := s.words t k (0xC0000000 + (k.qBase + p.2) * 64 + q.2)
          let v : Rat := ((w / 2 ^ 40 : Nat) : Rat) * pow2 (-23) - 1
          return (if v = 0 then Num.zero false else .fin v)
        else applyElem p.1 q.1))))
      s.commit t k [(k.addrD, f32Bytes out.flatten)] (n.wrote out.flatten) [] (badCount a + badMat out)

/-- ORTHO in APPLY mode. -/
def execOrthoApply (t : TileId) (s : State) : Host.Outcome State Fault Refusal :=
  .next (s.runTask t.val 0x69 (fun k => k.orthoMode == 2) ⟨orthoReads, orthoWrites, State.applyRun⟩)

/-! ## OPT_STEP (R407 to R409) -/

def Task.adam (k : Task) : Bool := bits (k.w 6) 63 62 == 1
def Task.broadcast (k : Task) : Bool := bit (k.w 6) 61
def Task.bucketEnd (k : Task) : Bool := bit (k.w 6) 60
def Task.optVc (k : Task) : Nat := bits (k.w 6) 59 57

def stateWords (k : Task) : Nat := if k.adam then 2 else 1
def optReads (_ : State) (k : Task) : List (Nat × Nat) :=
  [(k.addrA, 4 * k.len0), (k.landingAddr, 64), (k.addrB, 4 * stateWords k * k.len0), (k.addrD, 6 * k.len0)]
def optWrites (_ : State) (k : Task) : List (Nat × Nat) := [(k.addrB, 4 * stateWords k * k.len0), (k.addrD, 6 * k.len0)]

/-- The hyperparameters of the frame, in its order: LR, B1, OMB1, B2, OMB2, EPS, WD, C1, C2. -/
def hyper (fb : List Byte) : List Num := (List.range 9).map (fun i => numOfF32 (field fb (4 * i) 4))

def hyperOk (adam : Bool) (fb : List Byte) : Bool :=
  let h := hyper fb
  h.all Num.isFinite && isZero (sub_ fb 36 28)
    && (if adam then decide (0 < (h.getD 5 (.zero false)).rat)
        else [2, 3, 4, 5, 7, 8].all (fun i => field fb (4 * i) 4 == 0))

/-- One element: g, its state, its master; answers the new state and the new master. -/
def optElem (adam : Bool) (h : List Num) (g : Num) (st : List Num) (w : Num) : Calc (List Num × Num) := do
  let p (i : Nat) : Num := h.getD i (.zero false)
  let m := st.getD 0 (.zero false)
  let mul48 := mulIn .m48
  if adam then
    let m ← fadd (← fmul (p 1) m) (← fmul (p 2) g)
    let v ← fadd (← fmul (p 3) (st.getD 1 (.zero false))) (← fmul (p 4) (← fmul g g))
    let u ← fdiv (← fmul m (p 7)) (← fadd (← fsqrt (← fmul v (p 8))) (p 5))
    let w ← addIn .m48 w (← mul48 (p 0) (← addIn .m48 u (← mul48 (p 6) w))).flip
    return ([m, v], w)
  else
    let m ← fadd (← fmul (p 1) m) g
    let w ← addIn .m48 w (← mul48 (p 0) (← addIn .m48 m (← mul48 (p 6) w))).flip
    return ([m], w)

def State.optRun (s : State) (t : Nat) (k : Task) : Except AccFault (State × Nat) :=
  let sw := stateWords k
  match s.layerOf k with
  | none => .error (.refuse 0x600B)
  | some (i, _) => match s.reductionOf i with
    | none => .error (.refuse 0x600B)
    | some (e, rd) =>
      if !s.inWork t k.ctx [(k.addrA, 4 * k.len0), (k.landingAddr, 64)] false then .error (.refuse 0x600A)
      else if rd.owner ≠ s.ownPkg then .error (.refuse 0x600B)
      else match (if k.broadcast then s.mayMulticast k.ctx rd.paramConvoy k.optVc else .ok ()) with
        | .error f => .error f
        | .ok () => match s.readVa (some t) k.ctx k.landingAddr 64 with
          | .error f => .error f
          | .ok (fb, s) =>
            if !hyperOk k.adam fb then .error (.refuse 0x6008)
            else match s.readTensor t k.ctx k.addrA .fp32 k.len0 with
              | .error f => .error f
              | .ok ((g, _), s) => match s.readTensor t k.ctx k.addrB .fp32 (sw * k.len0) with
                | .error f => .error f
                | .ok ((st, _), s) => match s.readTensor t k.ctx k.addrD .m48 k.len0 with
                  | .error f => .error f
                  | .ok ((w, _), s) =>
                    let (out, n) := s.calc (((g.zip (chunks sw k.len0 st)).zip w).mapM (fun p =>
                      optElem k.adam (hyper fb) p.1.1 p.1.2 p.2))
                    let sts := out.flatMap (·.1)
                    let ws := out.map (·.2)
                    if (g ++ st ++ sts ++ ws).any Num.bad then .error (.refuse 0x6009)
                    else
                      let wb := ws.flatMap (fun x => leBytes 6 (Fmt.m48.encodeWide x))
                      match s.commit t k [(k.addrB, f32Bytes sts), (k.addrD, wb)] n [] 0 with
                      | .error f => .error f
                      | .ok (s, status) =>
                        let s := if k.bucketEnd then s.modTask t k.id (fun x => { x with landing := some (i, 0) }) else s
                        if k.broadcast then
                          let s := s.modTask t k.id (fun x => { x with express := true })
                          .ok (s.multicast t k rd.paramConvoy k.optVc k.addrD k.addrD wb (s.redBind e).paramBol
                            (if k.bucketEnd then 1 else 0) true, status)
                        else .ok (s, status)

/-- OPT_STEP with SGD and momentum. -/
def execOptStepSgd (t : TileId) (s : State) : Host.Outcome State Fault Refusal :=
  .next (s.runTask t.val 0x23 (fun k => !k.adam) ⟨optReads, optWrites, State.optRun⟩)

/-- OPT_STEP with AdamW. -/
def execOptStepAdamw (t : TileId) (s : State) : Host.Outcome State Fault Refusal :=
  .next (s.runTask t.val 0x23 (fun k => k.adam) ⟨optReads, optWrites, State.optRun⟩)

end Sys2Proof.Machine
end

