-- ==== Sys2Proof/Machine/Fabric.lean ====
section
/-! DEFINITION. The fabric's tasks and the messages that arrive: PUT, GET, MCAST, DISPATCH, COMBINE, the message types, acknowledgements, link events (R361 to R382). -/

namespace Sys2Proof.Machine

/-! ## PUT, GET, MCAST (R380) -/

def Task.target (k : Task) : Nat := bits (k.w 6) 63 48
def Task.otherDom (k : Task) : Bool := bit (k.w 6) 47
def Task.remoteBol (k : Task) : Nat := bits (k.w 6) 31 16
def Task.remoteInc (k : Task) : Nat := bits (k.w 7) 63 32
def State.targetDom (s : State) (k : Task) : Nat := if k.otherDom then 1 - s.ownDom else s.ownDom

def putRun (s : State) (t : Nat) (k : Task) : Except AccFault (State × Nat) :=
  match s.mayRoute k.ctx (s.targetDom k) k.target k.vc with
  | .error f => .error f
  | .ok port => match s.readVa (some t) k.ctx k.addrA k.len0 with
    | .error f => .error (atTransmit port f)
    | .ok (bs, s) =>
      let (xid, s) := s.newTid t
      let ms := msgSplit (s.message 0x01 k.vc (s.targetDom k) k.target k.ctx xid) k.addrD bs k.remoteBol k.remoteInc
      .ok ((s.awaits t k.id xid).sendXfer (.task t k.id) k.ctx (s.targetDom k) k.target port xid false ms, 0)

/-- PUT. -/
def execPut (t : TileId) (s : State) : Host.Outcome State Fault Refusal :=
  .next (s.runTask t.val 0x40 (fun _ => true) ⟨readsA, noWrites, putRun⟩)

def writesD (_ : State) (k : Task) : List (Nat × Nat) := [(k.addrD, k.len0)]
def noReads (_ : State) (_ : Task) : List (Nat × Nat) := []

/-- One GET_REQ for each piece of the local destination. -/
def getRequests (m : Msg) (src dst len : Nat) : List Msg :=
  let us := unitsOf dst len
  us.zipIdx.map (fun p => { m with dstAddr := dst + p.1.1, srcAddr := src + p.1.1, plen := p.1.2, last := decide (p.2 + 1 = us.length) })

def getRun (s : State) (t : Nat) (k : Task) : Except AccFault (State × Nat) :=
  match s.mayRoute k.ctx (s.targetDom k) k.target k.vc with
  | .error f => .error f
  | .ok port =>
    let (xid, s) := s.newTid t
    let ms := getRequests (s.message 0x02 k.vc (s.targetDom k) k.target k.ctx xid) k.addrA k.addrD k.len0
    .ok ((s.awaits t k.id xid).sendXfer (.task t k.id) k.ctx (s.targetDom k) k.target port xid false ms, 0)

/-- GET. -/
def execGet (t : TileId) (s : State) : Host.Outcome State Fault Refusal :=
  .next (s.runTask t.val 0x41 (fun _ => true) ⟨noReads, writesD, getRun⟩)

def mcastRun (s : State) (t : Nat) (k : Task) : Except AccFault (State × Nat) :=
  match s.mayMulticast k.ctx k.target k.vc with
  | .error f => .error f
  | .ok () => match s.readVa (some t) k.ctx k.addrA k.len0 with
    | .error f => .error (atTransmit ((s.egress s.ownDom ((s.convoyKids k.target).headD 0) k.vc).getD 0) f)
    | .ok (bs, s) => .ok (s.multicast t k k.target k.vc k.addrA k.addrD bs k.remoteBol k.remoteInc false, 0)

/-- MCAST. -/
def execMcast (t : TileId) (s : State) : Host.Outcome State Fault Refusal :=
  .next (s.runTask t.val 0x43 (fun _ => true) ⟨readsA, noWrites, mcastRun⟩)

/-! ## DISPATCH and COMBINE (R375 to R378, R381) -/

/-- The expert group by rank; the first 0xFFFF ends it. -/
def State.expertGroup (s : State) : List Nat :=
  ((List.range 255).map (fun i => s.get 0x7100 (i + 1))).takeWhile (fun p => p != 0xFFFF)

structure Expert where
  owner : Nat
  quota : Nat
  buffer : Nat
  index : Nat
  deriving DecidableEq, Repr

def State.expert (s : State) (e : Nat) : Expert :=
  let b := sub_ (mgetD s.blobs (key 0x7110 0) []) (16 * e) 16
  ⟨field b 0 2, field b 2 2, field b 4 6, field b 10 6⟩

def Task.tokStride (k : Task) : Nat := 64 * bits (k.w 6) 63 48
def Task.tokBytes (k : Task) : Nat := 64 * bits (k.w 6) 47 32
def Task.tokVc (k : Task) : Nat := bits (k.w 6) 31 29
def Task.overflowMode (k : Task) : Bool := bit (k.w 6) 28
def Task.groupBol (k : Task) : Nat := bits (k.w 6) 15 0
def Task.expertBase (k : Task) : Nat := bits (k.w 7) 63 48
def Task.expertCount (k : Task) : Nat := bits (k.w 7) 47 32

/-- Where the tokens of a task go: per token its expert and slot, or none; and the counts of rerouted and dropped ones. -/
structure Placement where
  count : List Nat
  places : List (Option (Nat × Nat))
  rerouted : Nat
  dropped : Nat
  deriving DecidableEq, Repr

def placeToken (quota : Nat → Nat) (second : Bool) (p : Placement) (route : Nat × Nat) : Placement :=
  let cnt (e : Nat) : Nat := p.count.getD e 0
  let free (e : Nat) : Bool := decide (e < p.count.length ∧ cnt e < quota e)
  let put (e r : Nat) : Placement :=
    { p with count := p.count.set e (cnt e + 1), places := p.places ++ [some (e, cnt e)], rerouted := p.rerouted + r }
  let drop : Placement := { p with places := p.places ++ [none], dropped := p.dropped + 1 }
  if decide (p.count.length ≤ route.1) || quota route.1 == 0 then drop
  else if free route.1 then put route.1 0
  else if second && route.2 != 0xFFFF && free route.2 then put route.2 1
  else drop

def placeTokens (quota : Nat → Nat) (n : Nat) (second : Bool) (routes : List (Nat × Nat)) : Placement :=
  routes.foldl (placeToken quota second) ⟨List.replicate n 0, [], 0, 0⟩

/-- What a task sends to one package: pieces with their expert and slot. -/
structure Parcel where
  pkg : Nat
  dst : Nat
  bytes : List Byte
  expert : Nat
  slot : Nat
  deriving DecidableEq, Repr

/-- The group bollard of a member is raised: here at once, elsewhere by a SIGNAL message the task waits for. -/
def State.groupSignal (s : State) (t : Nat) (k : Task) (pkg port : Nat) : State :=
  if pkg = s.ownPkg then s.landSignal k.ctx k.groupBol 1
  else
    let (xid, s) := s.newTid t
    (s.awaits t k.id xid).sendXfer (.task t k.id) k.ctx s.ownDom pkg port xid false
      [{ s.message 0x05 k.tokVc s.ownDom pkg k.ctx xid with last := true, bollard := k.groupBol, increment := 1 }]

/-- Everything for one package: written here, or sent as one transfer after whose answers the bollard is raised. A package outside
the group (`member` false) gets its messages and no bollard. -/
def State.sendParcels (s : State) (t : Nat) (k : Task) (typ pkg port : Nat) (member : Bool) (ps : List Parcel) : Except AccFault State :=
  if pkg = s.ownPkg then
    match s.writeAll t k.ctx (ps.map (fun p => (p.dst, p.bytes))) with
    | .error f => .error f
    | .ok s => .ok (s.groupSignal t k pkg port)
  else if ps = [] then .ok (if member then s.groupSignal t k pkg port else s)
  else
    let (xid, s) := s.newTid t
    let base := s.message typ k.tokVc s.ownDom pkg k.ctx xid
    let ms := ps.flatMap (fun p =>
      let td := if typ = 0x07 then leBytes 2 p.expert ++ leBytes 2 p.slot ++ zeros 12 else zeros 16
      (msgSplit { base with typeData := td } p.dst p.bytes 0 0).map (fun m => { m with last := false }))
    let ms := ms.zipIdx.map (fun q => { q.1 with last := decide (q.2 + 1 = ms.length) })
    .ok ((s.awaits t k.id xid).sendXfer (.task t k.id) k.ctx s.ownDom pkg port xid member ms)

/-- Ports of a task's destinations, each checked; this package needs none, but no task may name channel 6 (R363). -/
def State.routesOf (s : State) (c vc : Nat) : List Nat → Except AccFault (List (Nat × Nat))
  | [] => .ok []
  | p :: r =>
    match (if p = s.ownPkg then (if vc = 6 then .error (.refuse 0x5002) else .ok 0) else s.mayRoute c s.ownDom p vc) with
    | .error f => .error f
    | .ok port => match s.routesOf c vc r with
      | .error f => .error f
      | .ok l => .ok ((p, port) :: l)

def State.sendGroups (s : State) (t : Nat) (k : Task) (typ : Nat) (ps : List Parcel) (group : List Nat) : List (Nat × Nat) → Except AccFault State
  | [] => .ok s
  | (pkg, port) :: r =>
    let mine := ps.filter (fun p => p.pkg == pkg)
    match s.sendParcels t k typ pkg port (group.contains pkg) mine with
    | .error f => .error f
    | .ok s => s.sendGroups t k typ ps group r

def dispatchReads (_ : State) (k : Task) : List (Nat × Nat) := [(k.addrA, k.len0 * k.tokStride), (k.addrB, 8 * k.len0)]
def dispatchWrites (_ : State) (k : Task) : List (Nat × Nat) := [(k.addrD, 4 * k.len0)]

/-- Read tokens, each at the stride. A token goes by a port, where a parity mismatch stops it (R360), or stays on this package. -/
def State.readTokens (s : State) (t : Nat) (k : Task) (base : Nat) : List (Nat × Option Nat) → Except AccFault (List (List Byte) × State)
  | [] => .ok ([], s)
  | (i, port) :: r =>
    match s.readVa (some t) k.ctx (base + i * k.tokStride) k.tokBytes with
    | .error f => .error (match port with | some p => atTransmit p f | none => f)
    | .ok (b, s) => match s.readTokens t k base r with
      | .error f => .error f
      | .ok (l, s) => .ok (b :: l, s)

def dispatchRun (s : State) (t : Nat) (k : Task) : Except AccFault (State × Nat) :=
  let group := s.expertGroup
  match group.findIdx? (fun p => p == s.ownPkg) with
  | none => .error (.refuse 0x500A)
  | some rank =>
    let experts := (List.range k.expertCount).map (fun e => s.expert (k.expertBase + e))
    let used := experts.zipIdx.filter (fun x => x.1.quota != 0)
    let dests := (group ++ used.map (fun x => x.1.owner)).eraseDups
    match s.routesOf k.ctx k.tokVc dests with
    | .error f => .error f
    | .ok ports =>
      match s.readVa (some t) k.ctx k.addrB (8 * k.len0) with
      | .error f => .error f
      | .ok (rb, s) =>
        let routes := (List.range k.len0).map (fun i => (field rb (8 * i) 2, field rb (8 * i + 2) 2))
        let p := placeTokens (fun e => (experts.getD e ⟨0, 0, 0, 0⟩).quota) k.expertCount k.overflowMode routes
        let portOf (pkg : Nat) : Option Nat := if pkg = s.ownPkg then none else (ports.find? (fun q => q.1 == pkg)).map (·.2)
        let sent := p.places.zipIdx.filterMap (fun x => x.1.map (fun y => (x.2, y)))
        match s.readTokens t k k.addrA (sent.map (fun x => (x.1, portOf ((experts.getD x.2.1 ⟨0, 0, 0, 0⟩).owner)))) with
        | .error f => .error f
        | .ok (toks, s) =>
          let record := p.places.flatMap (fun x => leBytes 4 (match x with | none => 0xFFFFFFFF | some (e, j) => e * 65536 + j))
          match s.writeBytes t k.ctx k.addrD record with
          | .error f => .error f
          | .ok s =>
            let tokens := (sent.zip toks).map (fun x =>
              let (e, j) := x.1.2
              let d := experts.getD e ⟨0, 0, 0, 0⟩
              (⟨d.owner, d.buffer + (rank * d.quota + j) * k.tokStride, x.2, k.expertBase + e, j⟩ : Parcel))
            let lists := used.map (fun x =>
              let slots := (List.range x.1.quota).map (fun j => match p.places.findIdx? (fun y => y == some (x.2, j)) with
                | some i => i
                | none => 0xFFFFFFFF)
              (⟨x.1.owner, x.1.index + rank * x.1.quota * 4, slots.flatMap (fun i => leBytes 4 i), k.expertBase + x.2, 0⟩ : Parcel))
            match s.sendGroups t k 0x07 (tokens ++ lists) group ports with
            | .error f => .error f
            | .ok s =>
              let s := (s.count 0x7040 6 64 p.rerouted).count 0x7040 7 64 p.dropped
              let s := if p.rerouted + p.dropped = 0 then s else s.logEv (s.ctxEv k.ctx 0x500D note 9 k.ctx)
              .ok (s, 0)

/-- DISPATCH. -/
def execDispatch (t : TileId) (s : State) : Host.Outcome State Fault Refusal :=
  .next (s.runTask t.val 0x78 (fun _ => true) ⟨dispatchReads, dispatchWrites, dispatchRun⟩)

def combineReads (s : State) (k : Task) : List (Nat × Nat) :=
  [(k.addrA, k.len0 * k.tokStride), ((s.expert k.expertBase).index, 4 * k.len0)]

def combineRun (s : State) (t : Nat) (k : Task) : Except AccFault (State × Nat) :=
  let group := s.expertGroup
  let e := s.expert k.expertBase
  if !group.contains s.ownPkg ∨ e.quota = 0 ∨ e.owner ≠ s.ownPkg ∨ group.length * e.quota < k.len0 then .error (.refuse 0x500A)
  else match s.routesOf k.ctx k.tokVc group with
    | .error f => .error f
    | .ok ports =>
      match s.readVa (some t) k.ctx e.index (4 * k.len0) with
      | .error f => .error f
      | .ok (ib, s) =>
        let filled := (List.range k.len0).filter (fun n => field ib (4 * n) 4 != 0xFFFFFFFF)
        let portOf (pkg : Nat) : Option Nat := if pkg = s.ownPkg then none else (ports.find? (fun q => q.1 == pkg)).map (·.2)
        match s.readTokens t k k.addrA (filled.map (fun n => (n, portOf (group.getD (n / e.quota) 0xFFFF)))) with
        | .error f => .error f
        | .ok (toks, s) =>
          let ps := (filled.zip toks).map (fun x =>
            (⟨group.getD (x.1 / e.quota) 0xFFFF, k.addrD + field ib (4 * x.1) 4 * k.tokStride, x.2, k.expertBase, x.1⟩ : Parcel))
          match s.sendGroups t k 0x08 ps group ports with
          | .error f => .error f
          | .ok s => .ok (s, 0)

/-- COMBINE. -/
def execCombine (t : TileId) (s : State) : Host.Outcome State Fault Refusal :=
  .next (s.runTask t.val 0x79 (fun _ => true) ⟨combineReads, noWrites, combineRun⟩)

/-! ## Arrival (R366 to R369, R488) -/

/-- A message for another package goes on by its route, or is dropped (R369). -/
def State.transit (s : State) (p : Nat) (m : Msg) : State :=
  let on := { m with hops := m.hops + 1 }
  if s.get 0x7001 5 < m.hops + 1 then (s.dropMsg p).returnCredit p m.vc (msgFlits m)
  else match s.egress m.dstDom m.dstPkg m.vc with
    | none => (s.dropMsg p).returnCredit p m.vc (msgFlits m)
    | some _ =>
      let x := s.port p
      ((s.count 0x7040 3 64 1).setPort p { x with held := x.held ++ [(msgFlits m, on)] }).sendMsg on

/-- A message arrives on a port that is UP: one for another package passes through, also in NAP; one for this package wakes
the device and is applied. Its flits are counted in order, and their credits return as they leave the receive buffer (R359, R362). -/
def State.arrive (s : State) (p : Nat) (m : Msg) (f : State → State) : State :=
  if !(s.operating || s.power.pst == .nap) ∨ s.linkState p ≠ 2 then s
  else
    let x := s.port p
    let s := (s.count 0x7040 2 64 1).setPort p { x with rx := x.rx + msgFlits m }
    if m.dstDom ≠ s.ownDom ∨ m.dstPkg ≠ s.ownPkg then s.transit p m
    else if 64 ≤ m.ctx then (s.dropMsg p).returnCredit p m.vc (msgFlits m)
    else (f (s.napWake.work)).returnCredit p m.vc (msgFlits m)

/-- A payload lands at its destination: the code of the fault that stopped it, if any; that is a job fault of the context
(R340, R367). -/
def State.land (s : State) (m : Msg) (va : Nat) : Option Nat × State :=
  match s.writeNow none m.ctx va m.payload with
  | .ok (_, s) => (none, s)
  | .error (.trans code va lv w) => (some code, s.transFault m.ctx code { va := va, level := lv, write := w, noTask := true })
  | .error (.data pa code) => (some code, s.jobFault m.ctx code 5 (channelOf pa) { noTask := true } [])
  | .error _ => (none, s)

/-- A PUT-like message: written, its signal applied, answered. -/
def State.landPut (s : State) (m : Msg) : State :=
  let (f, s) := s.land m m.dstAddr
  match f with
  | some code => s.nack m code
  | none => (if m.last then s.landSignal m.ctx m.bollard m.increment else s).ack m

def execMsgPut (p : HawserPort) (m : Msg) (s : State) : Host.Outcome State Fault Refusal :=
  .next (s.arrive p.val m (fun s => s.landPut m))
def execMsgDispatch (p : HawserPort) (m : Msg) (s : State) : Host.Outcome State Fault Refusal :=
  .next (s.arrive p.val m (fun s => s.landPut m))
def execMsgCombine (p : HawserPort) (m : Msg) (s : State) : Host.Outcome State Fault Refusal :=
  .next (s.arrive p.val m (fun s => s.landPut m))

/-- SIGNAL (R311). -/
def execMsgSignal (p : HawserPort) (m : Msg) (s : State) : Host.Outcome State Fault Refusal :=
  .next (s.arrive p.val m (fun s => (s.landSignal m.ctx m.bollard m.increment).ack m))

/-- GET_RESP for a piece of memory. -/
def State.getResp (s : State) (m : Msg) (bs : List Byte) (last : Bool) (bollard inc : Nat) : State :=
  s.sendMsg { s.message 0x03 6 m.srcDom m.srcPkg m.ctx m.transfer with
    dstAddr := m.dstAddr, plen := bs.length, payload := bs, last := last, convoy := m.convoy, bollard := bollard, increment := inc }

/-- A detected data error meets the bytes that a request asks for: it is counted and logged with its place, a parity mismatch at the
transmitting die with 0x5007 and the port by which the answer would have left (R360), an uncorrectable error as the job fault it is. -/
def State.answerData (s : State) (m : Msg) (pa code : Nat) : State :=
  if code = 0x7003 then (s.jobFault m.ctx code 5 (channelOf pa) { noTask := true } []).nack m code
  else if code = 0x7004 then
    (s.countError.logEv (portEv 0x5007 warning ((s.egress m.srcDom m.srcPkg 6).getD 0))).nack m 0x5007
  else
    let (kind, id) := if code = 0x7002 then (5, channelOf pa) else (2, (pa - sramBase) / 16777216)
    (s.countError.logEv (s.ctxEv m.ctx code warning kind id)).nack m code

/-- Read for a request and answer it; a fault is the context's job fault and a NACK (R367). -/
def State.answerRead (s : State) (m : Msg) (n : Nat) (last : Bool) (bollard inc : Nat) : State :=
  match s.readNow none m.ctx m.srcAddr n with
  | .ok (bs, s) => s.getResp m bs last bollard inc
  | .error (.trans code va lv w) => (s.transFault m.ctx code { va := va, level := lv, write := w, noTask := true }).nack m code
  | .error (.data pa code) => s.answerData m pa code
  | .error _ => s

/-- GET_REQ; a recovery GET is refused once the root's step has passed it (R374). -/
def execMsgGetReq (p : HawserPort) (m : Msg) (s : State) : Host.Outcome State Fault Refusal :=
  .next (s.arrive p.val m (fun s =>
    if m.convoy = 0xFFFF then s.answerRead m m.plen m.last 0 0
    else if m.step < s.stepOf m.ctx % 2 ^ 32 then s.nack m 0x5009
    else match s.fabric.relays.reverse.find? (fun r => r.convoy == m.convoy && r.task.isSome && r.step == m.step
        && decide (r.src ≤ m.srcAddr ∧ m.srcAddr ≤ r.src + r.length ∧ m.srcAddr + r.dst = m.dstAddr + r.src)) with
      | none => s.nack m 0x5009
      | some r =>
        let left := r.src + r.length - m.srcAddr
        let n := min left m.plen
        let last := decide (left ≤ m.plen)
        s.answerRead m n last (if last then r.bollard else 0) (if last then r.increment else 0)))

/-! ### Recovery at a detached node (R373, R374) -/

def State.setRecov (s : State) (r : Recov) : State :=
  { s with fabric := { s.fabric with recovs := s.fabric.recovs.map (fun (x : Recov) => if x.tid = r.tid then r else x) } }

/-- The next recovery GET of a transfer, on channel 7. -/
def State.fetchMore (s : State) (r : Recov) : State :=
  let root := match s.convoyDef r.convoy with | some d => d.root | none => 0xFFFF
  let (xid, s) := s.newTid hmTile
  let s := s.setRecov { r with xfer := xid }
  match s.egress s.ownDom root 7 with
  | none => s
  | some port => s.sendXfer (.recovery r.convoy) r.ctx s.ownDom root port xid false
      [{ s.message 0x02 7 s.ownDom root r.ctx xid with
          dstAddr := r.dst + r.off, srcAddr := r.src + r.off, plen := 4096 - (r.dst + r.off) % 4096, convoy := r.convoy, step := r.step }]

/-- Every recovery of a convoy is complete: the parent is asked to re-admit this node. -/
def State.recoveryEnds (s : State) (convoy ctx : Nat) : State :=
  let rs := s.fabric.recovs.filter (fun r => r.convoy == convoy)
  if rs.all (fun r => r.done) then
    let s := { s with fabric := { s.fabric with recovs := s.fabric.recovs.filter (fun r => r.convoy != convoy) } }
    match s.convoyParent convoy with
    | none => s
    | some q =>
      let (xid, s) := s.newTid hmTile
      s.sendMsg { s.message 0x0B 6 s.ownDom q ctx xid with convoy := convoy, typeData := [0x10] ++ zeros 15 }
  else s

/-- A piece of a recovery has arrived. -/
def State.recovered (s : State) (r : Recov) (m : Msg) : State :=
  let (f, s) := s.land m (r.dst + r.off)
  let s := s.dropXfer r.xfer
  match f with
  | some _ => s
  | none =>
    let s := s.count 0x7040 9 64 m.plen
    let r := { r with off := r.off + m.plen }
    if m.last then
      let b := if r.increment = 0 then m.bollard else r.bollard
      let i := if r.increment = 0 then m.increment else r.increment
      (((s.setRecov { r with done := true }).landSignal r.ctx b i).paramLanded r.convoy b i).recoveryEnds r.convoy r.ctx
    else s.fetchMore r

/-- GET_RESP: a piece of a task's GET, or of a recovery. -/
def execMsgGetResp (p : HawserPort) (m : Msg) (s : State) : Host.Outcome State Fault Refusal :=
  .next (s.arrive p.val m (fun s =>
    match s.xfer? m.transfer with
    | none => s
    | some x => match x.owner with
      | .task t id => match (s.tile t).tasks.find? (fun k => k.id == id) with
        | none => s.dropXfer m.transfer
        | some k => match s.writeNow (some t) k.ctx m.dstAddr m.payload with
          | .error f => (s.dropXfer m.transfer).stopTask t { k with written := [(k.addrD, k.len0)] } f
          | .ok (_, s) =>
            if x.left ≤ 1 then (s.dropXfer m.transfer).answered t id m.transfer
            else s.setXfer m.transfer { x with left := x.left - 1 }
      | .recovery _ => match s.fabric.recovs.find? (fun r => r.xfer == m.transfer) with
        | none => s.dropXfer m.transfer
        | some r => s.recovered r m
      | _ => s))

/-- DETACH: this node detaches its own children, stops forwarding and fetches the rest itself. -/
def execMsgDetach (p : HawserPort) (m : Msg) (s : State) : Host.Outcome State Fault Refusal :=
  .next (s.arrive p.val m (fun s =>
    match s.convoyDef m.convoy with
    | none => s.dropMsg p.val
    | some _ =>
      if s.fabric.recovs.any (fun r => r.tid == m.transfer) then s
      else
        let s := (s.count 0x7040 8 64 1).logEv (s.ctxEv m.ctx 0x500B note 9 m.ctx)
        let known := (s.relay? m.transfer).isSome
        let s := (s.convoyKids m.convoy).foldl (fun s k => if (s.edge m.convoy k).detached then s else s.detachChild m.convoy k) s
        let r : Recov := ⟨m.convoy, m.transfer, m.ctx, field m.payload 8 8, m.dstAddr, field m.payload 0 8, m.bollard, m.increment, m.step, 0, false⟩
        -- a transfer that has not begun here is recovered by the nodes below in the same way
        let below : Relay := ⟨m.transfer, m.convoy, m.ctx, none, field m.payload 8 8, m.dstAddr, 0, m.bollard, m.increment, m.step, false, 0, false, 0, []⟩
        let s := if known then s.dropRelay m.transfer else (s.convoyKids m.convoy).foldl (fun s k => s.sendDetach below k 0) s
        ({ s with fabric := { s.fabric with recovs := s.fabric.recovs ++ [r] } }).fetchMore r))

/-- MCAST_PUT at a node of the convoy (R372). -/
def State.relayPut (s : State) (p : Nat) (m : Msg) : State :=
  let portIn := match s.convoyDef m.convoy with
    | none => 0xFF
    | some d => (d.nodes.find? (fun n => n.pkg == s.ownPkg)).elim 0xFF (·.portIn)
  if portIn ≠ p then s.dropMsg p
  else
    let (f, s) := s.land m m.dstAddr
    match f with
    | some code => (s.nack m code).creditUp m.convoy (msgFlits m)
    | none =>
      if s.fabric.recovs.any (fun r => r.tid == m.transfer) then s.creditUp m.convoy (msgFlits m)
      else
        let s := if (s.relay? m.transfer).isSome then s
          else s.beginRelay ⟨m.transfer, m.convoy, m.ctx, none, m.origin, m.dstAddr, 0, 0, 0, m.step, m.express, 0, false, 0, []⟩
        match s.relay? m.transfer with
        | none => s
        | some r =>
          let r := { r with count := r.count + 1, last := r.last || m.last, length := r.length + m.plen,
                            bollard := if m.last then m.bollard else r.bollard, increment := if m.last then m.increment else r.increment }
          let s := (s.setRelay r).forwardAll r m
          let s := if m.last then (s.landSignal m.ctx m.bollard m.increment).paramLanded m.convoy m.bollard m.increment else s
          s.settleRelay m.transfer

def execMsgMcastPut (p : HawserPort) (m : Msg) (s : State) : Host.Outcome State Fault Refusal :=
  .next (s.arrive p.val m (fun s => s.relayPut p.val m))

/-- ACC at its owner (R401 to R403). -/
def execMsgAcc (p : HawserPort) (m : Msg) (s : State) : Host.Outcome State Fault Refusal :=
  .next (s.arrive p.val m (fun s =>
    let (a, s) := s.contribute m.ctx m.srcPkg m.step m.dstAddr m.payload m.typeData
    s.replyAcc m a))

/-- REPLY: an answer to a contribution, or a child that has recovered (R374, R404). -/
def execMsgReply (p : HawserPort) (m : Msg) (s : State) : Host.Outcome State Fault Refusal :=
  .next (s.arrive p.val m (fun s =>
    if field m.typeData 0 1 = 0x10 then
      (if (s.convoyKids m.convoy).contains m.srcPkg then s.readmit m.convoy m.srcPkg else s)
    else s.accReply m))

def execMsgUnknown (p : HawserPort) (m : Msg) (s : State) : Host.Outcome State Fault Refusal :=
  .next (s.arrive p.val m (fun s => s.dropMsg p.val))

/-- A message for another package (R369). -/
def execMessageForward (p : HawserPort) (m : Msg) (s : State) : Host.Outcome State Fault Refusal :=
  .next (s.arrive p.val m (fun s => s))

/-! ## Answers (R366, R367, R372) -/

/-- Every message of a transfer has been answered. -/
def State.xferDone (s : State) (xid : Nat) (x : Xfer) : State :=
  let s := s.dropXfer xid
  match x.owner with
  | .task t id =>
    let s := match x.group, s.findTask t id with
      | true, some k => s.groupSignal t k x.pkg x.port
      | _, _ => s
    s.answered t id xid
  | .device => s
  | .recovery _ => s
  | .target => s.targetAcked x
  | o => s.recordAcked o xid

/-- A child acknowledges one message of a multicast. -/
def State.childAck (s : State) (r : Relay) (child : Nat) : State :=
  match r.children.find? (fun c => c.pkg == child && !c.detached) with
  | none => s
  | some _ => (s.setRelay (r.mod child (fun c => { c with acked := c.acked + 1 }))).settleRelay r.tid

def execMsgAck (p : HawserPort) (m : Msg) (s : State) : Host.Outcome State Fault Refusal :=
  .next (s.arrive p.val m (fun s =>
    match s.relay? m.transfer with
    | some r => s.childAck r m.srcPkg
    | none => match s.xfer? m.transfer with
      | none => s
      | some x => if x.left ≤ 1 then s.xferDone m.transfer x else s.setXfer m.transfer { x with left := x.left - 1 }))

/-- A task loses an answer: it is aborted. -/
def State.failTask (s : State) (t id : Nat) (f : Task → AccFault) : State :=
  match (s.tile t).tasks.find? (fun k => k.id == id) with
  | none => s
  | some k => s.stopTask t k (f k)

/-- How a lost answer ends a task: a job fault, or a detected data error where the responder's die found one (R360, log 34). -/
def lostAnswer (code port : Nat) (k : Task) : AccFault :=
  if [0x5007, 0x7001, 0x7002, 0x7004].contains code then .dataErr code 6 [port] else .job code 9 k.ctx []

/-- A transfer fails with a code: NACK (0x5005) or no answer (0x5008). -/
def State.xferFails (s : State) (xid : Nat) (x : Xfer) (code : Nat) : State :=
  let s := s.dropXfer xid
  match x.owner with
  | .task t id =>
    let s := { s with weigh := { s.weigh with outs := s.weigh.outs.filter (fun o => o.xfer != xid) } }
    if (s.findTask t id).isSome then s.failTask t id (lostAnswer code x.port)
    else s.jobFault x.ctx (if code = 0x5008 then code else 0x5005) 6 x.port {} []
  | .device => s.jobFault x.ctx code 6 x.port {} []
  | .target => s.jobFault x.ctx code 6 x.port {} []
  | .recovery _ => s.jobFault x.ctx code 6 x.port {} []
  | .chunk _ t id =>
    let s := if code = 0x5008 then s.jobFault x.ctx 0x5008 6 x.port {} [] else s
    if (s.findTask t id).isSome then s.failTask t id (lostAnswer 0x700F x.port) else s.lostPartner
  | _ => (if code = 0x5008 then s.jobFault x.ctx 0x5008 6 x.port {} [] else s).lostPartner

/-- A multicast fails: at the root its task is aborted, at another node the parent is told. -/
def State.relayFails (s : State) (r : Relay) (code : Nat) (td : List Byte) : State :=
  let s := s.dropRelay r.tid
  match r.task with
  | some (t, _, id) => if (s.findTask t id).isSome then s.failTask t id (lostAnswer code 0) else s.jobFault r.ctx code 9 r.ctx {} []
  | none =>
    let s := if code = 0x5008 then s.jobFault r.ctx 0x5008 9 r.ctx {} [] else s
    match s.convoyParent r.convoy with
    | none => s
    | some q => s.sendMsg { s.message 0x0A 6 s.ownDom q r.ctx r.tid with convoy := r.convoy, typeData := td }

/-- NACK (R367); the refusal of a recovery GET is 0x5009 (R374). -/
def execMsgNack (p : HawserPort) (m : Msg) (s : State) : Host.Outcome State Fault Refusal :=
  .next (s.arrive p.val m (fun s =>
    let s := s.count 0x7040 5 64 1
    match s.relay? m.transfer with
    | some r => s.relayFails r 0x5005 m.typeData
    | none => match s.xfer? m.transfer with
      | none => s
      | some x => match x.owner with
        | .recovery _ => (s.dropXfer m.transfer).jobFault x.ctx (if field m.typeData 0 2 = 0x5009 then 0x5009 else 0x5005) 9 x.ctx {} []
        | _ =>
          let code := field m.typeData 0 2
          s.xferFails m.transfer x (if [0x5007, 0x7001, 0x7002, 0x7004].contains code then code else 0x5005)))

/-- ACK_TIMEOUT: no answer to a transfer's messages within ACK_TIMEOUT_MS. -/
def execAckTimeout (xfer : Nat) (s : State) : Host.Outcome State Fault Refusal :=
  .next (match s.xfer? xfer with
    | some x => s.xferFails xfer x 0x5008
    | none => match s.relay? xfer with
      | some r => if r.last ∧ r.floor = r.count then s else s.relayFails r 0x5008 (leBytes 2 0x5008 ++ zeros 14)
      | none => s)

/-- CONVOY_STALL_LIMIT: messages have waited on an edge without credit; the limit's timer does not run while the child's returns are
marked as held (R373). -/
def execConvoyStallLimit (convoy child : Nat) (s : State) : Host.Outcome State Fault Refusal :=
  .next (
    let e := s.edge convoy child
    if e.waiting = [] ∨ e.detached ∨ e.held then s else s.detachChild convoy child)

/-! ## Links (R359, R361, R362, R371) -/

/-- The peer asks for flits from a sequence number on: they are sent again from the replay buffer; a flit retried 8 times in
succession retrains the link. -/
def execFlitResendRequest (p : HawserPort) (seq : Nat) (s : State) : Host.Outcome State Fault Refusal :=
  .next (
    let x := s.port p.val
    let d := (x.tx + 4096 - seq % 4096) % 4096
    if s.linkState p.val ≠ 2 ∨ d = 0 ∨ x.tx - x.acked < d then s
    else
      let first := x.tx - d
      let n := if x.retry.1 = first ∧ 0 < x.retry.2 then x.retry.2 + 1 else 1
      let s := (s.setPort p.val { x with retry := (first, n) }).count (portIdx p.val) 6 64 d
      let s := s.emit (.linkResend p.val (seq % 4096))
      if 8 ≤ n then (s.setPort p.val { s.port p.val with retry := (0, 0) }).retrain p.val else s)

/-- A credit is overdue: some are out, and the link retrains. -/
def execCreditTimeout (p : HawserPort) (vc : Nat) (s : State) : Host.Outcome State Fault Refusal :=
  .next (if vc < 8 ∧ (s.port p.val).credits.getD vc 0 < s.get 0x7030 (vc + 1) then s.retrain p.val else s)

/-- A lane's error ratio over 10 ms, in units of 10^−7: above 2.4 × 10^−4 the link retrains. -/
def execLaneBerCheck (p : HawserPort) (lane ber : Nat) (s : State) : Host.Outcome State Fault Refusal :=
  .next (if lane < 8 ∧ 2400 < ber then s.retrain p.val else s)

/-- A retrain ends: the replay buffer is sent again, or the port fails. -/
def execLinkRetrainDone (p : HawserPort) (ok : Bool) (s : State) : Host.Outcome State Fault Refusal :=
  .next (if s.linkState p.val ≠ 3 then s
    else if ok then
      let s := s.put (portIdx p.val) 2 2
      let x := s.port p.val
      let s := if x.tx = x.acked then s else s.emit (.linkResend p.val (x.acked % 4096))
      s.pump p.val
    else s.failLink p.val)

/-- Training ends: a fairway's peer must be the plan's (R371). -/
def execLinkTrainingDone (p : HawserPort) (dom pkg peerPort : Nat) (s : State) : Host.Outcome State Fault Refusal :=
  .next (match s.fabricDef p.val with
    | none => s
    | some f =>
      if s.linkState p.val ≠ 1 then s
      else if f.mode = 2 then
        let s := (s.put (portIdx p.val) 3 (dom % 256 * 65536 + peerPort % 256 * 256)).put (portIdx p.val) 4 (pkg % 65536)
        if dom = f.peerDom ∧ pkg = f.peerPkg ∧ peerPort = f.peerPort then (s.put (portIdx p.val) 2 2).pump p.val
        else (s.put (portIdx p.val) 2 5).logEv (portEv 0x5004 warning p.val)
      else (s.put (portIdx p.val) 2 2).pump p.val)

/-- A child returns credit of its edge, and says whether its own children hold its returns (R372, R373). -/
def State.edgeCredit (s : State) (e : EdgeCredit) : State :=
  if (s.convoyKids e.convoy).contains e.child then
    let x := s.edge e.convoy e.child
    (s.setEdge e.convoy e.child { x with used := x.used - e.flits, held := e.held }).pumpEdges e.convoy e.child
  else s

/-- CREDIT_RETURN: n credits of a channel, the acknowledgement of every flit before a sequence number, and convoy credits. -/
def execCreditReturn (p : HawserPort) (vc n : Nat) (ack : LinkAck) (s : State) : Host.Outcome State Fault Refusal :=
  .next (
    let x := s.port p.val
    let back := (x.tx + 4096 - ack.seq % 4096) % 4096
    let acked := if x.tx - x.acked < back then x.acked else x.tx - back
    if s.linkState p.val ≠ 2 then s
    else
      let c := if vc < 8 then x.credits.set vc (min (s.get 0x7030 (vc + 1)) (x.credits.getD vc 0 + n)) else x.credits
      (s.setPort p.val { x with credits := c, acked := acked, replay := x.replay.filter (fun e => decide (acked < e.1)),
                                retry := if acked = x.acked then x.retry else (0, 0) }).pump p.val
      |> ack.edges.foldl State.edgeCredit)

end Sys2Proof.Machine
end

