-- ==== Sys2Proof/Machine/Context.lean ====
section
/-! DEFINITION. Contexts, the TLB and its invalidation, COPY and TRANSPOSE, parity and poison events (R330 to R350). -/

namespace Sys2Proof.Machine

/-! ## Contexts (R330 to R333) -/

/-- Contexts not CLOSED. -/
def State.openCount (s : State) : Nat := ((List.range 64).filter (fun c => s.ctxState c != 0)).length

def State.openCtx (s : State) (c : Nat) : State :=
  let s := (s.put (ctxIdx c) 2 1).put 0x3000 2 c
  s.put 0x3000 3 s.openCount

def State.ctxOpenEff (s : State) (n : Nat) : Except Nat State :=
  if n = 0xFF then
    match (List.range 64).find? (fun c => s.ctxState c == 0) with
    | none => .error 0xA00F
    | some c => .ok (s.openCtx c)
  else if n < 64 then (if s.ctxState n = 0 then .ok (s.openCtx n) else .error 0xA00A)
  else .error 0xA007

/-- CTX_OPEN (R331). -/
def execCtxOpen (src : Src) (n : Nat) (s : State) : Host.Outcome State Fault Refusal :=
  .next (s.guarded src 0x3000 1 (leBytes (if n < 256 then 1 else 2) n) (fun v s => s.ctxOpenEff v))

/-- The fault record at its defaults; TILE of FAULT_INFO is then 0xFFF (R332, R352). -/
def State.clearFault (s : State) (c : Nat) : State :=
  (((s.put (ctxIdx c) 4 0).put (ctxIdx c) 5 0).put (ctxIdx c) 6 0xFFF00000).put (ctxIdx c) 7 0

/-- The tiles of a context under the plan. -/
def State.ctxTiles (s : State) (c : Nat) : List Nat := match s.plan with
  | none => []
  | some p => (p.tiles.map (·.tile)).filter (fun t => p.tileCtx t == some c)

/-- Waits and withheld grants of a context are examined again (R317, R332). -/
def State.wakeCtx (s : State) (c : Nat) : State := (s.ctxTiles c).foldl (fun s t => s.regrant t) s

def State.resumeEff (s : State) (c : Nat) : Except Nat State :=
  if (s.ctxState c = 1 ∨ s.ctxState c = 3) ∧ s.get (ctxIdx c) 1 ≠ 0 then
    .ok (((s.clearFault c).put (ctxIdx c) 2 2).wakeCtx c)
  else .error 0xA009

def State.haltEff (s : State) (c : Nat) : Except Nat State :=
  if s.ctxState c = 2 then .ok ((s.put (ctxIdx c) 2 4).checkHalted c) else .error 0xA009

/-- Suspended tasks of a context are discarded. -/
def State.discardSuspended (s : State) (c : Nat) : State :=
  { s with tiles := s.tiles.map (fun e => (e.1, { e.2 with tasks := e.2.tasks.filter (fun k => !(k.ctx == c && k.st == .suspended)) })) }

def State.closeEff (s : State) (c : Nat) : Except Nat State :=
  if (s.ctxState c = 1 ∨ s.ctxState c = 3) ∧ !(s.planLoaded ∧ s.planContexts.contains c) then
    let s := { (s.discardSuspended c) with tlbs := s.tlbs.filter (fun e => s.tileCtx e.1 != some c) }
    let s := (s.clearFault c).put (ctxIdx c) 2 0
    .ok (s.put 0x3000 3 s.openCount)
  else .error 0xA009

/-- RESUME (R332). -/
def execCtxResume (src : Src) (c : CtxId) (s : State) : Host.Outcome State Fault Refusal :=
  .next (s.guarded src (ctxIdx c.val) 3 [1] (fun _ s => s.resumeEff c.val))
/-- HALT (R332). -/
def execCtxHalt (src : Src) (c : CtxId) (s : State) : Host.Outcome State Fault Refusal :=
  .next (s.guarded src (ctxIdx c.val) 3 [2] (fun _ s => s.haltEff c.val))
/-- CLOSE (R333). -/
def execCtxClose (src : Src) (c : CtxId) (s : State) : Host.Outcome State Fault Refusal :=
  .next (s.guarded src (ctxIdx c.val) 3 [3] (fun _ s => s.closeEff c.val))

/-! ## The TLB (R338, R339) -/

/-- The task of a tile for which an address is walked: the oldest, ended, taken or under way, whose operands cover its page. One that is
deferred behind an urgent task is such a task too: its run-ahead transfers fault it at once (R349). -/
def State.walker (s : State) (t va : Nat) : Option Task :=
  (s.tile t).tasks.find? (fun k => !k.noop && rangesMeet k.uses [(va / 65536 * 65536, 65536)])

/-- A walk faults: the task that made it is aborted; a walk for no task is a fault of the context alone (R340). -/
def State.walkStruck (s : State) (t c va : Nat) (f : AccFault) : State :=
  match s.walker t va with
  | some k => s.stopTask t k f
  | none => match f with
    | .trans code v lv w => (s.noteLeaf t c v).transFault c code { va := v, level := lv, write := w, tile := t, noTask := true }
    | _ => s

/-- A walk ends: a leaf is cached, or the access that needed it faults (R336, R340). -/
def execTlbWalkDone (t : TileId) (c : CtxId) (va : Nat) (write : Bool) (s : State) : Host.Outcome State Fault Refusal :=
  .next (
    let va := va % 2 ^ 48
    if s.tileCtx t.val ≠ some c.val ∨ !s.operating ∨ (s.tlb t.val).any (fun e => e.covers va) then s
    else match s.translate (some t.val) c.val va (if write then .write else .read) with
      | .ok (_, s) => s
      | .error f => s.walkStruck t.val c.val va f)

/-- Entries of a context's tiles over a range are dropped. -/
def State.dropEntries (s : State) (c va n : Nat) : State :=
  { s with tlbs := s.tlbs.map (fun e => if s.tileCtx e.1 = some c then (e.1, e.2.filter (fun x => !x.overlaps va n)) else e) }

def State.invalidate (s : State) (c va n : Nat) : State :=
  (({ s with inval := some ⟨c, va, n⟩ }).dropEntries c va n).put 0x3001 5 1

/-- INV_APPLY: refused while an invalidation is in progress. -/
def State.invEff (s : State) (whole : Bool) : Except Nat State :=
  if s.get 0x3001 5 = 1 then .error 0xA00A
  else
    let s := s.applyStaged 0x3001 1 3
    .ok (if whole then s.invalidate (s.get 0x3001 1) 0 (2 ^ 48) else s.invalidate (s.get 0x3001 1) (s.get 0x3001 2) (s.get 0x3001 3))

def execTlbInvalidateRange (src : Src) (s : State) : Host.Outcome State Fault Refusal :=
  .next (s.guarded src 0x3001 4 [1] (fun _ s => s.invEff false))
def execTlbInvalidateContext (src : Src) (s : State) : Host.Outcome State Fault Refusal :=
  .next (s.guarded src 0x3001 4 [2] (fun _ s => s.invEff true))

/-- Transfers of a context through a range that are not yet acknowledged. -/
def State.rangeBusy (s : State) (c va n : Nat) : Bool :=
  s.tiles.any (fun e => (e.2.tasks ++ e.2.ending).any (fun k => k.ctx == c && (k.outstanding != 0 || k.unissued != 0) && rangesMeet k.written [(va, n)]))

/-- The invalidation is done. -/
def execTlbInvalidateDone (s : State) : Host.Outcome State Fault Refusal :=
  .next (match s.inval with
    | none => s
    | some i => if s.rangeBusy i.ctx i.va i.bytes then s
        else (({ s with inval := none }).dropEntries i.ctx i.va i.bytes).put 0x3001 5 2)

/-! ## COPY and TRANSPOSE (R342, R343) -/

def Task.zeroFill (k : Task) : Bool := bit (k.w 6) 63
def copyReads (_ : State) (k : Task) : List (Nat × Nat) := if k.zeroFill then [] else [(k.addrA, k.len0)]
def copyWrites (_ : State) (k : Task) : List (Nat × Nat) := [(k.addrD, k.len0)]
def copyUnits (k : Task) : List (Nat × Nat) := unitsOf k.addrD k.len0

/-- The virtual address in a range whose place is a physical address. -/
def offsetOf : List (Nat × Nat) → Nat → Nat → Option Nat
  | [], _, _ => none
  | (p, n) :: r, pa, o => if p ≤ pa ∧ pa < p + n then some (o + (pa - p)) else offsetOf r pa (o + n)

/-- A copied tensor keeps what is known of the format it is stored in (R215). -/
def State.copyStored (s : State) (t c src dst len : Nat) : State :=
  let places := s.placeOf (some t) c [(src, len)] false
  s.stored.foldl (fun s e => match offsetOf places e.1 0 with
    | none => s
    | some o => match s.placeOf (some t) c [(dst + o, 1)] true with
      | (pa, _) :: _ => { s with stored := mset s.stored pa e.2 }
      | [] => s) s

def copyGo (s : State) (t : Nat) (k : Task) : List (Nat × Nat) → Except AccFault State
  | [] => .ok s
  | (off, n) :: r =>
    match (if k.zeroFill then .ok (zeros n, s) else s.readVa (some t) k.ctx (k.addrA + off) n) with
    | .error f => .error f
    | .ok (bs, s) => match s.writeVa (some t) k.ctx (k.addrD + off) bs with
      | .error f => .error f
      | .ok (_, s) => copyGo (if k.zeroFill then s else s.copyStored t k.ctx (k.addrA + off) (k.addrD + off) n) t k r

/-- The parts of some places that others cover. -/
def placesMeet (ps qs : List (Nat × Nat)) : List (Nat × Nat) :=
  ps.flatMap (fun p => qs.filterMap (fun q =>
    let lo := max p.1 q.1
    let hi := min (p.1 + p.2) (q.1 + q.2)
    if lo < hi then some (lo, hi - lo) else none))

/-- Bytes at physical places take free values. -/
def State.drawAt (s : State) : List (Nat × Nat) → State
  | [] => s
  | (pa, n) :: r => let (bs, s) := s.drawBytes n; (s.writeAt pa bs).drawAt r

/-- Where source and destination overlap through aliased physical pages, the destination bytes concerned are undefined (R342): those just
written take free values (log 10). -/
def State.aliased (s : State) (t c : Nat) (src dst : List (Nat × Nat)) : State :=
  s.drawAt (placesMeet (s.placeOf (some t) c dst true) (s.placeOf (some t) c src false))

/-- Units moved, and what aliasing leaves of them. -/
def aliasRun (go : Except AccFault State) (t c : Nat) (src dst : List (Nat × Nat)) : Except AccFault State := match go with
  | .ok s => .ok (s.aliased t c src dst)
  | .error f => .error f

/-- COPY: further 4 KiB destination units. -/
def execCopy (t : TileId) (units : Nat) (s : State) : Host.Outcome State Fault Refusal :=
  .next (s.runDma t.val 0x29 units
    ⟨copyReads, copyWrites, fun _ k => (copyUnits k).length, fun _ k n => ((copyUnits k).take n).map (fun u => (k.addrD + u.1, u.2)),
      fun s t k from_ n =>
        let us := ((copyUnits k).drop from_).take n
        aliasRun (copyGo s t k us) t k.ctx (copyReads s k) (us.map (fun u => (k.addrD + u.1, u.2)))⟩)

def Task.elemBytes (k : Task) : Nat := bits (k.w 6) 63 60
def Task.srcStride (k : Task) : Nat := bits (k.w 6) 59 32
def Task.dstStride (k : Task) : Nat := bits (k.w 6) 27 0

def transReads (_ : State) (k : Task) : List (Nat × Nat) :=
  (List.range k.len0).map (fun i => (k.addrA + i * k.srcStride, k.len1 * k.elemBytes))
def transWrites (_ : State) (k : Task) : List (Nat × Nat) :=
  (List.range k.len1).map (fun j => (k.addrD + j * k.dstStride, k.len0 * k.elemBytes))

/-- Units of the destination: row, offset in the row, length. -/
def transUnits (k : Task) : List (Nat × Nat × Nat) :=
  (List.range k.len1).flatMap (fun j => (unitsOf (k.addrD + j * k.dstStride) (k.len0 * k.elemBytes)).map (fun u => (j, u.1, u.2)))

/-- Elements i of column j of the source. -/
def State.readColumn (s : State) (t : Nat) (k : Task) (j : Nat) : List Nat → Except AccFault (List Byte × State)
  | [] => .ok ([], s)
  | i :: r =>
    match s.readVa (some t) k.ctx (k.addrA + i * k.srcStride + j * k.elemBytes) k.elemBytes with
    | .error f => .error f
    | .ok (b, s) => match s.readColumn t k j r with
      | .error f => .error f
      | .ok (bs, s) => .ok (b ++ bs, s)

def transGo (s : State) (t : Nat) (k : Task) : List (Nat × Nat × Nat) → Except AccFault State
  | [] => .ok s
  | (j, off, n) :: r =>
    let eb := max 1 k.elemBytes
    let i0 := off / eb
    let i1 := (off + n - 1) / eb
    match s.readColumn t k j ((List.range (i1 + 1 - i0)).map (· + i0)) with
    | .error f => .error f
    | .ok (bs, s) => match s.writeVa (some t) k.ctx (k.addrD + j * k.dstStride + off) (sub_ bs (off - i0 * eb) n) with
      | .error f => .error f
      | .ok (_, s) => transGo s t k r

/-- TRANSPOSE: further units of the destination. -/
def execTranspose (t : TileId) (units : Nat) (s : State) : Host.Outcome State Fault Refusal :=
  .next (s.runDma t.val 0x2A units
    ⟨transReads, transWrites, fun _ k => (transUnits k).length,
      fun _ k n => ((transUnits k).take n).map (fun u => (k.addrD + u.1 * k.dstStride + u.2.1, u.2.2)),
      fun s t k from_ n =>
        let us := ((transUnits k).drop from_).take n
        aliasRun (transGo s t k us) t k.ctx (transReads s k) (us.map (fun u => (k.addrD + u.1 * k.dstStride + u.2.1, u.2.2)))⟩)

/-! ## Parity and poison (R350) -/

/-- The task of a tile that an event at the tile strikes: the one that runs, or the next to run. -/
def State.struckTask (s : State) (t : Nat) : Option Task := match (s.tile t).next with
  | none => none
  | some (k, _) => if s.mayStart k then some k else none

/-- The 64-byte line of an address is marked poisoned. -/
def State.poisonLine (s : State) (pa code : Nat) : State := s.poisonAt (pa / 64 * 64) 64 code

/-- A mismatch is logged with its code and its place (R350). -/
def State.logMismatch (s : State) (code sev kind id n : Nat) : State :=
  iter n (fun _ s => s.logEv { code := code, severity := sev, kind := kind, id := id }) s

/-- A tile SRAM read mismatches: a task's read aborts the task; a read that serves no task is retried once, and where it mismatches
again its data is marked poisoned. -/
def execSramParityError (t : TileId) (offset : Nat) (read : SramRead) (s : State) : Host.Outcome State Fault Refusal :=
  .next (if !s.operating ∨ 16777216 ≤ offset then s
    else match read, s.struckTask t.val with
      | .task, some k => (s.count 0x3020 5 64 1).stopTask t.val k (.dataErr 0x7001 2 [t.val])
      | .task, none => s
      | .other twice, _ =>
        let n := if twice then 2 else 1
        let s := (s.count 0x3020 5 64 n).logMismatch 0x7001 warning 2 t.val n
        if twice then s.poisonLine (tileAddr t.val offset) 0x7001 else s)

/-- A flit mismatches `bad` times at a router: it is retried up to four times, and after a fifth mismatch its data is poisoned. Every
mismatch is logged with the tile. -/
def execMeshFlitError (t : TileId) (pa bad : Nat) (s : State) : Host.Outcome State Fault Refusal :=
  .next (if !s.operating ∨ bad = 0 ∨ !s.plan.isSome ∨ s.tileState t.val = 2 then s
    else
      let s := (s.count 0x3020 6 64 (min 4 bad)).logMismatch 0x7004 warning 2 t.val (min 5 bad)
      if 4 < bad then s.poisonLine pa 0x7004 else s)

/-- A DRAM read reports an error: a corrected one is counted only; any other is counted, logged with its channel, and met by what
consumes the data. -/
def execDramReadError (pa : Nat) (kind : DramError) (s : State) : Host.Outcome State Fault Refusal :=
  .next (if !s.operating ∨ sramBase ≤ pa then s
    else match kind with
      | .corrected => (s.count 0x3020 7 64 1).riskAddE (s.get 0x9500 10)
      | .parity => ((s.count 0x3020 8 64 1).logMismatch 0x7002 warning 5 (channelOf pa) 1).poisonLine pa 0x7002
      | .uncorrectable => ((s.count 0x3020 9 64 1).logMismatch 0x7003 jobFault 5 (channelOf pa) 1).poisonLine pa 0x7003)

/-- Data from a host window arrives poisoned for a tile: an uncorrectable memory error at the CXL port. -/
def execHostPoisonReceived (port : HostPort) (pa : Nat) (t : TileId) (s : State) : Host.Outcome State Fault Refusal :=
  .next (
    let base := hostWindowBase port.val
    if !s.operating ∨ !s.linkUp port.val ∨ pa < base ∨ base + hostWindowBytes ≤ pa then s
    else match s.tileCtx t.val with
      | none => s
      | some c =>
        let s := s.count 0x3020 9 64 1
        match s.struckTask t.val with
        | some k => s.stopTask t.val k (.job 0x7003 7 port.val [])
        | none => s.jobFault c 0x7003 7 port.val { tile := t.val, noTask := true } [])

end Sys2Proof.Machine
end

