-- ==== Sys2Proof/Machine/Checks.lean ====
section
/-! DEFINITION. The fifteen checks of a task descriptor, with what each opcode adds to them (R104 to R107, R136, R158, R171, R204, R258, R259, R265, R269, R276, R324, R344, R382, R416, R439). -/

namespace Sys2Proof.Machine

/-! ## Opcodes and their reserved fields (R105, check 3) -/

def opcodes : List Nat :=
  [0x01, 0x02, 0x03, 0x10, 0x11, 0x12, 0x18, 0x19, 0x20, 0x21, 0x22, 0x23, 0x28, 0x29, 0x2A, 0x30, 0x31, 0x40, 0x41, 0x42, 0x43,
   0x50, 0x51, 0x52, 0x53, 0x60, 0x68, 0x69, 0x6A, 0x70, 0x78, 0x79, 0x80]

/-- Bits hi:lo of a word as a mask. -/
def maskOf (hi lo : Nat) : Nat := (2 ^ (hi + 1 - lo) - 1) * 2 ^ lo

/-- The bits of words 6 and 7 that are not reserved. -/
def bodyMask (op : Nat) : Nat × Nat :=
  let all := maskOf 63 0
  let addr := maskOf 47 0
  if op = 0x01 then (maskOf 63 11, maskOf 63 16)
  else if op = 0x02 then (maskOf 63 55 + maskOf 41 16, 0)
  else if op = 0x03 then (maskOf 63 54 + maskOf 47 31, 0)
  else if op = 0x10 ∨ op = 0x11 ∨ op = 0x12 then (maskOf 63 34 + maskOf 31 0, addr)
  else if op = 0x18 ∨ op = 0x19 then (maskOf 63 56 + addr, addr)
  else if op = 0x20 then (maskOf 63 62 + addr, addr)
  else if op = 0x21 then (maskOf 63 59, addr)
  else if op = 0x22 then (maskOf 63 63 + addr, addr)
  else if op = 0x23 then (maskOf 63 57, addr)
  else if op = 0x28 then (maskOf 63 60, all)
  else if op = 0x29 then (maskOf 63 63, 0)
  else if op = 0x2A then (maskOf 63 32 + maskOf 27 0, 0)
  else if op = 0x30 then (maskOf 63 30, addr)
  else if op = 0x31 then (maskOf 63 30, 0)
  else if op = 0x40 ∨ op = 0x41 ∨ op = 0x43 then (maskOf 63 44 + maskOf 31 16, maskOf 63 32)
  else if op = 0x42 then (maskOf 63 44, addr)
  else if op = 0x50 then (all, maskOf 63 56)
  else if op = 0x51 then (addr, 0)
  else if op = 0x52 then (0, 0)
  else if op = 0x53 then (maskOf 63 63 + maskOf 31 0, 0)
  else if op = 0x60 then (maskOf 63 30, all)
  else if op = 0x68 then (maskOf 63 35, addr)
  else if op = 0x69 then (maskOf 63 60 + maskOf 31 0, 0)
  else if op = 0x6A then (maskOf 63 38 + maskOf 31 0, 0)
  else if op = 0x70 then (maskOf 63 55 + maskOf 31 0, 0)
  else if op = 0x78 ∨ op = 0x79 then (maskOf 63 28 + maskOf 15 0, maskOf 63 32)
  else (maskOf 63 62 + maskOf 31 0, maskOf 31 0)

def Task.reservedOk (k : Task) : Bool :=
  let m := bodyMask k.opcode
  bits (k.w 0) 23 19 == 0 && bits (k.w 0) 15 8 == 0 && bits (k.w 4) 55 48 == 0 && k.w 6 ||| m.1 == m.1 && k.w 7 ||| m.2 == m.2

/-! ## Used header fields (R105, check 8) -/

inductive Fld where
  | a | fa | b | fb | d | fd | l0 | l1
  deriving DecidableEq, Repr

def Task.fld (k : Task) : Fld → Nat
  | .a => k.addrA | .fa => k.fmtA | .b => k.addrB | .fb => k.fmtB | .d => k.addrD | .fd => k.fmtD | .l0 => k.len0 | .l1 => k.len1

def Task.emitZ (k : Task) : Bool := bit (k.w 6) 12
/-- MODE of a DOCK_REFIT, and its flags. -/
def Task.refitMode (k : Task) : Nat := bits (k.w 6) 60 59
def Task.biasLoad (k : Task) : Bool := bit (k.w 6) 56
def Task.boundary (k : Task) : Bool := bit (k.w 6) 31

/-- The header fields that an opcode uses in the mode its body gives. -/
def Task.used (k : Task) : List Fld :=
  let op := k.opcode
  if op = 0x01 then [.a, .fa, .d, .fd, .l0] ++ (if k.emitZ then [.b, .fb] else [])
  else if op = 0x02 then [.b, .fb, .l0] ++ (if k.refitMode = 2 then [] else [.a, .fa]) ++ (if k.biasLoad then [.d, .fd] else [])
  else if op = 0x18 then [.a, .fa, .b, .l0, .l1] ++ (if k.last then [.d, .fd] else [])
  else if op = 0x19 then [.a, .fa, .b, .l0, .l1]
  else if op = 0x10 ∨ op = 0x11 ∨ op = 0x12 ∨ op = 0x20 ∨ op = 0x68 ∨ op = 0x6A then [.a, .fa, .b, .fb, .d, .fd, .l0, .l1]
  else if op = 0x21 ∨ op = 0x28 then [.a, .fa, .d, .fd, .l0]
  else if op = 0x22 then [.a, .fa, .d, .fd, .l0, .l1]
  else if op = 0x23 then [.a, .fa, .b, .fb, .d, .fd, .l0]
  else if op = 0x29 then [.d, .l0] ++ (if k.zeroFill then [] else [.a])
  else if op = 0x2A then [.a, .d, .l0, .l1]
  else if op = 0x30 then [.a, .fa, .l0] ++ (if k.boundary then [.d] else [])
  else if op = 0x31 then [.fa, .d, .fd, .l0]
  else if op = 0x40 ∨ op = 0x41 ∨ op = 0x43 then [.a, .d, .l0]
  else if op = 0x42 then [.a, .fa, .l0]
  else if op = 0x69 then
    (if k.orthoMode = 0 then [.a, .fa, .b, .fb, .l0] else if k.orthoMode = 1 then [.b, .fb, .d, .fd, .l0]
     else [.a, .fa, .b, .fb, .d, .fd, .l0])
  else if op = 0x70 then [.l0]
  else if op = 0x78 then [.a, .b, .d, .l0]
  else if op = 0x79 then [.a, .d, .l0]
  else if op = 0x80 then [.d, .fd, .l0]
  else []

/-- Opcodes that name no layer. -/
def noLayer : List Nat := [0x03, 0x29, 0x2A, 0x40, 0x41, 0x43, 0x50, 0x51, 0x52, 0x53, 0x70]

def Task.check8 (k : Task) : Bool :=
  let op := k.opcode
  let all : List Fld := [.a, .fa, .b, .fb, .d, .fd, .l0, .l1]
  all.all (fun f => k.used.contains f || k.fld f == 0)
    && (!noLayer.contains op || k.layerId == 0xFFFF)
    && (op != 0x01 || k.emitZ || bits (k.w 7) 31 16 == 0)
    && (!(op == 0x10 || op == 0x12) || ((k.accInit != 0 || k.addrC == 0) && (k.weightB || (k.masterRow == 0 && k.masterCol == 0))))
    && (op != 0x21 || k.actDeriv || k.addrE == 0)
    && (op != 0x30 || k.boundary || bits (k.w 7) 47 0 == 0)
    && (op != 0x68 || k.fold || k.addrR == 0)

/-! ## Alignment and forbidden places (check 9) -/

def Task.align (k : Task) : List (Nat × Nat) :=
  let op := k.opcode
  let abd := [(k.addrA, 64), (k.addrB, 64), (k.addrD, 64)]
  if op = 0x02 then [(k.addrA, 64), (k.addrD, 64), (k.addrB, 4096)]
  else if op = 0x10 ∨ op = 0x12 ∨ op = 0x11 ∨ op = 0x18 ∨ op = 0x19 ∨ op = 0x20 ∨ op = 0x21 ∨ op = 0x22 ∨ op = 0x23 ∨ op = 0x68 then
    abd ++ [(bits (k.w 7) 47 0, 64)]
  else if op = 0x01 ∨ op = 0x28 ∨ op = 0x69 ∨ op = 0x6A ∨ op = 0x80 then abd
  else if op = 0x2A then
    let n := if k.elemBytes = 6 then 2 else max 1 k.elemBytes
    [(k.addrA, n), (k.addrD, n)]
  else if op = 0x30 then [(k.addrA, 64), (k.addrD, 64), (bits (k.w 7) 47 0, 4096)]
  else if op = 0x31 then [(k.addrD, 64)]
  else if op = 0x42 then [(k.addrA, 4), (k.landingAddr, 4)]
  else if op = 0x78 then [(k.addrA, 64), (k.addrB, 8), (k.addrD, 64)]
  else if op = 0x79 then [(k.addrA, 64), (k.addrD, 64)]
  else []

/-- The docks that a mask selects on a tile, with their DOCK_MAP entries of the task's layer. -/
def Task.mask (k : Task) : Nat := bits (k.w 6) 63 56
def Task.maskDocks (k : Task) (t : Nat) : List Nat := ((List.range 8).filter (fun i => bit k.mask i)).map (fun i => 8 * t + i)

def State.dockEntry (s : State) (k : Task) (d : Nat) : Option DockMap :=
  match s.plan, s.layerOf k with
  | some p, some (i, _) => match p.dockMap d with
    | some e => if e.layerIdx = i then some e else none
    | none => none
  | _, _ => none

def State.entries (s : State) (t : Nat) (k : Task) : List DockMap := (k.maskDocks t).filterMap (fun d => s.dockEntry k d)

def Task.rowTileBase (k : Task) : Nat := bits (k.w 6) 55 40
def Task.colTileBase (k : Task) : Nat := bits (k.w 6) 39 24
def Task.poolSize (k : Task) : Nat := bits (k.w 6) 23 16
def Task.poolMode (k : Task) : Nat := bits (k.w 6) 15 14
def Task.partialSum (k : Task) : Bool := bit (k.w 6) 13
def Task.calWait (k : Task) : Bool := bit (k.w 6) 11
def Task.inStride (k : Task) : Nat := 64 * bits (k.w 7) 63 48
def Task.outStride (k : Task) : Nat := 64 * bits (k.w 7) 47 32
def Task.zStride (k : Task) : Nat := 64 * bits (k.w 7) 31 16

/-- Elements of a vector up to the furthest that a selected dock reads, and writes. -/
def Task.reach (k : Task) (es : List DockMap) : Nat × Nat :=
  (es.foldl (fun m e => max m ((e.rowTile - k.rowTileBase) * 512 + e.rowsUsed)) 0,
   es.foldl (fun m e => max m ((e.colTile - k.colTileBase) * 512 + e.colsUsed)) 0)

/-- The format a DOCK_MVM writes: FP32 partial sums, or FMT_D at the layer's level. -/
def State.mvmFmt (s : State) (k : Task) : Fmt := if k.partialSum then .fp32 else s.effFmt k (fmtOf k.fmtD)

def spanOf (va stride len n : Nat) : List (Nat × Nat) := if n = 0 then [] else [(va, (n - 1) * stride + len)]

def mvmReads (s : State) (t : Nat) (k : Task) : List (Nat × Nat) :=
  let r := k.reach (s.entries t k)
  spanOf k.addrA k.inStride ((s.effFmt k (fmtOf k.fmtA)).bytes r.1) k.len0
def mvmWrites (s : State) (t : Nat) (k : Task) (eff : Fmt) : List (Nat × Nat) :=
  let r := k.reach (s.entries t k)
  let n := k.len0 / max 1 k.poolSize
  spanOf k.addrD k.outStride (eff.bytes r.2) n
    ++ (if k.emitZ then spanOf k.addrB k.zStride ((fmtOf k.fmtB).bytes r.2) k.len0 else [])

def Task.masterStride (k : Task) : Nat := 64 * bits (k.w 6) 31 16
def imageBytes : Nat := 532480

def refitReads (_ : State) (k : Task) : List (Nat × Nat) :=
  (if k.refitMode = 2 then [] else spanOf k.addrA k.masterStride 3072 k.len0) ++ [(k.addrB, imageBytes)]
    ++ (if k.biasLoad then [(k.addrD, 3072)] else [])
def refitWrites (_ : State) (k : Task) : List (Nat × Nat) := [(k.addrB, imageBytes)]

/-- What a task reads on this package as its descriptor and its frame stand, in the layout of the layer's level (R216). -/
def State.reads (s : State) (t : Nat) (k : Task) : List (Nat × Nat) :=
  let op := k.opcode
  if op = 0x01 then mvmReads s t k
  else if op = 0x02 then refitReads s k
  else if op = 0x10 ∨ op = 0x12 then gemmReads s k
  else if op = 0x11 then pairReads s k
  else if op = 0x18 ∨ op = 0x19 then attnReads (op == 0x19) s k
  else if op = 0x20 then normReads s k
  else if op = 0x21 then actReads s k
  else if op = 0x22 then smReads s k
  else if op = 0x23 then optReads s k
  else if op = 0x28 then convertReads s k
  else if op = 0x29 then copyReads s k
  else if op = 0x2A then transReads s k
  else if op = 0x30 ∨ op = 0x40 ∨ op = 0x42 ∨ op = 0x43 then [(k.addrA, k.len0)]
  else if op = 0x68 then projReads s k
  else if op = 0x69 then orthoReads s k
  else if op = 0x6A then reconReads s k
  else if op = 0x78 then dispatchReads s k
  else if op = 0x79 then [(k.addrA, k.len0 * k.tokStride)]
  else []

/-- What it writes. -/
def State.writes (s : State) (t : Nat) (k : Task) : List (Nat × Nat) :=
  let op := k.opcode
  if op = 0x01 then mvmWrites s t k (s.mvmFmt k)
  else if op = 0x10 ∨ op = 0x12 then gemmWrites s k
  else if op = 0x11 then pairWrites s k
  else if op = 0x18 ∨ op = 0x19 then attnWrites (op == 0x19) s k
  else if op = 0x20 then normWrites s k
  else if op = 0x21 then actWrites s k
  else if op = 0x22 then smWrites s k
  else if op = 0x23 then optWrites s k
  else if op = 0x28 then convertWrites s k
  else if op = 0x29 then copyWrites s k
  else if op = 0x2A then transWrites s k
  else if op = 0x31 ∨ op = 0x41 then [(k.addrD, k.len0)]
  else if op = 0x68 then projWrites s k
  else if op = 0x69 then orthoWrites s k
  else if op = 0x6A then reconWrites s k
  else if op = 0x78 then dispatchWrites s k
  else if op = 0x80 then rngWrites s k
  else []

/-- A task as it is taken, with the ranges of its operands as they stand (R296, R347). -/
def State.withUses (s : State) (t : Nat) (k : Task) : Task := { k with uses := s.reads t k ++ s.writes t k }

/-- What the fields of a descriptor name on this package, in the layout of the layer's level (R216): a frame's own fields are not among them, for it is read only when the task
starts (R297). -/
def State.operands (s : State) (t : Nat) (k : Task) : List (Nat × Nat) :=
  let op := k.opcode
  let lay (c : Nat) : Fmt := s.effFmt k (fmtOf c)
  if op = 0x10 ∨ op = 0x12 then
    [(k.addrA, (lay k.fmtA).bytes (k.len0 * k.bodyK)), (k.addrB, (lay k.fmtB).bytes (k.len1 * k.bodyK))]
      ++ (gemmReads s k).drop 2 ++ gemmWrites s k
  else if op = 0x11 then
    [(k.addrA, (lay k.fmtA).bytes (k.len0 * k.len1)), (k.addrB, (lay k.fmtB).bytes (k.len1 * k.bodyK)), (k.addrFrame, 64),
     (k.addrD, (s.fmtOut k).bytes (k.len0 * k.bodyK))]
  else if op = 0x18 ∨ op = 0x19 then
    let f := lay k.fmtA
    [(k.addrA, f.bytes (k.len0 * k.headDim)), (k.addrB, f.bytes (k.len1 * k.headDim)), (k.addrFrame, 64)]
      ++ (if op = 0x18 ∧ k.last then [(k.addrD, (lay k.fmtD).bytes (k.len0 * k.headDim))] else [])
  else s.reads t k ++ s.writes t k

/-- Where the operands of strided rows begin and end. -/
def rowSpans (k : Task) : List (Nat × Nat) :=
  let row (c : Nat) : Nat := k.len1 * ((fmtOf c).width / 8)
  spanOf k.addrA k.rowStride (row k.fmtA) k.len0 ++ spanOf k.addrD k.rowStride (row k.fmtD) k.len0

/-- The operands as check 9 sees them, each from its first byte to its last. -/
def State.spans (s : State) (t : Nat) (k : Task) : List (Nat × Nat) :=
  let op := k.opcode
  let back (b : Bool) : List (Nat × Nat) :=
    if b then spanOf k.addrE k.rowStride (k.len1 * ((fmtOf k.fmtA).width / 8)) k.len0
    else if k.addrE = 0 then [] else [(k.addrE, (if op = 0x20 then 8 else 4) * k.len0)]
  if op = 0x20 then rowSpans k ++ [(k.addrB, 4 * k.len1 * k.normParams)] ++ back k.normBack
  else if op = 0x22 then rowSpans k ++ back k.smBack
  else if op = 0x2A then
    spanOf k.addrA k.srcStride (k.len1 * k.elemBytes) k.len0 ++ spanOf k.addrD k.dstStride (k.len0 * k.elemBytes) k.len1
  else s.operands t k

/-- Whether a byte that translates lies in a reserved region or a tier-1 hold (R81, R328). -/
def State.forbidden (s : State) (t c va : Nat) : Bool := (s.placeOf (some t) c [(va, 1)] false).any (fun p => s.placeFault p.1 == 0x2006)

/-- Alignment, and the first and the last byte of each operand (R328). -/
def State.check9 (s : State) (t : Nat) (k : Task) : Bool :=
  k.align.all (fun p => p.1 % p.2 == 0)
    && (s.spans t k).all (fun r => r.2 == 0 || !(s.forbidden t k.ctx r.1 || s.forbidden t k.ctx (r.1 + r.2 - 1)))

/-! ## Formats (checks 10 and 11) -/

def isFmt (c : Nat) : Bool := (Fmt.ofCode c).isSome
def isWideFmt (c : Nat) : Bool := c == 1 || c == 2
def isProduct (c : Nat) : Bool := isFmt c && (fmtOf c).product

/-- The formats into which a stored format widens exactly (R274). -/
def widensTo (stored d : Nat) : Bool :=
  if stored = 0 then d == 0
  else if stored = 1 then d == 1
  else if stored = 2 then d == 2 || d == 1
  else if stored = 0x10 ∨ stored = 0x11 then d == stored || d == 2 || d == 1
  else if stored = 0x12 then [0x12, 0x10, 0x11, 2, 1].contains d
  else if 0x21 ≤ stored ∧ stored ≤ 0x28 then
    (decide (stored ≤ d) && decide (d ≤ 0x28)) || d == 1 || (d == 2 && decide (stored ≤ 0x25))
  else false

def Task.check10 (k : Task) : Bool :=
  let op := k.opcode
  let a := k.fmtA
  let b := k.fmtB
  let d := k.fmtD
  let int (c : Nat) : Bool := decide (0x21 ≤ c) && decide (c ≤ 0x28)
  let dest (c : Nat) : Bool := isFmt c && c != 3
  let unless0 (c : Nat) : Bool := c == 0 || isFmt c
  unless0 a && unless0 b && unless0 d &&
  (if op = 0x01 then
     (a == 0x10 || a == 0x11 || a == 2 || int a) && (if k.partialSum then d == 1 else dest d) && (!k.emitZ || isWideFmt b)
   else if op = 0x02 then (k.refitMode == 2 || a == 3) && (!k.biasLoad || d == 3) && b == 0
   else if op = 0x10 ∨ op = 0x12 then isProduct a && isProduct b && dest d
   else if op = 0x11 then isProduct a && dest d
   else if op = 0x18 then
     (a == 0x10 || a == 0x11 || a == 2) && (!k.last || d == 2 || d == 1 || d == 0x10 || d == 0x11)
   else if op = 0x19 then a == 0x10 || a == 0x11 || a == 2
   else if op = 0x20 then isWideFmt a && isWideFmt d && b == 1
   else if op = 0x21 ∨ op = 0x22 then isWideFmt a && isWideFmt d
   else if op = 0x23 then a == 1 && b == 1 && d == 3
   else if op = 0x28 then isFmt a && isFmt d
   else if op = 0x31 then widensTo a d
   else if op = 0x42 ∨ op = 0x68 ∨ op = 0x69 ∨ op = 0x6A then
     k.used.all (fun f => !(f == .fa || f == .fb || f == .fd) || k.fld f == 1)
   else if op = 0x80 then (if bits (k.w 6) 63 62 = 0 then d == 1 else isWideFmt d)
   else true)

def Task.check11 (k : Task) : Bool :=
  !([0x10, 0x11, 0x12, 0x68, 0x6A].contains k.opcode) || k.fmtA == k.fmtB

/-! ## Parameters that are not 0 (check 12) -/

def Task.check12 (k : Task) : Bool :=
  let op := k.opcode
  let ok (l : List Nat) : Bool := l.all (fun v => v != 0)
  if op = 0x01 then ok [k.mask, k.poolSize, k.inStride, k.outStride] && (!k.emitZ || k.zStride != 0)
  else if op = 0x02 then decide (2 ≤ k.refitMode) || k.masterStride != 0
  else if op = 0x03 then k.mask != 0
  else if [0x10, 0x11, 0x12, 0x68, 0x6A].contains op then k.bodyK != 0
  else if op = 0x18 ∨ op = 0x19 then k.headDim != 0
  else if op = 0x20 ∨ op = 0x22 then k.rowStride != 0
  else if op = 0x2A then ok [k.elemBytes, k.srcStride, k.dstStride]
  else if op = 0x50 then bits (k.w 6) 31 0 != 0
  else if op = 0x78 then ok [k.tokStride, k.tokBytes, k.expertCount]
  else if op = 0x79 then ok [k.tokStride, k.tokBytes]
  else true

/-! ## Ranges of parameters (check 13) -/

/-- A binary32 pattern that is finite and, after the flush of R187, not zero. -/
def f32Live (v : Nat) : Bool := bits v 30 23 != 0 && bits v 30 23 != 255

def State.inRange (s : State) (c b : Nat) : Bool := s.bollardOwner b == some c

/-- No dimension of a narrow operand straddles blocks. -/
def rowOk (f : Fmt) (n : Nat) : Bool := !f.narrow || n % 32 == 0

/-- A weight operand lies within its layer's master (R259). -/
def Task.inMaster (k : Task) (l : LayerDef) : Bool :=
  decide (k.masterRow + k.bodyK ≤ l.k) && decide (k.masterCol + k.len1 ≤ l.n)

def noRepeats : List (Nat × Nat) → Bool
  | [] => true
  | x :: r => !r.contains x && noRepeats r

/-- DOCK_MVM (R136). -/
def State.mvm13 (s : State) (t : Nat) (k : Task) : Bool :=
  let es := s.entries t k
  let r := k.reach es
  (match s.layerOf k with | some (_, l) => l.path == 0 | none => false)
    && decide (k.poolMode ≤ 2) && decide (k.poolSize ≤ 16) && k.len0 % max 1 k.poolSize == 0 && (k.poolMode != 0 || k.poolSize == 1)
    && (!k.partialSum || (k.poolMode == 0 && !k.emitZ))
    && noRepeats (es.map (fun e => (e.rowTile, e.colTile)))
    && es.all (fun e => decide (k.rowTileBase ≤ e.rowTile) && decide (k.colTileBase ≤ e.colTile))
    && decide ((s.effFmt k (fmtOf k.fmtA)).bytes r.1 ≤ k.inStride) && decide ((s.mvmFmt k).bytes r.2 ≤ k.outStride)
    && (!k.emitZ || decide ((fmtOf k.fmtB).bytes r.2 ≤ k.zStride))

def Task.refitLast (k : Task) : Bool := bit (k.w 6) 57
def Task.persistMeta (k : Task) : Bool := bit (k.w 6) 55

def Task.refit13 (k : Task) : Bool :=
  decide (k.refitMode ≤ 2) && decide (k.firstRow ≤ 511) && decide (k.firstRow + k.len0 ≤ 512)
    && (if k.refitMode = 2 then k.masterStride == 0 && !k.refitFirst else decide (3072 ≤ k.masterStride))
    && (!k.refitLast || k.refitMode == 0) && (k.refitLast || (!k.biasLoad && !k.persistMeta))

def State.gemm13 (s : State) (k : Task) : Bool :=
  let K := k.bodyK
  decide (k.accInit ≤ 2) && rowOk (fmtOf k.fmtA) (if k.aT then k.len0 else K) && rowOk (fmtOf k.fmtB) (if k.bT then k.len1 else K)
    && rowOk (s.fmtOut k) (if k.dT then k.len0 else k.len1)
    && (!k.weightB || (match s.layerOf k with | some (_, l) => k.inMaster l | none => false))
    && (k.opcode != 0x12 || (decide (k.len0 ≤ 8) && !k.aT && !k.bT && !k.dT))

def State.pair13 (s : State) (k : Task) : Bool :=
  decide (k.derivFn ≤ 8) && (match s.layerOf k with | some (_, l) => k.inMaster l | none => false)
    && (!(fmtOf k.fmtA).narrow || (k.len1 % 32 == 0 && k.bodyK % 32 == 0)) && rowOk (s.fmtOut k) k.bodyK

def Task.convert13 (k : Task) (named : Bool) : Bool :=
  let m := bits (k.w 6) 63 62
  let narrow := (fmtOf k.fmtD).narrow
  let stoch := bit (k.w 6) 61
  let off := bits (k.w 7) 31 0
  let sc := bits (k.w 7) 63 32
  (decide (m = 0) == !narrow) && (m != 1 || named) && (!stoch || narrow)
    && (if m = 3 then f32Live sc && !bit sc 31 else sc == 0) && (stoch || off == 0) && decide (off + k.len0 ≤ 2 ^ 32)

/-- Source and destination ranges that meet (R342, R344). -/
def meet (a n b m : Nat) : Bool := decide (a < b + m ∧ b < a + n)

/-- A stretch of n bytes meets one of m rows of w bytes at a stride: the first row that ends beyond its start is the one to look at. -/
def meetsRows (a n b stride w m : Nat) : Bool :=
  let j := if b + w ≤ a then (a - (b + w)) / max 1 stride + 1 else 0
  decide (j < m ∧ b + j * stride < a + n)

/-- The rows of the source of a TRANSPOSE share no byte with those of its destination. -/
def Task.rowsApart (k : Task) : Bool :=
  let e := k.elemBytes
  !meet k.addrA ((k.len0 - 1) * k.srcStride + k.len1 * e) k.addrD ((k.len1 - 1) * k.dstStride + k.len0 * e)
    || !(List.range k.len0).any (fun i => meetsRows (k.addrA + i * k.srcStride) (k.len1 * e) k.addrD k.dstStride (k.len0 * e) k.len1)

def Task.transpose13 (k : Task) : Bool :=
  let e := k.elemBytes
  [1, 2, 4, 6, 8].contains e && decide (k.len1 * e ≤ k.srcStride) && decide (k.len0 * e ≤ k.dstStride)
    && k.srcStride % max 1 e == 0 && k.dstStride % max 1 e == 0
    && (k.len0 == 0 || k.len1 == 0 || k.rowsApart)

/-- The layer of a factor or optimiser task, with its REDUCTION entry (R416). -/
def State.reducing (s : State) (k : Task) : Option (LayerDef × ReductionDef) :=
  match s.layerOf k with
  | none => none
  | some (i, l) => (s.reductionOf i).map (fun e => (l, e.2))

/-- ACC: the buckets it sends end at a boundary or at the round's end. -/
def Task.acc13 (k : Task) (l : LayerDef) (r : ReductionDef) : Bool :=
  let bytes := 4 * r.rank * bucketRows r.rank
  decide (k.accFirst < roundBuckets l r k.accQ)
    && (k.len0 % max 1 bytes == 0 || k.accFirst * bytes + k.len0 == 4 * r.rank * roundRows l k.accQ)
    && decide (k.accFirst * bytes + k.len0 ≤ 4 * r.rank * roundRows l k.accQ)

def chunkMiB : Nat := 1048576

def State.secure13 (s : State) (k : Task) : Bool :=
  k.prio == 3 && k.ctx == s.secureCtx && k.secVc != 6 &&
  match s.regions[k.secRegion]? with
  | none => false
  | some r => decide (k.secChunk * chunkMiB < r.length) && k.len0 == min chunkMiB (r.length - k.secChunk * chunkMiB)

def State.check13 (s : State) (t : Nat) (k : Task) : Bool :=
  let op := k.opcode
  let named := (s.layerOf k).isSome
  let w (c : Nat) : Nat := (fmtOf c).width / 8
  let strideOk : Bool := decide (k.len1 * max (w k.fmtA) (w k.fmtD) ≤ k.rowStride)
  if op = 0x01 then s.mvm13 t k
  else if op = 0x02 then k.refit13
  else if op = 0x03 then decide (bits (k.w 6) 55 54 ≠ 3) && (!bit (k.w 6) 31 || s.inRange k.ctx (bits (k.w 6) 47 32))
  else if op = 0x10 ∨ op = 0x12 then s.gemm13 k
  else if op = 0x11 then s.pair13 k
  else if op = 0x18 ∨ op = 0x19 then
    decide (bits (k.w 6) 63 59 ≤ 16) && (k.fmtA == 2 || bits (k.w 6) 63 59 % 2 == 0)
  else if op = 0x20 then
    strideOk && decide (0x800000 ≤ bits (k.w 6) 31 0 ∧ bits (k.w 6) 31 0 ≤ 0x3F800000) && (!k.normBack || k.addrE != 0)
  else if op = 0x21 then decide (k.actFn ≤ 8) && (!k.actDeriv || k.addrE != 0)
  else if op = 0x22 then strideOk && f32Live (bits (k.w 6) 31 0) && (!k.smBack || k.addrE != 0)
  else if op = 0x28 then k.convert13 named
  else if op = 0x29 then k.zeroFill || k.len0 == 0 || !meet k.addrA k.len0 k.addrD k.len0
  else if op = 0x2A then k.transpose13
  else if op = 0x30 ∨ op = 0x31 then
    k.fmtA == 0 || (if (fmtOf k.fmtA).narrow then k.len0 % (fmtOf k.fmtA).groupBytes == 0 else k.len0 % max 1 (w k.fmtA) == 0)
  else if op = 0x41 then k.remoteBol == 0
  else if op = 0x43 then !k.otherDom && (s.isRoot k.target || (s.convoyDef k.target).isNone)
  else if op = 0x50 then
    decide (bits (k.w 7) 63 56 ≤ 7) && (bits (k.w 6) 63 48 != 0xFFFF || s.inRange k.ctx (bits (k.w 6) 47 32))
  else if op = 0x51 then
    (if bits (k.w 6) 31 0 = 0 then bits (k.w 6) 47 32 == 0 else s.inRange k.ctx (bits (k.w 6) 47 32))
  else if op = 0x53 then decide (k.prio ≤ 2)
  else if op = 0x60 then false
  else if op = 0x70 then s.secure13 k
  else if op = 0x78 then
    decide (k.expertBase + k.expertCount ≤ 4096) && decide (k.tokBytes ≤ k.tokStride)
  else if op = 0x79 then
    decide (k.expertBase + k.expertCount ≤ 4096) && decide (k.tokBytes ≤ k.tokStride) && !k.overflowMode && k.expertCount == 1
  else if op = 0x80 then
    let dist := bits (k.w 6) 63 62
    let p := bits (k.w 6) 31 0
    dist != 3 && (if dist = 2 then decide (p ≤ 0x3F800000 ∨ p = 0x80000000) else p == 0) && decide (bits (k.w 7) 31 0 + k.len0 ≤ 2 ^ 32)
  else if op = 0x23 ∨ op = 0x42 ∨ op = 0x68 ∨ op = 0x69 ∨ op = 0x6A then
    match s.reducing k with
    | none => false
    | some (l, r) =>
      if op = 0x23 then decide (bits (k.w 6) 63 62 ≤ 1) && (!k.bucketEnd || k.broadcast)
      else if op = 0x42 then k.acc13 l r
      else if op = 0x68 then k.len1 == r.rank && decide (k.accInit ≤ 1) && (!k.fold || k.addrR != 0)
      else if op = 0x69 then k.orthoMode != 3 && (k.orthoMode != 1 || k.len0 == r.rank) && (!k.refresh || k.orthoMode == 2)
      else k.bodyK == r.rank && decide (bits (k.w 6) 39 38 ≤ 1)
  else true

/-! ## What the plan gives the tile, and size limits (checks 14 and 15) -/

def State.check14 (s : State) (t : Nat) (k : Task) : Bool :=
  if k.opcode = 0x01 then (k.maskDocks t).all (fun d => (s.dockEntry k d).isSome)
  else if k.opcode = 0x02 then (s.dockEntry k (8 * t + bits (k.w 6) 63 61)).isSome
  else if k.opcode = 0x43 then (s.convoyDef k.target).isSome
  else true

def State.check15 (s : State) (k : Task) : Bool :=
  let op := k.opcode
  let vol := up64 k.len0 * up64 k.len1 * up64 k.bodyK
  let rank := match s.reducing k with | some (_, r) => r.rank | none => 0
  if op = 0x01 then decide (k.len0 ≤ 64)
  else if op = 0x02 then decide (k.len0 ≤ if k.refitMode = 2 then 64 else 8)
  else if op = 0x10 ∨ op = 0x12 then
    let fa := fmtOf k.fmtA
    let fb := fmtOf k.fmtB
    (if k.thin then
      decide (2 * (k.len0 * up64 k.len1 * up64 k.bodyK) ≤ 49152 * rate fa) && decide (fb.bytes (k.len1 * k.bodyK) ≤ 8388608)
     else decide (vol ≤ 98304 * rateOf fa (k.aT || k.bT)))
  else if op = 0x11 then decide (vol ≤ 49152 * rateOf (fmtOf k.fmtA) true)
  else if op = 0x18 ∨ op = 0x19 then decide (k.len0 ≤ 128 ∧ k.len1 ≤ 512)
  else if op = 0x20 ∨ op = 0x22 then decide (k.len0 * k.len1 ≤ 262144 ∧ k.len1 ≤ 65536)
  else if op = 0x21 ∨ op = 0x28 ∨ op = 0x80 then decide (k.len0 ≤ 262144)
  else if op = 0x23 then decide (k.len0 ≤ 65536)
  else if op = 0x29 then decide (k.len0 ≤ 8388608)
  else if op = 0x2A then decide (k.len0 * k.len1 * k.elemBytes ≤ 2097152)
  else if op = 0x30 ∨ op = 0x31 ∨ op = 0x70 then decide (k.len0 ≤ 1048576)
  else if op = 0x40 ∨ op = 0x41 ∨ op = 0x42 ∨ op = 0x43 then decide (k.len0 ≤ 4194304)
  else if op = 0x68 ∨ op = 0x6A then decide (vol ≤ 98304 * 1024)
  else if op = 0x69 then k.orthoMode == 1 || decide (k.len0 * (rank * rank) ≤ 3145728)
  else if op = 0x78 ∨ op = 0x79 then decide (k.len0 ≤ 4096 ∧ k.len0 * k.tokBytes ≤ 4194304)
  else true

/-! ## The fifteen checks in order (R106) -/

/-- The code of the first check that fails, or 0. -/
def State.validate (s : State) (d : BerthDef) (k : Task) : Nat :=
  if !s.loaded then 0x100F
  else if !opcodes.contains k.opcode then 0x1001
  else if !k.reservedOk then 0x1002
  else if s.ctxState k.ctx = 0 ∨ k.ctx ≠ d.ctx then 0x1003
  else if k.prio ≠ d.prio then 0x1004
  else if (k.waitThr ≠ 0 ∧ !s.inRange k.ctx k.waitBol) ∨ (k.sigInc ≠ 0 ∧ !s.inRange k.ctx k.sigBol) then 0x1005
  else if k.layerId ≠ 0xFFFF ∧ (match s.layerOf k with | some (_, l) => l.ctx != k.ctx | none => true) = true then 0x100B
  else if !k.check8 then 0x100A
  else if !s.check9 d.tile k then 0x100C
  else if !k.check10 then 0x1008
  else if !k.check11 then 0x1009
  else if !k.check12 then 0x1006
  else if !s.check13 d.tile k then 0x1007
  else if !s.check14 d.tile k then 0x100E
  else if !s.check15 k then 0x100D
  else 0

/-- Opcodes with an amount, and those with two (R105). -/
def Task.amounts (k : Task) : List Nat :=
  let op := k.opcode
  if [0x10, 0x11, 0x12, 0x18, 0x19, 0x20, 0x22, 0x2A, 0x68, 0x6A].contains op then [k.len0, k.len1]
  else if [0x01, 0x02, 0x21, 0x23, 0x28, 0x29, 0x30, 0x31, 0x40, 0x41, 0x42, 0x43, 0x69, 0x70, 0x78, 0x79, 0x80].contains op then
    [k.len0]
  else []

/-- A zero amount makes a task a no-op (R9). -/
def Task.zeroAmount (k : Task) : Bool := k.amounts.contains 0

end Sys2Proof.Machine
end

