-- ==== Sys2Proof/Machine/Hold.lean ====
section
/-! DEFINITION. The hold: its tiers and moves, HOLD_PUSH and HOLD_POP, marks and the recompute of their segments (R271 to R288). -/

namespace Sys2Proof.Machine

/-! ## A tile's hold and its tiers (R271, R280) -/

def State.hold (s : State) (t : Nat) : HoldSt := mgetD s.holds t HoldSt.empty
def State.setHold (s : State) (t : Nat) (h : HoldSt) : State := { s with holds := mset s.holds t h }

/-- Bytes of tier 1 on a tile. -/
def State.holdCap (s : State) (t : Nat) : Nat := match s.plan with
  | none => 0
  | some p => match p.tilePart t with
    | none => 0
    | some x => x.holdT1 * 1024

def State.holdDef (s : State) (c : Nat) : HoldDef := match s.plan with
  | none => ⟨c, 0, 0, 0, 0⟩
  | some p => (p.holds.find? (fun h => h.ctx == c)).getD ⟨c, 0, 0, 0, 0⟩

def extentBytes : Nat := twoMiB
def segmentBytes : Nat := 65536

/-- Bytes in a list of extents. -/
def heldIn (x : List (Nat × Nat)) : Nat := x.foldl (fun n e => n + e.2) 0
def HoldSt.t2 (h : HoldSt) : Nat := heldIn h.x2
def State.holdFree (s : State) (t : Nat) : Nat := s.holdCap t - (s.hold t).t1

/-- Extents of a pool that no tile of the context holds or has reserved. -/
def State.extentUsed (s : State) (c tier e : Nat) : Bool :=
  (s.ctxTiles c).any (fun t =>
    let h := s.hold t
    if tier = 2 then h.x2.any (fun x => x.1 == e) || h.res2.contains e else h.x3.any (fun x => x.1 == e) || h.res3.contains e)

/-- The lowest free extents of a pool, up to a number of them. -/
def freeGo (used : Nat → Bool) (n : Nat) : Nat → Nat → Nat → List Nat
  | 0, _, _ => []
  | fuel + 1, i, k => if n ≤ i ∨ k = 0 then [] else if used i then freeGo used n fuel (i + 1) k else i :: freeGo used n fuel (i + 1) (k - 1)

def State.freeExtents (s : State) (c tier k : Nat) : List Nat :=
  let d := s.holdDef c
  let n := (if tier = 2 then d.t2Size else d.t3Size) / extentBytes
  freeGo (s.extentUsed c tier) n n 0 k

/-- Bytes still free in the top extent of a tier. -/
def topRoom (x : List (Nat × Nat)) : Nat := match x.getLast? with
  | some e => extentBytes - e.2
  | none => 0

/-- Units that a number of bytes takes, the last one perhaps in part. -/
def unitsFor (unit n : Nat) : Nat := n / unit + (if n % unit = 0 then 0 else 1)
def extentsFor (n : Nat) : Nat := unitsFor extentBytes n

/-- A list of reserved extents with the further ones that a reservation takes. -/
def withMore (held more : List Nat) : List Nat := held ++ more.drop held.length

/-- The extents that bytes placed below tier 1 need beyond those the tile holds (R281). Tier 2 gives what it has free; for each that
it lacks an extent moves from tier 2 to tier 3, and a tile with nothing in tier 2 places the bytes in tier 3. None: the reservation
cannot be made in full. -/
def State.reserveLow (s : State) (t c n : Nat) : Option (List Nat × List Nat) :=
  let h := s.hold t
  let m := extentsFor (n - topRoom h.x2)
  let r2 := (h.res2 ++ s.freeExtents c 2 (m - h.res2.length)).take m
  if r2.length = m then some (r2, [])
  else
    let m3 := if h.x2 = [] ∧ r2 = [] then extentsFor (n - topRoom h.x3) else m - r2.length
    let r3 := (h.res3 ++ s.freeExtents c 3 (m3 - h.res3.length)).take m3
    if r3.length = m3 then some (r2, r3) else none

/-- Put bytes on top of a list of extents: into the top extent, then into a new one. Answers the places written: extent, offset,
length. -/
def putTop (x : List (Nat × Nat)) (fresh n : Nat) : List (Nat × Nat) × List (Nat × Nat × Nat) :=
  let k := min n (topRoom x)
  let (x, w) := match x.getLast? with
    | some e => if k = 0 then (x, []) else (x.dropLast ++ [(e.1, e.2 + k)], [(e.1, e.2, k)])
    | none => (x, [])
  if n ≤ k then (x, w) else (x ++ [(fresh, n - k)], w ++ [(fresh, 0, n - k)])

/-- Take bytes off the top of a list of extents, newest first; an emptied extent returns to its pool. -/
def takeTop : Nat → List (Nat × Nat) → Nat → List (Nat × Nat)
  | 0, x, _ => x
  | fuel + 1, x, n =>
    match x.getLast? with
    | none => []
    | some e => if n < e.2 then x.dropLast ++ [(e.1, e.2 - n)] else takeTop fuel x.dropLast (n - e.2)

/-- Bytes placed below tier 1: the hold after it, the tier-2 extents that moved to tier 3, and what was written in either tier. -/
structure Placed where
  h : HoldSt
  moved : List (Nat × Nat)
  w2 : List (Nat × Nat × Nat)
  w3 : List (Nat × Nat × Nat)
  deriving DecidableEq, Repr

/-- Place bytes below tier 1 in reserved extents, in the tier that R277 gives. -/
def placeGo : Nat → Nat → Placed → Placed
  | 0, _, p => p
  | fuel + 1, n, p =>
    let h := p.h
    if n = 0 then p
    else if 0 < topRoom h.x2 then
      let k := min n (topRoom h.x2)
      let (x, w) := putTop h.x2 0 k
      placeGo fuel (n - k) { p with h := { h with x2 := x }, w2 := p.w2 ++ w }
    else match h.res2, h.res3, h.x2 with
      | e :: r, _, _ =>
        let k := min n extentBytes
        placeGo fuel (n - k) { p with h := { h with x2 := h.x2 ++ [(e, k)], res2 := r }, w2 := p.w2 ++ [(e, 0, k)] }
      | [], e :: r, x :: xs =>
        placeGo fuel n { p with h := { h with x2 := xs, x3 := h.x3 ++ [(e, x.2)], res2 := [x.1], res3 := r },
                                moved := p.moved ++ [x], w3 := p.w3 ++ [(e, 0, x.2)] }
      | [], r3, _ =>
        let k := min n (topRoom h.x3 + extentBytes)
        let (x, w) := putTop h.x3 (r3.headD 0) k
        placeGo fuel (n - k) { p with h := { h with x3 := x, res3 := if x.length = h.x3.length then r3 else r3.drop 1 }, w3 := p.w3 ++ w }

def HoldSt.placeLow (h : HoldSt) (n : Nat) : Placed := placeGo (4 * extentsFor n + 4) n ⟨h, [], [], []⟩

/-- Remove bytes from the top of the stack: tier 1 first, then tier 2, then tier 3. -/
def HoldSt.removeTop (h : HoldSt) (n : Nat) : HoldSt :=
  let a := min n h.t1
  let b := min (n - a) h.t2
  let left := heldIn h.x3 + h.t2 + h.t1 - n
  { h with bad := h.bad.filter (fun e => decide (e.1 < left)), t1 := h.t1 - a, x2 := takeTop (h.x2.length + 1) h.x2 b, x3 := takeTop (h.x3.length + 1) h.x3 (n - a - b) }

/-! ## Where the stack lies (R271, R279) -/

/-- A stretch of a tile's stack: its distance from the bottom, its length, its tier, and where it lies: a physical address in tier 1, a
virtual address of the context below it. -/
structure HoldPiece where
  pos : Nat
  len : Nat
  tier : Nat
  place : Nat
  deriving DecidableEq, Repr

def HoldSt.below (h : HoldSt) : Nat := heldIn h.x3 + h.t2
def HoldSt.depth (h : HoldSt) : Nat := h.below + h.t1

/-- Where a pool of the context begins. -/
def State.poolBase (s : State) (c tier : Nat) : Nat := if tier = 2 then (s.holdDef c).t2Base else (s.holdDef c).t3Base

def extentPieces (tier base : Nat) : Nat → List (Nat × Nat) → List HoldPiece
  | _, [] => []
  | pos, e :: r => ⟨pos, e.2, tier, base + e.1 * extentBytes⟩ :: extentPieces tier base (pos + e.2) r

/-- The ring of tier 1: the byte at a position of the stack lies at that position modulo the ring's size (DESIGN CHOICE, log 42). -/
def State.ringPieces (s : State) (t pos n : Nat) : List HoldPiece :=
  let cap := s.holdCap t
  let base := tileAddr t (0x1000000 - cap)
  let k := min n (cap - pos % cap)
  (if k = 0 then [] else [⟨pos, k, 1, base + pos % cap⟩]) ++ (if n ≤ k then [] else [⟨pos + k, n - k, 1, base⟩])

def State.stackPieces (s : State) (t c : Nat) (h : HoldSt) : List HoldPiece :=
  extentPieces 3 (s.poolBase c 3) 0 h.x3 ++ extentPieces 2 (s.poolBase c 2) (heldIn h.x3) h.x2 ++ s.ringPieces t h.below h.t1

def HoldPiece.cut (lo hi : Nat) (p : HoldPiece) : Option HoldPiece :=
  let a := max p.pos lo
  let b := min (p.pos + p.len) hi
  if a < b then some ⟨a, b - a, p.tier, p.place + (a - p.pos)⟩ else none

/-- The part of a stack from one position up to another. -/
def State.stackCut (s : State) (t c : Nat) (h : HoldSt) (lo hi : Nat) : List HoldPiece := (s.stackPieces t c h).filterMap (HoldPiece.cut lo hi)

/-- Places written below tier 1, as virtual addresses and lengths. -/
def State.poolPlaces (s : State) (c tier : Nat) (w : List (Nat × Nat × Nat)) : List (Nat × Nat) :=
  w.map (fun x => (s.poolBase c tier + x.1 * extentBytes + x.2.1, x.2.2))

/-! ## Accesses to the stack (R279, R336, R338) -/

/-- Ranges for an access that is made whatever a host holds. -/
def State.rangesNowGo (s : State) (tile : Option Nat) (c va n : Nat) (need : Need) : Nat → Except AccFault (List (Nat × Nat) × State)
  | 0 => s.ranges tile c va n need
  | k + 1 => match s.ranges tile c va n need with
    | .error (.stall ls) => (s.takeLines ls).rangesNowGo tile c va n need k
    | r => r

def State.rangesNow (s : State) (tile : Option Nat) (c va n : Nat) (need : Need) : Except AccFault (List (Nat × Nat) × State) :=
  s.rangesNowGo tile c va n need (n / 4096 + 2)

/-- The poisoned bytes of a stretch: position in the stack, physical address, code. -/
def State.poisonAlong (s : State) : Nat → List (Nat × Nat) → List (Nat × Nat × Nat)
  | _, [] => []
  | pos, r :: rs =>
    (s.poison.filter (fun e => decide (r.1 ≤ e.1 ∧ e.1 < r.1 + r.2))).map (fun e => (pos + (e.1 - r.1), e.1, e.2)) ++ s.poisonAlong (pos + r.2) rs

/-- Pieces of a stack are read, with the permissions a pop or a move needs: what of them is poisoned. -/
def State.readPieces (s : State) (t c : Nat) (need : Need) : List HoldPiece → Except AccFault (List (Nat × Nat × Nat) × State)
  | [] => .ok ([], s)
  | p :: r =>
    match (if p.tier = 1 then .ok ([(p.place, p.len)], s) else s.rangesNow (some t) c p.place p.len need) with
    | .error f => .error f
    | .ok (rs, s) =>
      let bad := s.poisonAlong p.pos rs
      match s.readPieces t c need r with
      | .error f => .error f
      | .ok (more, s) => .ok (bad ++ more, s)

/-- A task reads a part of the stack: one that holds poison, or that a move met poisoned, is a detected data error (R279). -/
def State.readStack (s : State) (t c lo hi : Nat) : Except AccFault State :=
  let h := s.hold t
  match s.readPieces t c .read (s.stackCut t c h lo hi) with
  | .error f => .error f
  | .ok (bad, s) => match bad ++ h.bad.filter (fun e => decide (lo ≤ e.1 ∧ e.1 < hi)) with
    | (_, pa, code) :: _ => .error (.data pa code)
    | [] => .ok s

/-- Bytes of a hold region written with content of the device's own layout: free values (log 7). -/
def State.holdWrite (s : State) (t c : Nat) (need : Need) : List (Nat × Nat) → Except AccFault State
  | [] => .ok s
  | (va, n) :: r =>
    match s.rangesNow (some t) c va n need with
    | .error f => .error f
    | .ok (rs, s) => (let (bs, s) := s.drawBytes n; (s.storeRanges rs bs).holdWrite t c need r)

/-- Pieces of a ring that take new bytes: what had poisoned them is gone. -/
def State.freshen (s : State) (ps : List HoldPiece) : State :=
  { s with poison := s.poison.filter (fun e => ps.all (fun p => decide (e.1 < p.place ∨ p.place + p.len ≤ e.1))) }

/-- Bytes on their way between tiers, or through to a lower one: what is read, what is written below tier 1, what of the ring is
written, the counter that takes the bytes (3 spilled, 4 prefetched), and the hold once they have landed. -/
structure Haul where
  src : List HoldPiece
  dst : List (Nat × Nat)
  ring : List HoldPiece
  sub : Nat
  n : Nat
  h : HoldSt
  deriving DecidableEq, Repr

/-- A haul's accesses below tier 1, in their order. -/
def Haul.uses (x : Haul) : List (Nat × Nat) := (x.src.filter (fun p => p.tier != 1)).map (fun p => (p.place, p.len)) ++ x.dst

/-- A haul lands: poison that it met stays with the bytes, wherever they go (R350). -/
def State.haul (s : State) (t c : Nat) (need : Need) (x : Haul) : Except AccFault State :=
  match s.readPieces t c need x.src with
  | .error f => .error f
  | .ok (bad, s) =>
    match s.holdWrite t c need x.dst with
    | .error f => .error f
    | .ok s => .ok (((s.freshen x.ring).count 0x2602 x.sub 64 x.n).setHold t { x.h with bad := x.h.bad ++ bad })

/-- The haul of bytes placed below tier 1: the extents that move on to tier 3 are read, and count as spilled. -/
def State.placeHaul (s : State) (t c : Nat) (p : Placed) (src : List HoldPiece) (n : Nat) : Haul :=
  let h := s.hold t
  ⟨src ++ (extentPieces 2 (s.poolBase c 2) (heldIn h.x3) p.moved).filterMap (HoldPiece.cut 0 h.below),
   s.poolPlaces c 2 p.w2 ++ s.poolPlaces c 3 p.w3, [], 3, n + heldIn p.moved, p.h⟩

/-! ## Entries (R272 to R275) -/

def Task.tag (k : Task) : Nat := bits (k.w 6) 63 48
def Task.segment (k : Task) : Nat := bits (k.w 6) 47 32
/-- CLASS_A: bit 30 of a push, bit 31 of a pop; CLASS_D: bit 30 of a pop. -/
def Task.classA (k : Task) : Bool := if k.opcode = 0x31 then bit (k.w 6) 31 else bit (k.w 6) 30
def Task.classD (k : Task) : Bool := bit (k.w 6) 30
def Task.altManifest (k : Task) : Nat := bits (k.w 7) 47 0

/-- A format code as R214 substitutes it for a class; raw stays raw. -/
def State.holdFmt (s : State) (k : Task) (grad : Bool) (code : Nat) : Nat :=
  if code = 0 then 0 else (s.levelFmt k grad (fmtOf code)).code

/-- Elements of a push or pop (R275); bytes where it is raw. -/
def Task.holdElems (k : Task) : Nat :=
  if k.fmtA = 0 then k.len0
  else let f := fmtOf k.fmtA
    if f.narrow then k.len0 / f.groupBytes * 2048 else k.len0 / (f.width / 8)

def fmtBytes (code n : Nat) : Nat := if code = 0 then n else (fmtOf code).bytes n
def round64 (n : Nat) : Nat := (n + 63) / 64 * 64

def State.pushFmt (s : State) (k : Task) : Nat := s.holdFmt k k.classA k.fmtA
def State.pushBytes (s : State) (k : Task) : Nat := fmtBytes (s.pushFmt k) k.holdElems
/-- The format that a pop writes: substituted only where FMT_A is narrow. -/
def State.popFmt (s : State) (k : Task) : Nat :=
  if k.fmtA ≠ 0 ∧ (fmtOf k.fmtA).narrow then s.holdFmt k k.classD k.fmtD else k.fmtD

/-- Rules of the SEGMENT of a push (R273). -/
def HoldSt.segOk (h : HoldSt) (k : Task) : Bool :=
  if k.boundary then decide (k.segment < 0xFFFF) && (match h.lastSeg with | some x => decide (x < k.segment) | none => true)
  else k.segment == h.lastSeg.getD 0xFFFF

/-- Bytes that must be free in tier 1 for an entry's image, and bytes placed below tier 1 for it (R277, R281). -/
def State.pushRoom (s : State) (t size : Nat) : Nat × Nat :=
  let cap := s.holdCap t
  let t1 := (s.hold t).t1
  (min size cap,
   if size ≤ cap then min t1 (unitsFor segmentBytes (t1 + size - cap) * segmentBytes) else t1 + (size - cap))

def State.newEntry (s : State) (k : Task) (mark : Bool) (size : Nat) (payload : List Byte) : HoldEntry :=
  { tag := k.tag, seg := k.segment, boundary := k.boundary, mark := mark, fmtA := k.fmtA, stored := s.pushFmt k, len := k.len0,
    size := size, alt := k.altManifest, restore := if k.boundary then k.addrD else 0, step := s.stepOf k.ctx,
    attempt := s.attemptOf k.ctx, payload := payload }

/-- An entry or mark on top of the stack; a boundary push sets its segment's manifest. A move under way keeps its extents. -/
def HoldSt.push (h : HoldSt) (k : Task) (e : HoldEntry) : HoldSt :=
  { h with entries := e :: h.entries, need := 0, since := none, prep := none, res2 := if h.move.isSome then h.res2 else [],
           res3 := if h.move.isSome then h.res3 else [],
           lastSeg := if k.boundary then some k.segment else h.lastSeg,
           alts := if k.boundary then mset h.alts k.segment k.altManifest else h.alts }

/-! ## HOLD_PUSH (R273, R281) -/

def markLimit : Nat := 8192

/-- A push that becomes a mark. -/
def State.pushMark (s : State) (t : Nat) (k : Task) : Except AccFault (State × Nat) :=
  let h := s.hold t
  if markLimit ≤ (h.entries.filter (·.mark)).length then .error (.refuse 0x1204)
  else
    let s := (if h.marking || h.logged then s
      else (s.count 0x2602 9 64 1).logEv { s.ctxEv k.ctx 0x1209 note 2 t (leBytes 2 k.layerId) with force := false }).count 0x2602 5 64 1
    .ok (s.setHold t { h.push k (s.newEntry k true 0 []) with marking := true, logged := true }, 0)

/-- Time that a push or a pop waited (R279). -/
def State.stallCount (s : State) (sub : Nat) (since : Option Nat) : State := match since with
  | some t0 => s.count 0x2602 sub 64 (s.timer - t0)
  | none => s

def State.pushRun (s : State) (t : Nat) (k : Task) : Except AccFault (State × Nat) :=
  let h := s.hold t
  let n := s.pushBytes k
  let size := 64 + round64 n
  let (room, low) := s.pushRoom t size
  if !h.segOk k then .error (.refuse 0x1203)
  else if h.marking || (s.reserveLow t k.ctx low).isNone then s.pushMark t k
  else if s.holdFree t < room then .error .wait
  else match s.readVa (some t) k.ctx k.addrA n with
    | .error f => .error f
    | .ok (bs, s) =>
      let (r2, r3) := (s.reserveLow t k.ctx (size - room)).getD ([], [])
      let h := s.hold t
      let p := { h with res2 := withMore h.res2 r2, res3 := withMore h.res3 r3 }.placeLow (size - room)
      let x := s.placeHaul t k.ctx p [] 0
      match s.haul t k.ctx (if p.moved = [] then .write else .both) x with
      | .error f => .error f
      | .ok s =>
        let s := (s.stallCount 7 h.since).count 0x2602 1 64 1
        let h := s.hold t
        .ok ((s.freshen (s.ringPieces t (h.depth) room)).setHold t
          { h.push k (s.newEntry k false size bs) with t1 := h.t1 + room }, 0)

/-- What a push that lacks tier-1 room reserves, and the room it waits for. -/
def State.pushPrep (s : State) (t : Nat) (k : Task) : State :=
  let h := s.hold t
  let size := 64 + round64 (s.pushBytes k)
  let (room, low) := s.pushRoom t size
  if !h.segOk k || h.marking || decide (room ≤ s.holdFree t) then s
  else match s.reserveLow t k.ctx low with
    | none => s
    | some (r2, r3) =>
      s.setHold t { h with need := room, since := h.since.or (some s.timer), prep := some k.id,
                           res2 := withMore h.res2 r2, res3 := withMore h.res3 r3 }

def pushReads (s : State) (k : Task) : List (Nat × Nat) := [(k.addrA, s.pushBytes k)]

/-- HOLD_PUSH (R273). -/
def execHoldPush (t : TileId) (s : State) : Host.Outcome State Fault Refusal :=
  let s := match s.headOf t.val 0x30 with
    | some k => s.pushPrep t.val k
    | none => s
  .next (s.runTask t.val 0x30 (fun _ => true) ⟨pushReads, fun _ _ => [], State.pushRun⟩)

/-! ## Exact widening (R274) -/

/-- A narrow element's code in a wider narrow format, before its scale. -/
def Fmt.recode (a b : Fmt) (c : Nat) : Nat := match a.decodeElem c with
  | .fin v => b.encodeElem (absR v) (decide (v < 0))
  | .zero neg => b.encodeElem 0 neg
  | _ => c

/-- A scale byte as the device writes it back: one that reads as a poisoned block is written 0x7F (R185). -/
def scaleOut (b : Byte) : Byte := match readScale b.toNat with
  | .zero => 0
  | .val _ => b
  | _ => 0x7F

/-- A group whose block scales are kept; blocks without a positive scale have zero elements. -/
def Fmt.recodeGroup (a b : Fmt) (bs : List Byte) : List Byte :=
  let scales := sub_ bs (256 * a.width) 64
  let code (j : Nat) : Nat := match readScale ((scales.getD (j / 32) 0).toNat) with
    | .val _ => a.recode b (elemBits bs a.width j)
    | _ => 0
  packBits b.width ((List.range 2048).map code) (256 * b.width) ++ scales.map scaleOut

/-- What writing blocks of given scales back raises: zero blocks, poisoned ones, and scales whose sign was set (R185, R205, R211). -/
def noteScales (bs : List Byte) : Calc Unit := do
  let n (f : Scale → Bool) : Nat := (bs.filter (fun b => f (readScale b.toNat))).length
  let zs := n (· == .zero)
  let ps := n (fun x => x == .poisoned || x == .badSign)
  flagBadScales (n (· == .badSign))
  if 0 < ps then flagInvalid
  modify (fun (t : NumStat) => { t with
    status := t.status ||| (if 0 < zs then stZeroBlock else 0) ||| (if 0 < ps then stPoisoned else 0),
    zb := t.zb + zs, pb := t.pb + ps })

/-- A payload in the format that a pop writes. Dequantising reads scales, and a NaN that it writes is canonical (R185, R196). -/
def widenBytes (stored d n : Nat) (bs : List Byte) : Calc (List Byte) :=
  if stored = d ∨ stored = 0 then pure bs
  else do
    let a := fmtOf stored
    let b := fmtOf d
    if b.narrow then
      let gs := (chunks a.groupBytes (bs.length / a.groupBytes + 1) bs).filter (fun g => g != [])
      noteScales (gs.flatMap (fun g => sub_ g (256 * a.width) 64))
      return gs.flatMap (a.recodeGroup b)
    else
      let (xs, bad) := a.readTensor bs n
      flagBadScales bad
      b.wideTensor xs

/-! ## HOLD_POP of an entry (R274, R275, R279) -/

/-- Whether a pop matches its entry, and the code of its refusal. -/
def State.popCheck (s : State) (t : Nat) (k : Task) : Nat :=
  match (s.hold t).entries with
  | [] => 0x1202
  | e :: _ =>
    if e.len ≠ k.len0 ∨ e.fmtA ≠ k.fmtA ∨ e.tag ≠ k.tag ∨ e.seg ≠ k.segment then 0x1203
    else if !widensTo e.stored (s.popFmt k) then 0x120A else 0

/-- Bytes can move up: from tier 2 to free room in tier 1, or an extent of tier 3 to tier 2. -/
def State.canFetch (s : State) (t : Nat) : Bool := decide (0 < (s.hold t).t2 ∧ 0 < s.holdFree t)
def State.canRecall (s : State) (t c : Nat) : Bool :=
  decide ((s.hold t).x3 ≠ [] ∧ (s.hold t).t2 < extentBytes ∧ s.freeExtents c 2 1 ≠ [])

/-- The top entry or mark leaves the hold; an emptied hold leaves recompute mode. -/
def State.popTop (s : State) (t : Nat) : State :=
  let h := s.hold t
  match h.entries with
  | [] => s
  | e :: r =>
    let s := (s.stallCount 8 h.since).count 0x2602 2 64 1
    let h := h.removeTop e.size
    s.setHold t { h with entries := r, want := false, since := none, redo := none, prep := none, marking := h.marking && decide (r ≠ []) }

def State.popRun (s : State) (t : Nat) (k : Task) : Except AccFault (State × Nat) :=
  let h := s.hold t
  let code := s.popCheck t k
  if code ≠ 0 then .error (.refuse code)
  else match h.entries with
    | [] => .error (.refuse 0x1202)
    | e :: _ =>
      if e.mark then .ok (s.popTop t, 0)
      else if h.t1 < e.size ∧ (h.move.isSome || s.canFetch t || s.canRecall t k.ctx) = true then .error .wait
      else match s.readStack t k.ctx (h.depth - e.size) h.depth with
        | .error f => .error f
        | .ok s =>
          let (bs, n) := s.calc (widenBytes e.stored (s.popFmt k) k.holdElems e.payload)
          match s.writeBytes t k.ctx k.addrD bs with
          | .error f => .error f
          | .ok s =>
            let s := if k.fmtA = 0 then s else s.noteStored k k.addrD (fmtOf k.fmtD) (fmtOf (s.popFmt k))
            .ok ((s.popTop t).bookNum k n, n.status)

def popWrites (s : State) (k : Task) : List (Nat × Nat) := [(k.addrD, fmtBytes (s.popFmt k) k.holdElems)]

/-! ## HOLD_POP of a mark (R282, R283) -/

/-- The slots of a manifest up to its terminator (R291). -/
def slotWords (bs : List Byte) (i : Nat) : List Nat := (List.range 8).map (fun j => field bs (64 * i + 8 * j) 8)
def manifestSlots (bs : List Byte) : List (List Nat) :=
  ((List.range 64).map (slotWords bs)).takeWhile (fun w => w.getD 0 0 != 0)

/-- Opcodes of an alternate manifest. -/
def altOpcodes : List Nat := [0x01, 0x10, 0x12, 0x18, 0x20, 0x21, 0x22, 0x28, 0x29, 0x2A, 0x80]

def altOk (c : Nat) (w : List Nat) : Bool :=
  let k := Task.fresh 0 w 0 0 0 0
  k.ctx == c && k.waitThr == 0 && k.sigInc == 0 && altOpcodes.contains k.opcode

/-- Segments recorded on the tile in the attempt, in order. -/
def HoldSt.segsFrom (h : HoldSt) (lo hi : Nat) : List Nat := (h.alts.map (·.1)).filter (fun x => decide (lo ≤ x ∧ x ≤ hi))

/-- The highest segment at or below one whose boundary entry holds data. -/
def HoldSt.boundaryFor (h : HoldSt) (seg : Nat) : Option HoldEntry :=
  (h.entries.filter (fun e => e.boundary && !e.mark && decide (e.seg ≤ seg))).foldl (fun (b : Option HoldEntry) e =>
    match b with
    | none => some e
    | some x => if x.seg < e.seg then some e else b) none

/-- Bytes of the entries beneath one. -/
def HoldSt.beneath (h : HoldSt) (b : HoldEntry) : Nat :=
  ((h.entries.dropWhile (fun e => e != b)).drop 1).foldl (fun n e => n + e.size) 0

/-- The recompute begins: the boundary's activation is copied to its restore address. -/
def State.redoStart (s : State) (t : Nat) (k : Task) (seg : Nat) : Except AccFault State :=
  let h := s.hold t
  match (if seg = 0xFFFF then none else h.boundaryFor seg) with
  | none => .error (.refuse 0x1205)
  | some b =>
    let lo := h.beneath b
    match s.readStack t k.ctx lo (lo + b.size) with
    | .error f => .error f
    | .ok s =>
      match s.writeBytes t k.ctx b.restore b.payload with
      | .error f => .error f
      | .ok s =>
        let s := if b.fmtA = 0 then s else s.noteStored k b.restore (fmtOf b.fmtA) (fmtOf b.stored)
        .ok ((s.setHold t { s.hold t with redo := some ⟨h.segsFrom b.seg seg, none, [], h.redone⟩, prep := some k.id }).setTask t
          { k with st := .suspended })

/-- The next segment's manifest is read and checked whole. -/
def State.redoLoad (s : State) (t : Nat) (k : Task) (r : Redo) (g : Nat) (rest : List Nat) : Except AccFault State :=
  match mgetD (s.hold t).alts g 0 with
  | 0 => .error (.refuse 0x1205)
  | va =>
    match s.readVa (some t) k.ctx va 4096 with
    | .error f => .error f
    | .ok (bs, s) =>
      let ws := manifestSlots bs
      if ws.all (altOk k.ctx) then .ok (s.setHold t { s.hold t with redo := some { r with segs := rest, running := some g, tasks := ws } })
      else .error (.refuse 0x1206)

/-- The next task of a manifest is validated and placed ahead of the pop; a task of zero amount does nothing. -/
def State.redoTask (s : State) (t : Nat) (k : Task) (r : Redo) (w : List Nat) (rest : List (List Nat)) : Except AccFault State :=
  let a := { Task.fresh s.nextTask w k.berth k.man k.manVa k.slot with alt := true, st := .taken }
  match s.berthDef k.berth with
  | none => .error .wait
  | some d =>
    let code := s.validate d a
    if code ≠ 0 then .error (.refuse code)
    else
      let s := s.setHold t { s.hold t with redo := some { r with tasks := rest } }
      if a.zeroAmount then .ok s
      else
        let s := { s with nextTask := s.nextTask + 1 }
        let ts : List Task := (s.tile t).tasks
        .ok (s.setTile t { s.tile t with
          tasks := ts.takeWhile (fun x => x.id != k.id) ++ [s.withUses t a] ++ ts.dropWhile (fun x => x.id != k.id) })

/-- One move of the recompute of a mark. -/
def State.redoMove (s : State) (t : Nat) (k : Task) (seg : Nat) : Except AccFault State :=
  let h := s.hold t
  match (if k.st = .suspended then h.redo else none) with
  | none => s.redoStart t k seg
  | some r => match r.tasks, r.running, r.segs with
    | w :: ws, _, _ => s.redoTask t k r w ws
    | [], some g, _ =>
      .ok ((s.count 0x2602 6 64 1).setHold t { h with redone := if h.redone.contains g then h.redone else g :: h.redone,
                                                       redo := some { r with running := none } })
    | [], none, g :: gs => s.redoLoad t k r g gs
    | [], none, [] => .ok (s.setHold t { h with redone := if h.redone.contains seg then h.redone else seg :: h.redone })

/-- Moves of a recompute that need no command of their own: a manifest's end, the load of the next, tasks of zero amount. -/
def State.redoGo (s : State) (t id seg : Nat) : Nat → Except AccFault State
  | 0 => .ok s
  | n + 1 =>
    match s.headOf t 0x31 with
    | none => .ok s
    | some k =>
      if k.id ≠ id ∨ (s.hold t).redone.contains seg then .ok s
      else match s.redoMove t k seg with
        | .error f => .error f
        | .ok s => s.redoGo t id seg n

/-- HOLD_POP (R274, R282). -/
def execHoldPop (t : TileId) (s : State) : Host.Outcome State Fault Refusal :=
  let form (_ : Task) : Bool := true
  let body : Body := ⟨fun _ _ => [], fun s k => match (s.hold t.val).entries with
    | e :: _ => if e.mark then [] else popWrites s k
    | [] => [], State.popRun⟩
  .next (match s.headOf t.val 0x31 with
    | none => s
    | some k =>
      match (s.hold t.val).entries with
      | [] => s.runTask t.val 0x31 form body
      | e :: _ =>
        let h := s.hold t.val
        if s.popCheck t.val k ≠ 0 then s.runTask t.val 0x31 form body
        else if e.mark then
          (if h.redone.contains e.seg ∧ h.redo.isNone then s.runTask t.val 0x31 form body
           else
            let s := if k.st = .suspended then s else s.setHold t.val { h with redo := none }
            match s.work.redoGo t.val k.id e.seg (66 * (h.alts.length + 2)) with
            | .error .wait => s
            | .error f => s.stopTask t.val k f
            | .ok s => if (s.hold t.val).redone.contains e.seg then
                (match (s.hold t.val).redo with
                 | none => s.runTask t.val 0x31 form body
                 | some r => if r.segs = [] ∧ r.running.isNone ∧ r.tasks = [] then s.runTask t.val 0x31 form body else s)
              else s)
        else
          let s := if h.t1 < e.size ∧ (h.move.isSome || s.canFetch t.val || s.canRecall t.val k.ctx) = true then
              s.setHold t.val { h with want := true, since := h.since.or (some s.timer), prep := some k.id } else s
          s.runTask t.val 0x31 form body)

/-! ## Moves between tiers (R277, R278) -/

/-- The context of a tile whose hold controller may start a move. -/
def State.mover (s : State) (t : Nat) : Option Nat :=
  if s.operating ∧ s.loaded ∧ (s.hold t).move.isNone then s.tileCtx t else none

/-- HOLD_SPILL: the move that makes room in tier 1 starts, with the extents it needs; where tier 2 lacks one, its deepest goes to tier 3
first. -/
def State.spillStart (s : State) (t c : Nat) : State :=
  let h := s.hold t
  let n := min segmentBytes h.t1
  if n = 0 ∨ (s.get 0x2600 1 * 1024 ≤ s.holdFree t ∧ h.need ≤ s.holdFree t) then s
  else match s.reserveLow t c n with
    | none => s
    | some (r2, r3) =>
      let h := { h with res2 := withMore h.res2 r2, res3 := withMore h.res3 r3 }
      match r2, r3, h.x2 with
      | [], _ :: _, x :: _ => s.setHold t { h with move := some (.evict, x.2) }
      | _, _, _ => s.setHold t { h with move := some (.spill, n) }

def execHoldSpill (t : TileId) (s : State) : Host.Outcome State Fault Refusal :=
  .next (match s.mover t.val with
    | some c => s.spillStart t.val c
    | none => s)

/-- HOLD_PREFETCH: a move up starts. -/
def State.fetchStart (s : State) (t c : Nat) : State :=
  let h := s.hold t
  if s.canFetch t && (h.want || decide (s.get 0x2600 2 * 1024 ≤ s.holdFree t)) then
    s.setHold t { h with move := some (.fetch, min segmentBytes (min h.t2 (s.holdFree t))) }
  else if s.canRecall t c then
    match s.freeExtents c 2 1, h.x3.getLast? with
    | e :: _, some x => s.setHold t { h with res2 := h.res2 ++ [e], move := some (.recall, x.2) }
    | _, _ => s
  else s

def execHoldPrefetch (t : TileId) (s : State) : Host.Outcome State Fault Refusal :=
  .next (match s.mover t.val with
    | some c => s.fetchStart t.val c
    | none => s)

/-- The haul of each kind of move, for the hold without it (R277 to R280). None: there is nothing left to move. -/
def State.spillHaul (s : State) (t c n : Nat) (h : HoldSt) (keep : List Nat → List Nat) : Option Haul :=
  match s.reserveLow t c n with
  | none => none
  | some (r2, r3) =>
    let p := { h with res2 := withMore h.res2 r2, res3 := withMore h.res3 r3 }.placeLow n
    let p := { p with h := { p.h with t1 := h.t1 - n, res2 := keep p.h.res2, res3 := keep p.h.res3 } }
    some (s.placeHaul t c p (s.ringPieces t h.below n) n)

def State.evictHaul (s : State) (c : Nat) (h : HoldSt) (keep : List Nat → List Nat) : Option Haul :=
  match h.x2, h.res3 with
  | x :: r, e :: more =>
    some ⟨extentPieces 2 (s.poolBase c 2) (heldIn h.x3) [x], s.poolPlaces c 3 [(e, 0, x.2)], [], 3, x.2,
      { h with x2 := r, x3 := h.x3 ++ [(e, x.2)], res3 := keep more, res2 := keep (h.res2 ++ [x.1]) }⟩
  | _, _ => none

def State.fetchHaul (s : State) (t c n : Nat) (h : HoldSt) : Haul :=
  ⟨s.stackCut t c h (h.below - n) h.below, [], s.ringPieces t (h.below - n) n, 4, n,
   { h with t1 := h.t1 + n, x2 := takeTop (h.x2.length + 1) h.x2 n }⟩

def State.recallHaul (s : State) (c : Nat) (h : HoldSt) (keep : List Nat → List Nat) : Option Haul :=
  match h.x3.getLast?, h.res2.getLast? with
  | some x, some e =>
    some ⟨extentPieces 3 (s.poolBase c 3) (heldIn h.x3 - x.2) [x], s.poolPlaces c 2 [(e, 0, x.2)], [], 4, x.2,
      { h with x3 := h.x3.dropLast, x2 := (e, x.2) :: h.x2, res2 := keep h.res2.dropLast }⟩
  | _, _ => none

/-- A tile's hold once a move of it is over: extents reserved for it alone go back. -/
def HoldSt.still (h : HoldSt) : HoldSt :=
  { h with move := none, res2 := if h.need = 0 then [] else h.res2, res3 := if h.need = 0 then [] else h.res3 }

/-- The haul of the move under way. -/
def State.moveHaul (s : State) (t c : Nat) (m : HoldMoveKind × Nat) : Option Haul :=
  let h := { s.hold t with move := none }
  let keep (r : List Nat) : List Nat := if h.need = 0 then [] else r
  match m.1 with
  | .spill => s.spillHaul t c (min m.2 h.t1) h keep
  | .evict => s.evictHaul c h keep
  | .fetch => some (s.fetchHaul t c (min m.2 (min h.t2 (s.holdFree t))) h)
  | .recall => s.recallHaul c h keep

/-- HOLD_MOVE_DONE: the bytes count in their destination from now on (R280). A translation fault on a hold region is a job fault, and the
move is given up with its bytes where they were (R279, R340). -/
def execHoldMoveDone (t : TileId) (s : State) : Host.Outcome State Fault Refusal :=
  .next (match (s.hold t.val).move, s.tileCtx t.val with
    | some m, some c =>
      match s.moveHaul t.val c m with
      | none => s.setHold t.val (s.hold t.val).still
      | some x => match s.haul t.val c .both x with
        | .ok s => s
        | .error (.trans code va level w) =>
          ((s.setHold t.val (s.hold t.val).still).noteFault t.val c x.uses (.trans code va level w)).transFault c code
            { va := va, level := level, write := w, tile := t.val, noTask := true }
        | .error _ => s
    | _, _ => s)

/-! ## Discards, and HOLD_STATE (R284, R286) -/

/-- A tile's hold is emptied; its tier 1 holds nothing that will be read, so nothing in it is poisoned. -/
def State.emptyHold (s : State) (t : Nat) (keepLog : Bool) : State :=
  let lo := tileAddr t (0x1000000 - s.holdCap t)
  let hi := tileAddr t 0x1000000
  { s.setHold t { HoldSt.empty with logged := keepLog && (s.hold t).logged } with
    poison := s.poison.filter (fun e => decide (e.1 < lo ∨ hi ≤ e.1)) }

/-- A replay discards the holds of a context; a step advance logs what it discards (R284). -/
def State.discardHolds (s : State) (c : Nat) (advance : Bool) : State :=
  (s.ctxTiles c).foldl (fun s t =>
    let n := (s.hold t).entries.length
    let s := if advance ∧ 0 < n then
        (s.count 0x2602 10 64 n).logEv (s.ctxEv c 0x1208 warning 2 t (leBytes 2 0xFFFF ++ leBytes 4 n)) else s
    s.emptyHold t (!advance)) s

def State.holdState (s : State) : List Byte :=
  (List.range 2304).flatMap (fun t =>
    let h := s.hold t
    if h = HoldSt.empty then zeros 32
    else leBytes 8 (h.entries.foldl (fun n e => n + e.size) 0) ++ leBytes 4 h.t1 ++ leBytes 2 h.x2.length ++ leBytes 2 h.x3.length
      ++ leBytes 2 (h.entries.filter (·.mark)).length ++ leBytes 1 (if h.marking then 1 else 0) ++ [0] ++ leBytes 4 h.entries.length
      ++ zeros 8)

end Sys2Proof.Machine
end

