-- ==== Sys2Proof/Machine/Docks.lean ====
section
/-! DEFINITION. Docks: their cells and periphery, the queue of calibrations, DOCK_MVM on the docks and on the arrays at WIDE (R111 to R146, R217). -/

namespace Sys2Proof.Machine

/-! ## A dock (R111 to R113, R151, R159) -/

def dockDie (d : Nat) : Nat := d / 1152

/-- The physical output that the column map gives a logical one (R113, R160). -/
def Dock.phys (x : Dock) (o : Nat) : Nat := mgetD x.column o o
/-- The weight code that the cells of a row and a physical output hold. -/
def Dock.code (x : Dock) (r p : Nat) : Int := mgetD x.codes (r * 528 + p) 0
/-- The gain of a dock's slices where no calibration has chosen one: the last cold calibration's, before any the policy's
COLD_GAIN (R165, R172). -/
def Dock.baseGain (x : Dock) (policy : Nat) : Nat := if x.cold = 0 then policy else x.cold
/-- The gain of a slice of a physical output; `policy` is COLD_GAIN. -/
def Dock.gain (x : Dock) (policy p slice : Nat) : Nat := mgetD x.gains (2 * p + slice) (x.baseGain policy)
def State.coldGain (s : State) : Nat := s.get 0x6100 4
/-- The count of a cell group; after a power-up one unit above what the metadata held then (R161). -/
def Dock.groupCount (x : Dock) (p g : Nat) : Nat := mgetD x.groups (32 * p + g) ((mgetD x.upUnits p 0 + 1) * 16384)
def Dock.wear (x : Dock) (p : Nat) : Nat := (List.range 32).foldl (fun m g => max m (x.groupCount p g)) 0
/-- The largest group count of the dock: over all its columns, those that an output has left for a spare among them (R144, R161,
R178). -/
def Dock.maxWear (x : Dock) : Nat := (List.range 528).foldl (fun m p => max m (x.wear p)) 0

/-- The levels of the four cells of a code: high positive, high negative, low positive, low negative (R112, R151). -/
def levelsOf (q : Int) : List Nat :=
  let h := q.natAbs / 16
  let l := q.natAbs % 16
  if 0 ≤ q then [h, 0, l, 0] else [0, h, 0, l]

/-- The cells of a physical output that hold a code other than 0, by row. -/
def Dock.cells (x : Dock) (p : Nat) : List (Nat × Int) :=
  x.codes.filterMap (fun e => if e.1 % 528 = p then some (e.1 / 528, e.2) else none)

/-- The charge that a column collects in a phase, in pu: the products of its slice of one sign. A negative input exchanges the
row's connection to the two columns (R117). -/
def columnCharge (cells : List (Nat × Int)) (inputs : List Int) (slice pol : Nat) : Nat :=
  cells.foldl (fun a e =>
    let q := inputs.getD e.1 0
    a + q.natAbs * (levelsOf e.2).getD (2 * slice + (if q < 0 then 1 - pol else pol)) 0) 0

/-- Σ x_q × w over the rows of a physical output, with whatever its cells hold (R122, R133, R139). -/
def exactProduct (cells : List (Nat × Int)) (inputs : List Int) : Int :=
  cells.foldl (fun a e => a + inputs.getD e.1 0 * e.2) 0

/-- The codes that a phase drives: 0 on a row outside it (R116). -/
def phaseInputs (inputs : List Int) (rows : List Nat) : List Int :=
  inputs.zipIdx.map (fun q => if rows.contains q.2 then q.1 else 0)

/-- FP16 values as binary16 gives them (R112). -/
def numOfF16 (n : Nat) : Num :=
  let neg := bit n 15
  let e := bits n 14 10
  let m := n % 1024
  if e = 31 then (if m = 0 then .inf neg else .nan canonicalNaN)
  else if e = 0 ∧ m = 0 then .zero neg
  else
    let v := (if e = 0 then (m : Rat) * pow2 (-24) else ((1024 + m : Nat) : Rat) * pow2 ((e : Int) - 25))
    .fin (if neg then -v else v)

/-- The trim of a physical column: OFF in counts and GT (R119, R172); measured ones are free values within the register's
ranges (log 9). -/
def Dock.trimReg (x : Dock) (col : Nat) : Nat :=
  let free (d : Nat) : Nat :=
    (16384 + Config.freeNat (d + 2 * col) % 32768) * 2 ^ 16 + Config.freeNat (d + 2 * col + 1) % 4096 * 16
  match x.trims with
  | .none => free 0
  | .measured d => free d
  | .restored regs => regs.getD col 0
def trimOff (reg : Nat) : Rat := (toSigned 12 (bits reg 15 4) : Rat) / 16
def trimGain (reg : Nat) : Rat := (bits reg 31 16 : Rat) / 32768

/-- The temperature of a die's centre diode (R20, R166). -/
def State.dieTemp (s : State) (die : Nat) : Rat := s.channelValue die
/-- The same in whole degrees, as CAL_TEMP holds it. -/
def State.dieDegrees (s : State) (die : Nat) : Nat := (clampInt 0 125 (rne (s.dieTemp die))).toNat

/-- A of R139 and E_p: log10 to 128 binary places (log 18). -/
def wearDecades (n : Nat) : Rat := if n ≤ 10000 then 0 else lnR ((n : Rat) / 10000) / lnR 10
def State.phaseError (s : State) (d p : Nat) : Rat :=
  let x := s.dock d
  let dt := if x.calTemp = 0xFF then 0 else absR (s.dieTemp (dockDie d) - (x.calTemp : Rat))
  (4 / 1000 + 5 / 10000 * wearDecades (x.wear p)) * 4095 + 3 / 2 + 3 / 10 * dt

/-! ## Calibrations asked for (R131, R166 to R168) -/

def State.interrupting (s : State) : Bool := match s.plan with
  | some p => p.zd1
  | none => false

def State.calQueue (s : State) (t : Nat) : List CalReq := mgetD s.cals t []
def State.setCalQueue (s : State) (t : Nat) (q : List CalReq) : State :=
  { s with cals := if q = [] then merase s.cals t else mset s.cals t q }

/-- A dock is calibrating from the moment its calibration is queued (R131). -/
def State.calibrating (s : State) (d : Nat) : Bool := (s.calQueue (d / 8)).any (fun r => r.dock == d)

/-- A calibration of the whole die is queued or runs (R168). -/
def State.dieCalibrating (s : State) (die : Nat) : Bool := (mget? s.dieCals die).isSome

/-- Queue the calibration of one dock; retired docks are never calibrated. -/
def State.queueDock (s : State) (d : Nat) (kind : CalKind) (dones : List (Nat × Nat)) (restore : Option Nat) : State :=
  if s.dockRetired d then s
  else s.setCalQueue (d / 8) (s.calQueue (d / 8) ++ [⟨d, kind, dones, false, 0, restore⟩])

/-- Queue the calibration of a whole die (R168). -/
def State.queueDie (s : State) (die : Nat) (dones : List (Nat × Nat)) : State :=
  let x := mgetD s.dieCals die ⟨[], false, []⟩
  { s with dieCals := mset s.dieCals die { x with dones := x.dones ++ dones } }

/-- A trigger or a DOCK_CAL asks for a dock's calibration: in the interrupting mode the whole die's. -/
def State.queueCal (s : State) (d : Nat) (kind : CalKind) (dones : List (Nat × Nat)) : State :=
  if s.dockRetired d then s
  else if s.interrupting ∧ s.operating then s.queueDie (dockDie d) dones
  else s.queueDock d kind dones none

/-- A calibration that the device starts by itself: one at a time per dock. -/
def State.triggerCal (s : State) (d : Nat) (kind : CalKind) : State :=
  if s.calibrating d || (s.interrupting && s.operating && s.dieCalibrating (dockDie d)) then s else s.queueCal d kind []

/-- The clip-retry trigger (R166). -/
def State.clipTrigger (s : State) (d : Nat) : State :=
  let n := s.get 0x6100 3
  if n ≠ 0 ∧ n < (s.dock d).clips then s.triggerCal d .native else s

/-- The temperature trigger at a conversion of a die's centre diode: each dock in place against its CAL_TEMP, and in the
interrupting mode the die against its last calibration (R166, R168). -/
def State.tempTrigger (s : State) (die : Nat) : State :=
  let far (t : Nat) : Bool := decide (f32ToRat (s.get 0x6100 2) < absR (s.dieTemp die - (t : Rat)))
  if s.interrupting ∧ s.operating then
    match mget? s.power.dieCal die with
    | some t => if far t && !s.dieCalibrating die then s.queueDie die [] else s
    | none => s
  else
    (s.docks.filter (fun e => dockDie e.1 == die && s.tileState (e.1 / 8) != 2 && e.2.calTemp != 0xFF && far e.2.calTemp)).foldl
      (fun (s : State) e => s.triggerCal e.1 .native) s

/-! ## Geometry of a DOCK_MVM (R123, R135) -/

/-- A COL_TILE that the task covers: its number, its outputs, its docks' entries in ascending ROW_TILE. -/
structure Seg where
  tile : Nat
  cols : Nat
  docks : List DockMap
  deriving DecidableEq, Repr

def insertRow (e : DockMap) : List DockMap → List DockMap
  | [] => [e]
  | x :: r => if e.rowTile ≤ x.rowTile then e :: x :: r else x :: insertRow e r

def segsOf (es : List DockMap) : List Seg :=
  let cols := (es.map (·.colTile)).foldr insertNat [] |>.eraseDups
  cols.map (fun c =>
    let ds := (es.filter (fun e => e.colTile == c)).foldr insertRow []
    ⟨c, ds.foldl (fun m e => max m e.colsUsed) 0, ds⟩)

/-- Where the bytes of a segment's elements go: element bytes and scale bytes of its own blocks (R123). -/
def segWrites (f : Fmt) (base pos n : Nat) (bs : List Byte) : List (Nat × List Byte) :=
  if f.narrow then
    let g := base + pos / 2048 * f.groupBytes
    let blocks := (n + 31) / 32
    [(g + pos % 2048 / 8 * f.width, bs.take (4 * f.width * blocks)),
     (g + 256 * f.width + pos % 2048 / 32, sub_ bs (256 * f.width) blocks)]
  else [(base + pos * (f.width / 8), bs)]

/-! ## Steps 4 to 7 of R123 -/

def poolMax (xs : List Num) : Num :=
  xs.foldl (fun a x => match a, x with
    | .inf true, y => y
    | y, .inf true => y
    | .inf false, _ => .inf false
    | _, .inf false => .inf false
    | a, x => if a.rat < x.rat then x else a) (.inf true)

/-- One element of a pooled vector (R125). -/
def poolOf (mode : Nat) (xs : List Num) : Calc Num := do
  match xs with
  | [] => return .zero false
  | x :: r =>
    if mode = 0 then return x
    else if xs.any Num.isNaN then return .nan canonicalNaN
    else if mode = 1 then return poolMax xs
    else
      let sum ← r.foldlM (fun a y => fadd a y) x
      fdiv sum (.fin (xs.length : Nat))

/-- Pre-activations and pooled outputs of every vector, segment by segment. -/
def periphery (k : Task) (actFn : Nat) (bias : List (List Num)) (ys : List (List (List Num))) :
    Calc (List (List (List Num)) × List (List (List Num))) := do
  if k.partialSum then return (ys, ys)
  else
    let zs ← ys.mapM (fun v => (v.zip bias).mapM (fun p => map2M fadd p.1 p.2))
    let fs ← zs.mapM (fun v => v.mapM (fun seg => seg.mapM (actF actFn)))
    let groups := chunks (max 1 k.poolSize) (fs.length / max 1 k.poolSize + 1) fs
    let res ← (groups.filter (fun g => g ≠ [])).mapM (fun g =>
      (List.range bias.length).mapM (fun j => do
        let segs := g.map (fun v => v.getD j [])
        (transpose ((segs.headD []).length) segs).mapM (poolOf k.poolMode)))
    return (zs, res)

/-- What a task reads of the class OUT when it starts: its range, none in just-in-time mode (R190, R221). -/
def State.startRange (s : State) (i : Nat) : Option Nat := if s.jit i 1 then none else some ((s.layer i).cls 1).range

/-- The scale of a destination of a range read at the start, or of the outputs' own maximum. -/
def startScale (range : Option Nat) (f : Fmt) (a : Rat) : Rat :=
  let v := match range with
    | some r => (numOfF32 r).rat
    | none => if a = 0 then 1 else a
  f32Round (v / (f.emax : Nat))

/-- The writes of a DOCK_MVM, what its outputs count, and its pre-activations; format and range are those at its start. -/
def State.mvmOut (s : State) (k : Task) (i : Nat) (l : LayerDef) (segs : List Seg) (eff : Fmt) (range : Option Nat) (bias : List (List Num))
    (ys : List (List (List Num))) : Calc (List (Nat × List Byte) × ConvStat × List (List (List Num))) := do
  let want := if k.partialSum then .fp32 else fmtOf k.fmtD
  let (zs, res) ← periphery k l.actFn bias ys
  let pos (g : Seg) : Nat := (g.tile - k.colTileBase) * 512
  let scale := startScale range eff (maxFinite (res.flatMap (·.flatten)))
  let outs ← res.zipIdx.mapM (fun v => (v.1.zip segs).mapM (fun p => do
    let (bs, c) ← s.destOut (some i) 1 want eff (.explicit scale) .nearest p.1
    return (segWrites eff (k.addrD + v.2 * k.outStride) (pos p.2) p.1.length bs, c)))
  let zouts ← if !k.emitZ then pure [] else zs.zipIdx.mapM (fun v => (v.1.zip segs).mapM (fun p => do
    let bs ← (fmtOf k.fmtB).wideTensor p.1
    return segWrites (fmtOf k.fmtB) (k.addrB + v.2 * k.zStride) (pos p.2) p.1.length bs))
  let cv := outs.foldl (fun a v => v.foldl (fun a o => a.add o.2) a) ({} : ConvStat)
  let cv := if k.partialSum then { cv with maxAbs := 0 } else cv
  return (outs.flatMap (fun v => v.flatMap (·.1)) ++ (zouts.flatMap (·.flatten)), cv, zs)

/-- The formats in which the output vectors were stored. -/
def State.noteVectors (s : State) (k : Task) (eff : Fmt) : State :=
  iter (k.len0 / max 1 k.poolSize) (fun v s =>
    s.noteStored k (k.addrD + v * k.outStride) (if k.partialSum then .fp32 else fmtOf k.fmtD) eff) s

/-! ## Inputs (R114, R115) -/

/-- The input vectors, and how many scale bytes had their sign set. -/
def State.readVectors (s : State) (t : Nat) (k : Task) (n : Nat) : Nat → Except AccFault ((List (List Num) × Nat) × State)
  | 0 => .ok (([], 0), s)
  | m + 1 =>
    match s.readVectors t k n m with
    | .error e => .error e
    | .ok ((vs, bad), s) =>
      let f0 := s.storedFmt k k.addrA (fmtOf k.fmtA)
      let va := k.addrA + m * k.inStride
      match s.readTensor t k.ctx va (s.storedFmt k va f0) n with
      | .error e => .error e
      | .ok ((v, b), s) => .ok ((vs ++ [v], bad + b), s)

/-- The elements of a vector that a dock reads. -/
def rowsOf (k : Task) (rowTile rows : Nat) (v : List Num) : List Num := (v.drop ((rowTile - k.rowTileBase) * 512)).take rows

/-- A dock's sign-magnitude codes of a vector. -/
def inputCode (b : Nat) (sIn : Rat) (x : Num) : Int :=
  let m : Int := (2 ^ b - 1 : Nat)
  clampInt (-m) m (rne (x.rat / sIn))
def MvmDock.codes (d : MvmDock) (k : Task) (v : List Num) : List Int :=
  (rowsOf k d.rowTile d.rows v).map (inputCode d.width d.sIn.rat)
/-- Elements that the clamp changes. -/
def MvmDock.clamps (d : MvmDock) (k : Task) (v : List Num) : List Bool :=
  (rowsOf k d.rowTile d.rows v).map (fun x => decide (((2 ^ d.width - 1 : Nat) : Int) < (rne (x.rat / d.sIn.rat)).natAbs))

/-- The docks that compute, one list per ROW_TILE. -/
def MvmRun.rowGroups (r : MvmRun) : List (List MvmDock) :=
  let live := r.docks.filter (fun d => !d.stale)
  ((live.map (·.rowTile)).eraseDups).map (fun t => live.filter (fun d => d.rowTile == t))

/-- Clamped elements of a vector, one list per ROW_TILE: those that any of its docks clamps. -/
def MvmRun.clampedRows (r : MvmRun) (k : Task) (v : List Num) : List (List Bool) :=
  r.rowGroups.map (fun g => (g.map (fun d => d.clamps k v)).foldl (fun a b => if a = [] then b else (a.zip b).map (fun p => p.1 || p.2)) [])

/-- A vector that holds a NaN or an infinity where a dock reads. -/
def MvmRun.poisons (r : MvmRun) (k : Task) (v : List Num) : Bool :=
  r.docks.any (fun d => !d.stale && (rowsOf k d.rowTile d.rows v).any Num.bad)

/-- What the quantisation of the inputs counts (R219, R222). -/
def MvmRun.inStat (r : MvmRun) (k : Task) : ConvStat :=
  r.ins.foldl (fun (a : ConvStat) v =>
    let rows := r.rowGroups.map (fun g => match g with
      | d :: _ => (rowsOf k d.rowTile d.rows v, d.codes k v)
      | [] => ([], []))
    let xs := rows.flatMap (·.1)
    let a := { a with maxAbs := max a.maxAbs (maxFinite xs) }
    if r.poisons k v then { a with nonfinite := a.nonfinite + badCount xs }
    else
      let cl := r.clampedRows k v
      let nz := (xs.filter (fun x => !x.isZero)).length
      let ufl := ((rows.flatMap (fun p => p.1.zip p.2)).filter (fun p => !p.1.isZero && p.2 == 0)).length
      let full := (cl.flatMap (fun c => chunks 32 (c.length / 32 + 1) c)).filter (fun b => b.length == 32 && b.all id)
      { a with converted := a.converted + xs.length, saturated := a.saturated + (cl.flatten.filter id).length,
               nonzero := a.nonzero + nz, underflowed := a.underflowed + ufl, fullSat := a.fullSat + full.length }) {}

/-! ## DOCK_MVM starts (R131, R132, R137, R164) -/

/-- Work of a refit that holds a dock (R131, R156). -/
def Dock.held (x : Dock) : Bool := x.job.isSome || (match x.pass with | some p => p.closing | none => false)

/-- The run on a tile's docks. -/
def State.mvm (s : State) (t : Nat) : Option MvmRun := mget? s.mvms t

/-- A dock computes for a DOCK_MVM. -/
def State.dockComputes (s : State) (d : Nat) : Bool := match s.mvm (d / 8) with
  | some r => r.docks.any (fun m => m.dock == d && !m.stale)
  | none => false

/-- The code for which a dock refuses a DOCK_MVM of its layer, or 0. -/
def State.dockRefuses (s : State) (k : Task) (i d : Nat) : Nat :=
  let x := s.dock d
  if s.dockRetired d then 0x4002
  else if !x.programmed then 0x4001
  else if x.pass.isSome ∨ s.get 0x6201 (k.ctx + 1) < ((s.layer i).version + 2 ^ 30 - x.version) % 2 ^ 30 then 0x4104
  else 0

/-- A task must wait for its docks: one works on another task or closes a pass, calibrates where CAL_WAIT is 1, or its die
calibrates. In the interrupting mode CAL_WAIT is ignored and no output is stale (R132): there a task waits for a calibration
of its dock alone, such as a cold one of R166, whatever the field holds (DEDUCED, log 52). -/
def State.dockWaits (s : State) (k : Task) (d : Nat) : Bool :=
  (s.dock d).held || s.dieCalibrating (dockDie d) || ((k.calWait || s.interrupting) && s.calibrating d)

/-- A refusal that names a dock. -/
def State.refuseDock (s : State) (t : Nat) (k : Task) (code d : Nat) : State :=
  let (s, p) := s.struck t k
  s.refuseAs t p code 3 d (leBytes 2 k.layerId)

/-- The phases of a vector on a dock: the rows that each drives (R116). -/
def phasesOf (codes : List Int) : List (List Nat) :=
  let rows := (codes.zipIdx.filter (fun p => p.1 ≠ 0)).map (·.2)
  if rows = [] then [] else if rows.length ≤ 256 then [rows] else [rows.take 256, rows.drop 256]

/-- The next vector starts on every dock (R128); its clamps, its skips and its poison are counted. -/
def State.vectorBegin (s : State) (t : Nat) (k : Task) (r : MvmRun) : State :=
  let v := r.ins.getD r.done.length []
  let bad := r.poisons k v
  let docks := r.docks.map (fun d =>
    { d with phases := if d.stale || bad then [] else phasesOf (d.codes k v), flagged := [], phase := [], raw := [], err := [] })
  let skips := if bad then 0 else (docks.filter (fun d => !d.stale && decide (d.phases = []))).length
  let cl := if bad then 0 else ((r.clampedRows k v).flatten.filter id).length
  let s := ((s.count 0x6001 2 64 skips).count 0x6001 5 64 cl).count 0x6001 6 64 (if bad then 1 else 0)
  { s with mvms := mset s.mvms t { r with docks := docks, poisoned := bad, clamped := r.clamped || decide (0 < cl) } }

/-- The run is set up: inputs read, widths and scales taken for the whole task (R114, R218, R221). -/
def State.mvmStart (s : State) (t : Nat) (k : Task) (i : Nat) (l : LayerDef) : Except AccFault State :=
  let es := s.entries t k
  if !(s.inWork t k.ctx (mvmReads s t k) false && s.inWork t k.ctx (mvmWrites s t k (s.mvmFmt k)) true) then .error (.refuse 0x4004) else
  match s.readVectors t k (k.reach es).1 k.len0 with
  | .error e => .error e
  | .ok ((ins, bad), s) =>
    let w := mvmWrites s t k (s.mvmFmt k)
    let s := s.startedAs t k (mvmReads s t k ++ w) w
    let s := s.bookNum k { bs := bad, status := if bad = 0 then 0 else stBadScale }
    let a := maxFinite (ins.flatMap (fun v => es.flatMap (fun e => rowsOf k e.rowTile e.rowsUsed v)))
    let range := s.rangeFor i 0 a
    let docks := ((segsOf es).flatMap (·.docks)).map (fun e =>
      let b := s.dockWidth i l e
      ({ dock := e.dock, entry := 0, rowTile := e.rowTile, colTile := e.colTile, rows := e.rowsUsed, cols := e.colsUsed, width := b,
         sIn := .fin (f32Round (range / ((2 ^ b - 1 : Nat) : Rat))), stale := !s.interrupting && s.calibrating e.dock, phases := [], flagged := [], phase := [],
         raw := [], err := [], idle := false } : MvmDock))
    let s := s.setTask t { k with st := .running }
    .ok (s.vectorBegin t k ⟨k.id, ins, docks, [], false, 0, false, (s.mvmFmt k).code, s.startRange i⟩)

/-! ## Phases (R117 to R122) -/

/-- The corrected slice count of a physical output: FP32 (R119). -/
def sliceCount (x : Dock) (counts : List Nat) (p slice : Nat) : Calc Num := do
  let one (pol : Nat) : Calc Num := do
    let col := 4 * p + 2 * slice + pol
    let reg := x.trimReg col
    let gt : Rat := trimGain reg
    let diff ← toWide .fp32 (.fin ((counts.getD col 0 : Nat) - trimOff reg))
    fmul (.fin gt) diff
  fsub (← one 0) (← one 1)

/-- A number as a value; a difference of equal numbers is zero. -/
def ratNum (v : Rat) : Num := if v = 0 then .zero false else .fin v

/-- The raw result of an output for one phase at given gains (R122). -/
def phaseResult (x : Dock) (counts : List Nat) (p gHi gLo : Nat) : Calc Num := do
  let hi ← sliceCount x counts p 0
  let lo ← sliceCount x counts p 1
  let a ← fmul (.fin (16 * 256 / (gHi : Rat))) hi
  let b ← fmul (.fin (256 / (gLo : Rat))) lo
  fadd a b

def saturatedCount : Nat := 4095

/-- Slices of a physical output with a column that saturated. -/
def satSlices (counts : List Nat) (p : Nat) : List Nat :=
  (List.range 2).filter (fun sl => decide (saturatedCount ≤ counts.getD (4 * p + 2 * sl) 0 ∨ saturatedCount ≤ counts.getD (4 * p + 2 * sl + 1) 0))

/-- Peaks and saturations that the next calibration looks at (R165). -/
def Dock.observe (x : Dock) (counts : List Nat) : Dock :=
  let keys := List.range 1056
  let peak (i : Nat) : Nat := max (counts.getD (2 * i) 0) (counts.getD (2 * i + 1) 0)
  { x with ran := true,
           peak := keys.foldl (fun (m : AMap Nat) i => if mgetD m i 0 < peak i then mset m i (peak i) else m) x.peak,
           saturated := keys.foldl (fun (m : AMap Nat) i => if saturatedCount ≤ peak i then mset m i 1 else m) x.saturated }

/-- The phase of a dock is over: its results join those of the vector. -/
def MvmDock.phaseEnd (m : MvmDock) (ph : List Num) (err : List Rat) : MvmDock :=
  let sum := if m.raw = [] then ph else ((m.raw.zip ph).map (fun p => (fadd p.1 p.2).run {} |>.1))
  { m with phases := m.phases.drop 1, flagged := [], phase := [], raw := sum,
           err := if m.err = [] then err else (m.err.zip err).map (fun p => p.1 + p.2) }

def MvmRun.setDock (r : MvmRun) (m : MvmDock) : MvmRun := { r with docks := r.docks.map (fun x => if x.dock = m.dock then m else x) }

/-- The gain at which a slice of an output is read: its own, ×1 in the retry where the output is flagged (R119, R120). -/
def State.readGain (s : State) (m : MvmDock) (o slice : Nat) : Nat :=
  let x := s.dock m.dock
  if m.flagged.contains o then 1 else x.gain s.coldGain (x.phys o) slice

/-- A column saturates at gain ×1: the fault of R121. -/
def State.phaseFault (s : State) (counts : List Nat) (m : MvmDock) : Bool :=
  (List.range 512).any (fun o => (satSlices counts ((s.dock m.dock).phys o)).any (fun sl => s.readGain m o sl == 1))

/-- Outputs that the phase flags for its clip retry; in the retry there are none. -/
def State.phaseFlags (s : State) (counts : List Nat) (m : MvmDock) : List Nat :=
  if m.flagged ≠ [] then [] else (List.range 512).filter (fun o => satSlices counts ((s.dock m.dock).phys o) ≠ [])

/-- The dock after a phase or its retry: the results join those of the vector, or wait for the retry (R119 to R122, R139). -/
def State.phaseNext (s : State) (counts : List Nat) (m : MvmDock) : MvmDock :=
  let x := s.dock m.dock
  let outs := List.range m.cols
  let res := outs.map (fun o =>
    if m.flagged ≠ [] ∧ !m.flagged.contains o then m.phase.getD o (.zero false)
    else ((phaseResult x counts (x.phys o) (s.readGain m o 0) (s.readGain m o 1)).run {}).1)
  let err := outs.map (fun o => s.phaseError m.dock (x.phys o) * (4096 / (s.readGain m o 0 : Rat)))
  let sat := s.phaseFlags counts m
  if sat = [] then m.phaseEnd res err else { m with flagged := sat, phase := res }

/-- The junction limit in °C (R5, R30). -/
def junctionLimit : Nat := 95

/-- An output to which R139 gives its bound: the dock calibrated, within its endurance, below the junction limit (R139, R140). -/
def State.bounded (s : State) (d o : Nat) : Bool :=
  let x := s.dock d
  x.calTemp != 0xFF && decide (x.wear (x.phys o) ≤ 10000000) && decide (s.dieTemp (dockDie d) ≤ (junctionLimit : Nat))

/-- Counts that the converters can return for a phase: a column whose charge reaches the end of its ramp reads 4,095 (R118), and
the result of a dock's last phase keeps the bound of R139 to the exact product of what its cells hold. -/
def State.phasePossible (s : State) (counts : List Nat) (inputs : List Int) (m : MvmDock) : Bool :=
  let x := s.dock m.dock
  let drive := phaseInputs inputs (m.phases.headD [])
  let m' := s.phaseNext counts m
  let last := m'.phases = [] ∧ m'.flagged = []
  (List.range 512).all (fun o =>
    let p := x.phys o
    let cells := x.cells p
    ((List.range 4).all (fun i =>
      decide (columnCharge cells drive (i / 2) (i % 2) * s.readGain m o (i / 2) < saturatedCount * 256)
        || decide (saturatedCount ≤ counts.getD (4 * p + i) 0)))
    && (!decide last || !decide (o < m.cols) || !s.bounded m.dock o
        || decide (absR ((m'.raw.getD o (.zero false)).rat - (exactProduct cells inputs : Rat)) ≤ m'.err.getD o 0)))

/-- What every phase or retry that has run counts: PHASES, and the peaks that the next calibration looks at; a retry reads at
another gain and adds no peak (R145, R165). -/
def State.phaseCounted (s : State) (counts : List Nat) (m : MvmDock) : State :=
  let s := s.count 0x6001 1 64 1
  if m.flagged ≠ [] then s else s.setDock m.dock ((s.dock m.dock).observe counts)

/-- The phase's results are taken, or its clip retry starts (R120). -/
def State.phaseGood (s : State) (counts : List Nat) (r : MvmRun) (m : MvmDock) : State :=
  let t := m.dock / 8
  let m' := s.phaseNext counts m
  if m'.flagged = [] then { s with mvms := mset s.mvms t (r.setDock m') }
  else
    let s := (s.count 0x6001 3 64 1).setDock m.dock { s.dock m.dock with clips := (s.dock m.dock).clips + 1 }
    { s with mvms := mset s.mvms t { r.setDock m' with retries := r.retries + 1 } }

/-- DOCK_PHASE_DONE: the counts of the 2,112 physical columns (R118). Counts that no dock could return are no event and change
nothing (DESIGN CHOICE, log 8). A saturation at gain ×1 aborts the task (R121). -/
def execDockPhaseDone (d : DockId) (counts : List Nat) (s : State) : Host.Outcome State Fault Refusal :=
  let t := d.val / 8
  .next (match s.mvm t with
    | none => s
    | some r => match r.docks.find? (fun m => m.dock == d.val && !m.stale && decide (m.phases ≠ [])), s.findTask t r.task with
      | some m, some k =>
        let fault := s.phaseFault counts m
        if !fault && !s.phasePossible counts (m.codes k (r.ins.getD r.done.length [])) m then s
        else if fault then (s.phaseCounted counts m).stopTask t { k with written := mvmWrites s t k (fmtOf r.outFmt) } (.dataErr 0x4003 3 [d.val])
        else (s.phaseCounted counts m).phaseGood counts r m
      | _, _ => s)

/-! ## The end of a vector and of the task (R123, R128, R138) -/

/-- Raw results of a dock for the vector under way. -/
def State.rawOf (s : State) (m : MvmDock) : List Num :=
  if m.stale then (List.range m.cols).map (fun o => (s.dock m.dock).last.getD o (.zero false))
  else if m.raw = [] then List.replicate m.cols (.zero false) else m.raw

def State.vectorEnd (s : State) (t : Nat) (r : MvmRun) : State × MvmRun :=
  let v : MvmVec := ⟨r.docks.map (fun m => (s.rawOf m, if m.err = [] then List.replicate m.cols 0 else m.err)), r.poisoned⟩
  let s := if r.poisoned then s else r.docks.foldl (fun s m => if m.stale then s else s.setDock m.dock { s.dock m.dock with last := s.rawOf m }) s
  let r := { r with done := r.done ++ [v] }
  ({ s with mvms := mset s.mvms t r }, r)

/-- Steps 2 and 3 of R123 for one vector: per segment, the scaled results added in ascending ROW_TILE. -/
def State.mvmSum (s : State) (r : MvmRun) (segs : List Seg) (v : MvmVec) : Calc (List (List Num)) :=
  segs.mapM (fun g => (List.range g.cols).mapM (fun o => do
    if v.poisoned then return .nan canonicalNaN
    else
      let ds := (r.docks.zip v.docks).filter (fun p => p.1.colTile == g.tile)
      let terms ← ds.mapM (fun p => do
        let sc ← fmul p.1.sIn (numOfF16 (mgetD (s.dock p.1.dock).scale o 0))
        fmul (p.2.1.getD o (.zero false)) sc)
      match terms with
      | [] => return .zero false
      | a :: rest => rest.foldlM (fun x y => fadd x y) a))

/-- The biases of a segment: those of its dock with the lowest ROW_TILE. -/
def State.segBias (s : State) (g : Seg) : List Num :=
  (List.range g.cols).map (fun o => numOfF32 (mgetD (s.dock ((g.docks.map (·.dock)).headD 0)).bias o 0))

/-- What the tally would compare of a dock product (R228). -/
def State.mvmCap (s : State) (k : Task) (i : Nat) (r : MvmRun) (segs : List Seg) (zs : List (List (List Num))) (inSat : Bool) : Cap :=
  let maps : List Nat := match s.plan with
    | some p => (p.docks.filter (fun (d : DockMap) => d.layerIdx == i)).map (fun (d : DockMap) => d.dock)
    | none => []
  let outs := (zs.zip (r.ins.zip r.done)).flatMap (fun p => (p.1.zip segs).flatMap (fun q =>
    let g := q.2
    let bias := s.segBias g
    let ds := (r.docks.zip p.2.2.docks).filter (fun e => e.1.colTile == g.tile)
    let per := ds.map (fun e =>
      let xs := rowsOf k e.1.rowTile e.1.rows p.2.1
      let cs := e.1.codes k p.2.1
      (e.1, xs, cs.foldl (fun (a : Rat) (c : Int) => a + absR ((c : Rat) * e.1.sIn.rat)) 0,
       cs.any (fun c => c.natAbs == 2 ^ e.1.width - 1), e.2.2))
    q.1.zipIdx.map (fun z =>
      let terms := per.map (fun e =>
        let w := (numOfF16 (mgetD (s.dock e.1.dock).scale z.2 0)).rat
        ⟨maps.findIdx (fun d => d == e.1.dock), 512 * e.1.rowTile, e.2.1, e.2.2.1, e.1.sIn.rat, w,
         absR (e.1.sIn.rat * w) * e.2.2.2.2.getD z.2 0⟩)
      ⟨512 * g.tile + z.2, if k.partialSum then .zero false else bias.getD z.2 (.zero false), z.1, terms, per.any (fun e => e.2.2.2.1), p.2.2.poisoned⟩)))
  let behind := r.docks.any (fun m => !m.stale && decide ((s.dock m.dock).version ≠ (s.layer i).version))
  ⟨0, i, [], outs, inSat, behind⟩

/-- The task's last vector is done: everything it computes is written, its status and its counts follow. -/
def State.mvmFinish (s : State) (t : Nat) (k : Task) (i : Nat) (l : LayerDef) (r : MvmRun) : Except AccFault State :=
  let segs := segsOf (s.entries t k)
  let bias := segs.map s.segBias
  let ((ws, cout, zs), n) := s.calc (do
    let ys ← r.done.mapM (fun v => s.mvmSum r segs v)
    s.mvmOut k i l segs (fmtOf r.outFmt) r.outRange bias ys)
  let cin := r.inStat k
  let stale := (r.docks.filter (·.stale)).map (·.dock)
  let behind := r.docks.any (fun m => !m.stale && decide ((s.dock m.dock).version ≠ (s.layer i).version))
  let s := if s.sampleable k && stale.isEmpty && (!behind || (s.binding i).fit != 0) then
      s.setCap t k (s.mvmCap k i r segs zs r.clamped) else s
  match s.commit t k ws n [(0, cin), (1, cout)] 0 with
  | .error e => .error e
  | .ok (s, _) =>
    let status := min 255 r.retries + (if stale = [] then 0 else 2 ^ 8) + (if r.clamped then 2 ^ 9 else 0)
      + (if cout.saturated = 0 then 0 else 2 ^ 10) + (if r.done.any (·.poisoned) then 2 ^ 11 else 0)
    let s := s.noteVectors k (fmtOf r.outFmt)
    let s := if stale = [] then s else s.count 0x6001 4 64 1
    let s := stale.foldl (fun s d => s.logEv (s.ctxEv k.ctx 0x4005 note 3 d (leBytes 2 k.layerId))) s
    let s := { s with mvms := merase s.mvms t }
    let s := r.docks.foldl (fun s m => if m.stale then s else s.clipTrigger m.dock) s
    let w := mvmWrites s t k (fmtOf r.outFmt)
    let k := (s.findTask t k.id).getD k
    let s := s.setTask t (k.issues (s.tile t).freeEntries status w)
    .ok ((s.reissue t k w).regrant t)

/-- DOCK_VECTOR_DONE: every selected dock has finished the vector. -/
def execDockVectorDone (t : TileId) (s : State) : Host.Outcome State Fault Refusal :=
  .next (match s.mvm t.val with
    | none => s
    | some r => match s.findTask t.val r.task with
      | none => s
      | some k =>
        if r.docks.any (fun m => decide (m.phases ≠ [])) then s
        else
          let (s', r') := s.vectorEnd t.val r
          if r'.done.length < r'.ins.length then s'.vectorBegin t.val k r'
          else match s.layerOf k with
            | none => s
            | some (i, l) => match s'.mvmFinish t.val k i l r' with
              | .ok s => s
              | .error .wait => s
              | .error (.stall ls) => s.snoopHeld ls
              | .error f =>
                s'.stopTask t.val { k with written := mvmWrites s t.val k (fmtOf r.outFmt) } f)

/-! ## DOCK_MVM at WIDE (R217) -/

/-- The masters of a segment's docks as columns: for each output, the used rows of every dock in ascending ROW_TILE. -/
def State.segMasters (s : State) (t : Nat) (k : Task) (b : Binding) (g : Seg) : Except AccFault (List (List Num) × State) :=
  g.docks.foldl (fun (acc : Except AccFault (List (List Num) × State)) e =>
    match acc with
    | .error f => .error f
    | .ok (rows, s) =>
      match s.readMaster t k.ctx b (512 * e.rowTile) (512 * e.colTile) e.rowsUsed g.cols with
      | .error f => .error f
      | .ok (rs, s) => .ok (rows ++ rs, s)) (.ok ([], s))

def State.segBiasWide (s : State) (t : Nat) (k : Task) (b : Binding) (g : Seg) : Except AccFault (List Num × State) :=
  if b.bias = 0 ∨ k.partialSum then .ok (List.replicate g.cols (.zero false), s)
  else match s.readTensor t k.ctx (b.bias + 6 * 512 * g.tile) .m48 g.cols with
    | .error f => .error f
    | .ok ((xs, _), s) => .ok (xs, s)

/-- Masters and biases of every segment. -/
def State.segsWide (s : State) (t : Nat) (k : Task) (b : Binding) : List Seg → Except AccFault (List (List (List Num) × List Num) × State)
  | [] => .ok ([], s)
  | g :: r =>
    match s.segMasters t k b g with
    | .error f => .error f
    | .ok (m, s) =>
      match s.segBiasWide t k b g with
      | .error f => .error f
      | .ok (z, s) =>
        match s.segsWide t k b r with
        | .error f => .error f
        | .ok (ms, s) => .ok ((m, z) :: ms, s)

def State.mvmWide (s : State) (t : Nat) (k : Task) : Except AccFault (State × Nat) :=
  match s.layerOf k with
  | none => .error .wait
  | some (i, l) =>
    let b := s.binding i
    let es := s.entries t k
    let segs := segsOf es
    if !(s.inWork t k.ctx (mvmReads s t k) false && s.inWork t k.ctx (mvmWrites s t k (s.mvmFmt k)) true) then .error (.refuse 0x4004)
    else if b.master = 0 then .error (.refuse 0x7109) else
    match s.readVectors t k (k.reach es).1 k.len0 with
    | .error e => .error e
    | .ok ((ins, bad), s) =>
      match s.segsWide t k b segs with
      | .error e => .error e
      | .ok (ms, s) =>
        let narrow := (fmtOf k.fmtA).narrow
        let rowsIn (g : Seg) (v : List Num) : List Num := g.docks.flatMap (fun e => rowsOf k e.rowTile e.rowsUsed v)
        let ((ws, cout, prods), n) := s.calc (do
          flagBadScales bad
          let xs ← ins.mapM (fun v => v.mapM (fun x => if narrow then toWide .bf16 x else pure x))
          let ops ← (segs.zip ms).mapM (fun p => do
            let w ← p.2.1.mapM (fun r => r.mapM (toWide .bf16))
            let bias ← p.2.2.mapM (toWide .fp32)
            return (xs.map (rowsIn p.1), transpose p.1.cols w, bias))
          let accs ← ops.mapM (fun o => matmul (zeroMat o.1.length o.2.1.length) o.1 o.2.1)
          let ys := (List.range xs.length).map (fun v => accs.map (fun a => a.getD v []))
          let (ws, cout, _) ← s.mvmOut k i l segs (s.mvmFmt k) (s.startRange i) (ops.map (·.2.2)) ys
          return (ws, cout, (ops.zip accs).map (fun q => (q.1.1, q.1.2.1, q.2))))
        let s := prods.foldl (fun s p => s.countMacs (p.1.length * p.2.1.length * (p.2.1.headD []).length) (gatedMacs p.1 p.2.1)) s
        let s := if s.sampleable k then
            s.setCap t k ⟨2, i, prods.map (fun p =>
              ⟨p.1, p.2.1, [], 0, false, 0, 0, false, (zeroMat p.1.length p.2.1.length).flatten, p.2.2.flatten, []⟩), [], false, false⟩
          else s
        let reads := (es.map (fun e => (e.rowTile, e.rowsUsed))).eraseDups
        let xs := ins.flatMap (fun v => reads.flatMap (fun e => rowsOf k e.1 e.2 v))
        match s.commit t k ws n [(0, { nonfinite := badCount xs, maxAbs := maxFinite xs }), (1, cout)] 0 with
        | .error e => .error e
        | .ok (s, _) => .ok (s.noteVectors k (s.mvmFmt k), if xs.any Num.bad then 2 ^ 11 else 0)

/-- Vectors in a part of a DOCK_MVM at WIDE (R217). -/
def wideVectors : Nat := 32

/-- DOCK_MVM (R123, R217). DESIGN CHOICE (log 71): a task of a layer at WIDE takes its product off the docks (R134, R213), so it is
held to no check of a dock; R24 and R137 refuse a task on an unprogrammed dock and do not speak of that level. -/
def execDockMvm (t : TileId) (s : State) : Host.Outcome State Fault Refusal :=
  let n := t.val
  .next (match s.headOf n 0x01 with
    | none => s
    | some k => match s.layerOf k with
      | none => s
      | some (i, l) =>
        if (s.mvm n).isSome then s
        else if s.emulating then s.work.refuseDock n k 0x4007 (k.firstDock n)
        else if s.isWide k then s.runSplit n 0x01 (fun _ => true)
          ⟨fun s k => mvmReads s n k, fun s k => mvmWrites s n k (s.mvmFmt k), State.mvmWide⟩ (fun _ k => unitsFor wideVectors k.len0)
        else
          let ds := k.maskDocks n
          if ds.any (fun d => s.dockWaits k d) then s
          else match ds.find? (fun d => s.dockRefuses k i d != 0) with
            | some d => s.work.refuseDock n k (s.dockRefuses k i d) d
            | none => match s.work.mvmStart n k i l with
              | .ok s => s
              | .error f => s.work.stopTask n { k with written := mvmWrites s n k (s.mvmFmt k) } f)

end Sys2Proof.Machine
end

