-- ==== Sys2Proof/Machine/Refit.lean ====
section
/-! DEFINITION. Refit: SCAN, REFIT and READBACK of a dock, its passes and their completion, spares and wear (R147 to R163). -/

namespace Sys2Proof.Machine

/-! ## The fitted image (R147) -/

def imgFitted : Nat := 0
def imgTarget : Nat := 0x400
def imgBias : Nat := 0x800
def imgScan : Nat := 0x1000
def imgCodes : Nat := 0x2000

/-- 512 little-endian values. -/
def valuesOf (w : Nat) (bs : List Byte) : List Nat := (chunks w 513 bs).map ofLe

/-- The master weights of a row of the block; 0 beyond the rows and outputs in use (R149). -/
def State.masterRow (s : State) (t : Nat) (k : Task) (e : DockMap) (r : Nat) : Except AccFault (List Num × State) :=
  if e.rowsUsed ≤ r then .ok (List.replicate 512 (.zero false), s)
  else match s.readTensor t k.ctx (k.addrA + (r - k.firstRow) * k.masterStride) .m48 e.colsUsed with
    | .error f => .error f
    | .ok ((xs, _), s) => .ok (xs ++ List.replicate (512 - e.colsUsed) (.zero false), s)

def State.masterRows (s : State) (t : Nat) (k : Task) (e : DockMap) : List Nat → Except AccFault (List (List Num) × State)
  | [] => .ok ([], s)
  | r :: rest =>
    match s.masterRow t k e r with
    | .error f => .error f
    | .ok (x, s) => match s.masterRows t k e rest with
      | .error f => .error f
      | .ok (xs, s) => .ok (x :: xs, s)

/-- The codes of image rows. -/
def State.imageRows (s : State) (t : Nat) (k : Task) : List Nat → Except AccFault (List (List Int) × State)
  | [] => .ok ([], s)
  | r :: rest =>
    match s.readVa (some t) k.ctx (k.addrB + imgCodes + 1024 * r) 1024 with
    | .error f => .error f
    | .ok (bs, s) => match s.imageRows t k rest with
      | .error f => .error f
      | .ok (xs, s) => .ok ((valuesOf 2 bs).map (toSigned 16) :: xs, s)

def codeBytes (ws : List Int) : List Byte := ws.flatMap (fun w => leBytes 2 (ofSigned 16 w))

/-! ## The order of a pass (R154) -/

/-- The refusal of a SCAN or REFIT task, or 0. -/
def Dock.passOrder (x : Dock) (k : Task) : Nat :=
  let rows := k.refitRows
  match (if k.refitFirst then none else x.pass) with
  | none =>
    if !k.refitFirst then 0x4105
    else if k.refitMode = 1 then 0
    else if !x.programmed then 0x4105
    else if k.refitLast ∧ rows.length ≠ 512 then 0x4106 else 0
  | some p =>
    if k.refitMode = 1 then (if p.rows ≠ [] then 0x4105 else if rows.any (fun r => p.scanned.contains r) then 0x4106 else 0)
    else if (p.unprog ∧ p.scanned = []) ∨ (p.scanned ≠ [] ∧ p.scanned.length ≠ 512) then 0x4105
    else if rows.any (fun r => p.rows.contains r) then 0x4106
    else if k.refitLast ∧ p.rows.length + rows.length ≠ 512 then 0x4106
    else 0

def State.modPass (s : State) (d : Nat) (f : Pass → Pass) : State := s.setDock d { s.dock d with pass := (s.dock d).pass.map f }

/-! ## SCAN (R152) -/

/-- The larger of a recorded maximum and a master's magnitude; a NaN is not recorded. -/
def scanMax (m : Num) (x : Num) : Num :=
  match m, x with
  | m, .nan _ => m
  | .inf _, _ => .inf false
  | _, .inf _ => .inf false
  | m, x => if m.rat < absR x.rat then .fin (absR x.rat) else m

def State.scanRun (s : State) (t : Nat) (k : Task) (d : Nat) (e : DockMap) : Except AccFault (State × Nat) :=
  let fresh := match (s.dock d).pass with | some p => decide (p.scanned = []) | none => true
  match (if fresh then .ok (zeros 2048, s) else s.readVa (some t) k.ctx (k.addrB + imgScan) 2048) with
  | .error f => .error f
  | .ok (old, s) =>
    match s.masterRows t k e k.refitRows with
    | .error f => .error f
    | .ok (ms, s) =>
      let m0 := (valuesOf 4 old).map numOfF32
      let m := ms.foldl (fun acc row => (acc.zip row).map (fun p => scanMax p.1 p.2)) m0
      let (bs, _) := (Fmt.fp32.wideTensor m).run {}
      match s.writeBytes t k.ctx (k.addrB + imgScan) bs with
      | .error f => .error f
      | .ok s => .ok (s.modPass d (fun p => { p with scanned := p.scanned ++ k.refitRows, image := k.addrB }), 0)

/-! ## REFIT (R149 to R153) -/

/-- The smallest FP16 value at or above a positive number, saturating at 65,504. -/
def f16Up (v : Rat) : Nat :=
  if 65504 ≤ v then 0x7BFF
  else
    let u := if v < pow2 (-14) then pow2 (-24) else pow2 (ilogR v - 10)
    let q := (v / u).ceil.toNat
    if v < pow2 (-14) then q else ((ilogR v + 15).toNat - 1) * 1024 + q

/-- The target scale of an output from what SCAN saw (R152). -/
def scaleFor (x : Num) : Nat := match x with
  | .inf _ => 0x7BFF
  | y => f16Up (y.rat / 255)

def targetScale (unprog scanned : Bool) (low : Nat) (m : Num) (fitted : Nat) : Nat :=
  let live : Bool := match m with | .fin v => decide (0 < v) | .inf _ => true | _ => false
  if unprog then (if live then scaleFor m else 0x3C00)
  else if !scanned || !live then fitted
  else match m, numOfF16 fitted with
    | .fin v, .fin w => if 511 / 2 < v / w ∨ v / w < (low : Nat) then scaleFor m else fitted
    | .fin _, .inf _ => scaleFor m
    | .inf _, .inf _ => fitted
    | _, .nan _ => fitted
    | _, _ => scaleFor m

/-- The projection t = m / W_SCALE_TARGET and its code: IEEE 754 division without flushing (R149). -/
inductive Proj where
  | nan
  | clip (neg : Bool)
  | at (t : Rat)
  deriving DecidableEq, Repr

def project (m s : Num) : Proj :=
  match m, s with
  | .nan _, _ => .nan
  | _, .nan _ => .nan
  | .inf _, .inf _ => .nan
  | .inf a, s => .clip (a != s.neg)
  | _, .inf _ => .at 0
  | .zero _, .zero _ => .nan
  | m, .zero b => .clip (m.neg != b)
  | m, s => .at (m.rat / s.rat)

/-- The code that a position's cells take, and whether it was clamped (R149, R150). -/
def decideCode (p : Proj) (w : Int) (full : Bool) (theta : Rat) : Int × Bool :=
  match p with
  | .nan => (if full then 0 else w, false)
  | .clip neg => (if neg then -255 else 255, true)
  | .at t =>
    let q := clampInt (-255) 255 (rne t)
    (if full || (q != w && decide (theta ≤ absR (t - (w : Rat)))) then q else w, decide (511 / 2 < absR t))

/-- Cells whose level changes. -/
def pulses (a b : Int) : Nat := (((levelsOf a).zip (levelsOf b)).filter (fun p => p.1 ≠ p.2)).length

/-- What the programming of a row gives: the codes of its image row, which positions the rule rewrites, pulses, whether a code was
clamped and whether any position was under full programming, outputs that received a pulse. -/
structure RowOut where
  codes : List Int
  written : List Bool
  pulsed : Nat
  clipped : Bool
  full : Bool
  outs : List Nat
  deriving DecidableEq, Repr

/-- Program a row: of the positions that the rule rewrites, the cells not at their target level are pulsed; every other position
keeps its cells, whatever the image says of them (R148, R150). -/
def programRow (x : Dock) (r : Nat) (unprog : Bool) (target fitted : List Nat) (theta : Rat) (ms : List Num) (img : List Int) : RowOut :=
  let bad := x.suspect.contains r || img.any (fun w => decide (255 < w.natAbs))
  let one (o : Nat) : Int × Bool × Bool :=
    let full := unprog || bad || target.getD o 0 != fitted.getD o 0
    let d := decideCode (project (ms.getD o (.zero false)) (numOfF16 (target.getD o 0))) (img.getD o 0) full theta
    (d.1, d.2, full)
  let ds := (List.range 512).map one
  let written := (ds.zip (img ++ List.replicate 512 0)).map (fun p => p.1.2.2 || p.1.1 != p.2)
  let n (o : Nat) : Nat := if written.getD o false then pulses (x.code r (x.phys o)) (ds.getD o (0, false, false)).1 else 0
  ⟨ds.map (·.1), written, (List.range 512).foldl (fun a o => a + n o) 0, ds.any (·.2.1), ds.any (·.2.2), (List.range 512).filter (fun o => n o != 0)⟩

/-- The cells of a physical output take a code. -/
def Dock.setCode (x : Dock) (r p : Nat) (q : Int) : Dock :=
  { x with codes := if q = 0 then merase x.codes (r * 528 + p) else mset x.codes (r * 528 + p) q }

def Dock.setRow (x : Dock) (r : Nat) (o : RowOut) : Dock :=
  let y := (o.codes.zip o.written).zipIdx.foldl (fun (y : Dock) p => if p.1.2 then y.setCode r (x.phys p.2) p.1.1 else y) x
  { y with suspect := x.suspect.filter (fun y => y != r) }

/-- An output moves to the lowest-numbered unused spare, whose counts start at 0 (R160). -/
def Dock.engage (x : Dock) (o : Nat) : Dock :=
  let p := 512 + x.spares
  { x with column := mset x.column o p, spares := x.spares + 1,
           groups := (List.range 32).foldl (fun m g => mset m (32 * p + g) 0) x.groups }

def spareCount : Nat := 16

/-- Outputs that must move do so in order; whether each found a spare. -/
def State.moveOutputs (s : State) (d c layer code : Nat) : List Nat → State × Bool
  | [] => (s, true)
  | o :: r =>
    if spareCount ≤ (s.dock d).spares then (s, false)
    else
      let s := (s.setDock d ((s.dock d).engage o)).count 0x6200 6 32 1
      let s := s.modPass d (fun p => { p with engaged := if p.engaged.contains o then p.engaged else p.engaged ++ [o] })
      (s.logEv (s.ctxEv c code note 3 d (leBytes 2 layer ++ leBytes 2 o))).moveOutputs d c layer code r

def touchGroups (x : Dock) (r : Nat) (outs : List Nat) (m : AMap Nat) : AMap Nat :=
  outs.foldl (fun m o => mset m (32 * x.phys o + r / 16) 1) m

/-- The rows programmed one after another. -/
def State.programRows (s : State) (d : Nat) (outs : List (Nat × RowOut)) : State :=
  outs.foldl (fun s p =>
    let x := s.dock d
    let s := s.setDock d (x.setRow p.1 p.2)
    (s.modPass d (fun q => { q with touched := touchGroups x p.1 p.2.outs q.touched })).count 0x6200 5 64 p.2.pulsed) s

/-- Image rows are written once they have verified. -/
def State.writeRows (s : State) (t : Nat) (k : Task) : List (Nat × RowOut) → Except AccFault State
  | [] => .ok s
  | (r, o) :: rest =>
    match s.writeBytes t k.ctx (k.addrB + imgCodes + 1024 * r) (codeBytes o.codes) with
    | .error f => .error f
    | .ok s => s.writeRows t k rest

/-- The biases of BIAS_LOAD, as the periphery will hold them. -/
def State.refitBiases (s : State) (t : Nat) (k : Task) : Except AccFault (Option (List Nat) × State) :=
  if !k.biasLoad then .ok (none, s)
  else match s.readTensor t k.ctx k.addrD .m48 512 with
    | .error f => .error f
    | .ok ((xs, _), s) => .ok (some (xs.map (fun x => f32OfNum ((toWide .fp32 x).run {}).1)), s)

def State.refitRun (s : State) (t : Nat) (k : Task) (d : Nat) (e : DockMap) (failing : List Nat) : Except AccFault (State × Option Nat) :=
  match (s.dock d).pass with
  | none => .error .wait
  | some p =>
    match s.readVa (some t) k.ctx k.addrB 0x1800 with
    | .error f => .error f
    | .ok (head, s) =>
      match s.masterRows t k e k.refitRows with
      | .error f => .error f
      | .ok (ms, s) =>
        match s.imageRows t k k.refitRows with
        | .error f => .error f
        | .ok (imgs, s) =>
          match s.refitBiases t k with
          | .error f => .error f
          | .ok (biases, s) =>
            let fitted := valuesOf 2 (sub_ head imgFitted 0x400)
            let seen := (valuesOf 4 (sub_ head imgScan 0x800)).map numOfF32
            let target := if p.targeted then valuesOf 2 (sub_ head imgTarget 0x400)
              else (fitted.zip seen).map (fun q => targetScale p.unprog (p.scanned ≠ []) (s.get 0x6200 2) q.2 q.1)
            let x := s.dock d
            let theta : Rat := (s.get 0x6200 1 : Rat) / 16
            let outs := (k.refitRows.zip (ms.zip imgs)).map (fun q => (q.1, programRow x q.1 p.unprog target fitted theta q.2.1 q.2.2))
            match (if p.targeted then .ok s else s.writeBytes t k.ctx (k.addrB + imgTarget) (target.flatMap (leBytes 2))) with
            | .error f => .error f
            | .ok s =>
              match s.writeRows t k outs with
              | .error f => .error f
              | .ok s =>
                let applied := !p.targeted && (p.unprog || decide (target ≠ fitted))
                let s := s.modPass d (fun q => { q with targeted := true, changed := q.changed || applied, rows := q.rows ++ k.refitRows,
                                                        image := k.addrB, biases := biases.or q.biases, persist := q.persist || k.persistMeta })
                let s := s.programRows d outs
                let moved := failing.eraseDups.filter (fun o => outs.any (fun q => q.2.outs.contains o))
                match s.moveOutputs d k.ctx k.layerId 0x4101 moved with
                | (s, false) => .ok (s, none)
                | (s, true) =>
                  let clipped := outs.any (fun q => q.2.clipped)
                  let s := if clipped then s.logEv (s.ctxEv k.ctx 0x4109 note 3 d (leBytes 2 k.layerId)) else s
                  .ok (s, some ((outs.filter (fun q => q.2.pulsed ≠ 0)).length + (if outs.any (fun q => q.2.full) then 2 ^ 8 else 0)
                    + (if applied then 2 ^ 9 else 0) + (if clipped then 2 ^ 10 else 0) + (if moved = [] then 0 else 2 ^ 11)))

/-! ## READBACK (R158) -/

/-- The codes of the rows' cells, by logical output, go to the image. -/
def State.readbackRows (s : State) (t : Nat) (k : Task) (x : Dock) (outs : List Nat) : List Nat → Except AccFault State
  | [] => .ok s
  | r :: rest =>
    match s.writeBytes t k.ctx (k.addrB + imgCodes + 1024 * r) (codeBytes (outs.map (fun o => x.code r (x.phys o)))) with
    | .error f => .error f
    | .ok s => s.readbackRows t k x outs rest

def State.readbackRun (s : State) (t : Nat) (k : Task) (d : Nat) (metaBad : Bool) : Except AccFault (State × Nat) :=
  let x := s.dock d
  match s.readbackRows t k x (List.range 512) k.refitRows with
  | .error f => .error f
  | .ok s =>
    if k.firstRow ≠ 0 then .ok (s, 0)
    else if metaBad then
      .ok ((s.setDock d { x with programmed := false }).logEv (s.ctxEv k.ctx 0x410A warning 3 d (leBytes 2 k.layerId)), 0)
    else
      let sc := (List.range 512).flatMap (fun o => leBytes 2 (mgetD x.metaScale o 0))
      match s.writeBytes t k.ctx k.addrB (sc ++ sc ++ (List.range 512).flatMap (fun o => leBytes 4 (mgetD x.metaBias o 0))) with
      | .error f => .error f
      | .ok s => .ok (s, 0)

/-! ## DOCK_REFIT (R155, R158) -/

/-- The refusal of a DOCK_REFIT at run time, or 0. -/
def State.refitRefuses (s : State) (k : Task) (d : Nat) : Nat :=
  let x := s.dock d
  if s.dockRetired d then 0x4002
  else if k.refitMode = 2 then (if !x.programmed then 0x4001 else if x.pass.isSome then 0x4105 else 0)
  else x.passOrder k

/-- A task that its dock has taken goes on there; the tile takes its next task (R155). -/
def State.handDock (s : State) (t : Nat) (k : Task) (d status : Nat) (slots w : List (Nat × Nat)) : State :=
  let k := (s.findTask t k.id).getD k
  let s := s.setTask t { k.issues (s.tile t).freeEntries status w with st := .handed, slotsRead := slots }
  let s := s.setDock d { s.dock d with job := some (t, k.id, k.refitLast) }
  (s.reissue t k w).regrant t

def State.refitTask (s : State) (t mode : Nat) (run : State → Task → Nat → DockMap → Except AccFault (State × Option Nat)) : State :=
  match s.headOf t 0x02 with
  | none => s
  | some k =>
    let d := k.refitDock t
    if k.refitMode ≠ mode ∨ ((s.dock d).held || s.calibrating d || s.dieCalibrating (dockDie d)) = true then s
    else
      let code := s.refitRefuses k d
      if code ≠ 0 then s.work.refuseDock t k code d
      else match s.dockEntry k d with
        | none => s
        | some e =>
          let w := refitWrites s k
          let uses := refitReads s k ++ w
          match s.ferryRead t (s.placeOf (some t) k.ctx (refitReads s k) false) with
          | .error _ => s
          | .ok slots =>
            let s0 := (s.work.openPass k d).startedAs t k uses w
            match run s0 k d e with
            | .ok (s, some status) => s.handDock t k d status slots w
            | .ok (s, none) =>
              -- No spare is left: the dock retires and the pass is abandoned (R160).
              (((s.retireDock d).setDock d { s.dock d with pass := none })).stopTask t { k with written := w, uses := uses } (.job 0x4102 3 d (leBytes 2 k.layerId))
            | .error .wait => s
            | .error (.stall ls) => s.snoopHeld ls
            | .error f => s0.stopTask t { k with written := w, uses := uses } f

/-- REFIT; `failing` are the outputs with a cell that fails verify (R153). -/
def execDockRefit (t : TileId) (failing : List Nat) (s : State) : Host.Outcome State Fault Refusal :=
  .next (s.refitTask t.val 0 (fun s k d e => s.refitRun t.val k d e failing))

def execDockRefitScan (t : TileId) (s : State) : Host.Outcome State Fault Refusal :=
  .next (s.refitTask t.val 1 (fun s k d e => (s.scanRun t.val k d e).map (fun p => (p.1, some p.2))))

def execDockRefitReadback (t : TileId) (metaBad : Bool) (s : State) : Host.Outcome State Fault Refusal :=
  .next (s.refitTask t.val 2 (fun s k d _ => (s.readbackRun t.val k d metaBad).map (fun p => (p.1, some p.2))))

/-- DOCK_REFIT_DONE: the dock has finished the task, which ends; after a LAST task the completion work is due. -/
def execDockRefitDone (d : DockId) (s : State) : Host.Outcome State Fault Refusal :=
  .next (match (s.dock d.val).job with
    | none => s
    | some (t, id, last) =>
      let s := s.setDock d.val { s.dock d.val with job := none }
      let s := if last then s.modPass d.val (fun p => { p with closing := true }) else s
      match s.findTask t id with
      | some k => s.endTask t k
      | none => s)

/-! ## Completion of a pass (R156, R159 to R161) -/

/-- A read of the image by the completion work; lines that a host holds are taken. -/
def State.passRead (s : State) (d c va n : Nat) : Except AccFault (List Byte × State) :=
  match s.readVa (some (d / 8)) c va n with
  | .error (.stall ls) => (s.takeLines ls).readVa (some (d / 8)) c va n
  | r => r

/-- The spare columns of engaged outputs are filled from the image. A code beyond ±255 cannot be stored and is clamped (R112). -/
def State.spareFill (s : State) (d : Nat) (p : Pass) : List (Nat × Nat) → Except AccFault State
  | [] => .ok s
  | (o, r) :: rest =>
    match s.passRead d p.ctx (p.image + imgCodes + 1024 * r + 2 * o) 2 with
    | .error f => .error f
    | .ok (bs, s) =>
      let x := s.dock d
      let q := clampInt (-255) 255 (toSigned 16 (ofLe bs))
      let ph := x.phys o
      let n := pulses (x.code r ph) q
      let s := s.setDock d (x.setCode r ph q)
      let s := if n = 0 then s else
        (s.modPass d (fun p => { p with touched := mset p.touched (32 * ph + r / 16) 1 })).count 0x6200 5 64 n
      s.spareFill d p rest

def fillList (outs : List Nat) : List (Nat × Nat) := outs.flatMap (fun o => (List.range 512).map (fun r => (o, r)))

/-- Counts of the groups that received a program event rise. -/
def State.countGroups (s : State) (d : Nat) (touched : AMap Nat) : State :=
  let n := if 85 < s.dieTemp (dockDie d) then 2 else 1
  let x := s.dock d
  s.setDock d { x with groups := touched.foldl (fun m e => mset m e.1 (x.groupCount (e.1 / 32) (e.1 % 32) + n)) x.groups }

def wearLimit : Nat := 10000000

/-- The metadata rows take scales and biases, and the wear units of every column as its counts then stand (R156, R161). -/
def Dock.writeMeta (x : Dock) (scale bias : AMap Nat) : Dock :=
  { x with metaScale := scale, metaBias := bias, units := (List.range 528).map (fun p => (p, x.wear p / 16384)) }

/-- An output's count has advanced a unit beyond its persisted value. -/
def Dock.unitDue (x : Dock) : Bool := (List.range 512).any (fun o => decide (mgetD x.units (x.phys o) 0 < x.wear (x.phys o) / 16384))

def listMap (xs : List Nat) (m : AMap Nat) : AMap Nat := xs.zipIdx.foldl (fun m q => mset m q.2 q.1) m

/-- The biases that a pass leaves in the periphery. -/
def Dock.passBias (x : Dock) (p : Pass) : AMap Nat := match p.biases with
  | some bs => listMap bs x.bias
  | none => x.bias

/-- A scale changes: in the fitted image, or against what the dock's metadata rows hold; those of an unprogrammed dock hold
none (DEDUCED, log 51). -/
def Dock.scaleChanged (x : Dock) (p : Pass) (target : List Nat) : Bool :=
  p.changed || p.unprog || target.zipIdx.any (fun q => decide (mget? x.metaScale q.2 ≠ some q.1))

/-- How a step of the completion work ends: it goes on; an output found no spare; a fault, with the state it left. -/
inductive CloseEnd where
  | done (s : State)
  | spent (s : State)
  | fault (s : State) (f : AccFault)

/-- Step 1: the spare columns of outputs are filled; an output whose spare has a cell that the fill pulses and that fails verify
moves on to the next spare, which is filled in its turn (R153, R156, R160). -/
def State.fillSpares (s : State) (d : Nat) (p : Pass) : Nat → List Nat → List Nat → CloseEnd
  | 0, _, _ => .done s
  | n + 1, outs, failing =>
    let x := s.dock d
    match s.spareFill d p (fillList outs) with
    | .error f => .fault s f
    | .ok s =>
      let y := s.dock d
      let bad := outs.filter (fun o => failing.contains o && x.cells (x.phys o) != y.cells (y.phys o))
      if bad = [] then .done s
      else match s.moveOutputs d p.ctx p.layer 0x4101 bad with
        | (s, false) => .spent s
        | (s, true) => s.fillSpares d p n bad (bad.foldl List.erase failing)

/-- Step 2: the metadata rows are programmed where a scale changed, a spare was engaged, a wear unit advanced, or the pass carries
PERSIST_META. -/
def State.closeMeta (s : State) (d : Nat) (p : Pass) (target : List Nat) : State :=
  let x := s.dock d
  let engaged := match x.pass with | some q => q.engaged | none => []
  if x.scaleChanged p target || decide (engaged ≠ []) || x.unitDue || p.persist then
    s.setDock d (x.writeMeta (listMap target x.scale) (x.passBias p))
  else s

/-- Step 3: the fitted image takes scales and biases; the registers follow with step 4. -/
def State.closeImage (s : State) (d : Nat) (p : Pass) (target : List Byte) : Except AccFault State :=
  match s.writeNow (some (d / 8)) p.ctx (p.image + imgFitted) target with
  | .error f => .error f
  | .ok (_, s) => match p.biases with
    | none => .ok s
    | some b => match s.writeNow (some (d / 8)) p.ctx (p.image + imgBias) (b.flatMap (leBytes 4)) with
      | .error f => .error f
      | .ok (_, s) => .ok s

/-- Steps 3 and 4: the registers, the version, the counts. -/
def State.closeSteps (s : State) (d : Nat) (p : Pass) (target : List Nat) : State :=
  let x := s.dock d
  let s := s.setDock d { x with scale := listMap target x.scale, bias := x.passBias p, version := p.version, programmed := true }
  s.countGroups d (match (s.dock d).pass with | some q => q.touched | none => p.touched)

/-- Outputs at the wear limit move to spares at once, and steps 1 and 2 run again for them; their groups count this pass's events
(R156, R159, R160). -/
def State.wearMoves (s : State) (d : Nat) (p : Pass) (target failing : List Nat) : CloseEnd :=
  let x := s.dock d
  let worn := (List.range 512).filter (fun o => decide (wearLimit ≤ x.wear (x.phys o)))
  if worn = [] then .done s
  else match s.moveOutputs d p.ctx p.layer 0x4103 worn with
    | (s, false) => .spent s
    | (s, true) =>
      match (s.modPass d (fun q => { q with touched := [] })).fillSpares d p (spareCount + 1) worn failing with
      | .done s => .done ((s.closeMeta d p target).countGroups d (match (s.dock d).pass with | some q => q.touched | none => []))
      | r => r

/-- The completion work of R156, step by step. -/
def State.closeWork (s : State) (d : Nat) (p : Pass) (failing : List Nat) : CloseEnd :=
  match s.fillSpares d p (spareCount + 1) p.engaged failing with
  | .done s =>
    (match s.passRead d p.ctx (p.image + imgTarget) 0x400 with
     | .error f => .fault s f
     | .ok (bs, s) =>
       let target := valuesOf 2 bs
       match (s.closeMeta d p target).closeImage d p bs with
       | .error f => .fault s f
       | .ok s => (s.closeSteps d p target).wearMoves d p target (p.engaged.foldl List.erase failing))
  | r => r

/-- A fault of the completion work: the pass stays open, and every row is suspect. -/
def State.closeFault (s : State) (d : Nat) : State :=
  let x := s.dock d
  (s.setDock d { x with suspect := List.range 512 }).modPass d (fun p => { p with closing := false })

/-- What a fault of the completion work brings the context of the LAST task (R156, R340). -/
def State.closeStruck (s : State) (d : Nat) (p : Pass) (f : AccFault) : State :=
  match f with
  | .trans code va level w =>
    (s.closeFault d).transFault p.ctx code { va := va, level := level, write := w, tile := d / 8, opcode := 0x02, noTask := true }
  | .data _ code => (s.closeFault d).jobFault p.ctx 0x7008 3 d { tile := d / 8 } ([0, 0] ++ leBytes 2 code)
  | _ => s.closeFault d

/-- No spare is left: the dock retires and the pass is abandoned (R156, R160). -/
def State.closeSpent (s : State) (d : Nat) (p : Pass) : State :=
  let s := s.retireDock d
  (s.setDock d { s.dock d with pass := none }).jobFault p.ctx 0x4102 3 d {} (leBytes 2 p.layer)

def State.passClose (s : State) (d : Nat) (p : Pass) (failing : List Nat) (fault : Bool) : State :=
  if fault then s.closeStruck d p (.data 0 0x7001)
  else match s.closeWork d p failing with
    | .fault s f => s.closeStruck d p f
    | .spent s => s.closeSpent d p
    | .done s => (s.setDock d { s.dock d with pass := none, suspect := [] }).count 0x6200 4 64 1

/-- REFIT_PASS_CLOSE: the completion work comes out as `r` says (R153, R156, R160). -/
def execRefitPassClose (d : DockId) (r : CloseResult) (s : State) : Host.Outcome State Fault Refusal :=
  .next (match (s.dock d.val).pass with
    | some p => if p.closing ∧ (s.dock d.val).job.isNone then s.passClose d.val p r.failing r.fault else s
    | none => s)

/-! ## DOCK_FIT, DOCK_WEAR, MASTER_VERSIONS, DOCK_STATE (R144, R178) -/

def dockCount : Nat := 18432
def State.dockFit (s : State) : List Byte := (List.range dockCount).flatMap (fun d =>
  match mget? s.docks d with
  | none => zeros 4
  | some x => leBytes 4 ((if x.pass.isSome then 2 ^ 31 else 0) + (if x.suspect = [] then 0 else 2 ^ 30) + x.version % 2 ^ 30))
def State.dockWear (s : State) : List Byte := (List.range dockCount).flatMap (fun d => leBytes 4 (min (2 ^ 32 - 1) (s.dock d).maxWear))
def State.masterVersions (s : State) : List Byte := s.planLayers.zipIdx.flatMap (fun p => leBytes 4 (s.layer p.2).version)

/-- ⌊10 × log10(max(1, N / 10,000))⌋, at most 30. -/
def ageClass (n : Nat) : Nat := ((List.range 30).filter (fun i => decide (10 ^ (i + 1 + 40) ≤ n ^ 10))).length

def State.dockStateWord (s : State) (d : Nat) : Nat :=
  let x := s.dock d
  let st := if s.dockRetired d then 2 else if s.calibrating d ∨ s.dieCalibrating (dockDie d) = true then 3
    else if x.held then 4 else if s.dockComputes d then 5 else if x.programmed then 0 else 1
  st * 2 ^ 28 + x.calTemp * 2 ^ 16 + x.spares * 2 ^ 6 + ageClass x.maxWear
def State.dockStates (s : State) : List Byte := (List.range dockCount).flatMap (fun d => leBytes 4 (s.dockStateWord d))

end Sys2Proof.Machine
end

