-- ==== Sys2Proof/Machine/Calibrate.lean ====
section
/-! DEFINITION. Calibration of docks: DOCK_CAL, the queue of a tile, the die calibration of the interrupting mode, trims and the restore window (R131, R164 to R176). -/

namespace Sys2Proof.Machine

/-! ## DOCK_CAL (R171) -/

def Task.calDones (k : Task) : List (Nat × Nat) := if bit (k.w 6) 31 then [(bits (k.w 6) 47 32, k.ctx)] else []

/-- Every requested dock's calibration is queued, in ascending k. -/
def State.calTask (s : State) (t field : Nat) (kind : CalKind) : State :=
  match s.headOf t 0x03 with
  | none => s
  | some k =>
    if bits (k.w 6) 55 54 ≠ field ∨ (s.interrupting ∧ s.dieCalibrating (t / 144) = true) then s
    else match (k.maskDocks t).find? s.dockRetired with
      | some d => s.work.refuseDock t k 0x4002 d
      | none => s.runTask t 0x03 (fun _ => true) ⟨fun _ _ => [], fun _ _ => [], fun s _ k =>
          .ok ((k.maskDocks t).foldl (fun (s : State) (d : Nat) => s.queueCal d kind k.calDones) s, 0)⟩

def execDockCalNative (t : TileId) (s : State) : Host.Outcome State Fault Refusal := .next (s.calTask t.val 0 .native)
def execDockCalCold (t : TileId) (s : State) : Host.Outcome State Fault Refusal := .next (s.calTask t.val 1 .cold)
def execDockCalQuickVerify (t : TileId) (s : State) : Host.Outcome State Fault Refusal := .next (s.calTask t.val 2 .verify)

/-! ## What a calibration leaves (R165, R172) -/

/-- The gain that a slice takes at a native calibration. -/
def Dock.nextGain (x : Dock) (policy i : Nat) : Nat :=
  let g := mgetD x.gains i (x.baseGain policy)
  if (mget? x.saturated i).isSome then max 1 (g / 2)
  else if !x.ran then g
  else ([8, 4, 2].find? (fun h => decide (mgetD x.peak i 0 * h ≤ 3072 * g))).getD 1

/-- The measured trims of 2,112 columns, two values each. -/
def trimDraws : Nat := 4224

/-- A dock after a calibration; `hold`: a native one that keeps the gain settings of a restored block (R174). -/
def Dock.calibrated (x : Dock) (kind : CalKind) (hold : Bool) (coldGain draw temp : Nat) : Dock :=
  match kind with
  | .verify => x
  | .native => { x with gains := if hold then x.gains else (List.range 1056).map (fun i => (i, x.nextGain coldGain i)), trims := .measured draw, calTemp := temp, peak := [],
                        saturated := [], ran := false, clips := 0 }
  | .cold => { x with gains := [], cold := coldGain, trims := .measured draw, calTemp := temp, peak := [], saturated := [], ran := false,
                      clips := 0 }

/-- A calibration of a dock completes; it is its die's last (R168). -/
def State.calComplete (s : State) (d : Nat) (kind : CalKind) (restore : Option Nat) : State :=
  let s := s.count 0x6100 8 64 1
  let mark (s : State) (c : Nat) : State := { s with power := { s.power with dieCal := mset s.power.dieCal (dockDie d) c } }
  match kind with
  | .verify => match restore with
    | some c => mark (s.setDock d { s.dock d with calTemp := c }) c
    | none => s
  | _ =>
    let s := if kind = .cold then s.count 0x6100 9 32 1 else s
    let temp := s.dieDegrees (dockDie d)
    let x := (s.dock d).calibrated kind restore.isSome s.coldGain s.draws temp
    mark { s.setDock d x with draws := s.draws + trimDraws } temp

/-- Bollards of ended calibrations are raised, where their context still owns them. -/
def State.raiseDones (s : State) (dones : List (Nat × Nat)) : State :=
  dones.foldl (fun s b => if s.bollardOwner b.1 = some b.2 then s.raise b.1 1 false else s) s

/-- Start-up's calibrations are over (R175, R497). -/
def State.calSettled (s : State) : State :=
  if s.power.pst = .boot ∧ s.power.phase = .calibration ∧ s.cals = [] then { s with power := { s.power with phase := .defaults } } else s

/-- LAYER_ID of the layer that a dock holds, 0xFFFF if there is none (R146, R179). -/
def State.dockLayer (s : State) (d : Nat) : Nat :=
  match s.plan with
  | none => 0xFFFF
  | some p => match p.dockMap d with
    | none => 0xFFFF
    | some e => match p.layers[e.layerIdx]? with
      | some l => l.id
      | none => 0xFFFF

/-- A dock is retired by two failures; an open pass of it is abandoned, as in R160 (R170). -/
def State.calFault (s : State) (d : Nat) : State :=
  let layer := leBytes 2 (s.dockLayer d)
  let s := s.retireDock d
  let s := s.setDock d { s.dock d with pass := none }
  match s.tileCtx (d / 8) with
  | some c => s.jobFault c 0x4107 3 d {} layer
  | none => s.logHard { code := 0x4107, severity := Sys2Proof.Machine.jobFault, kind := 3, id := d, detail := layer }

/-- The running calibration of a dock ends. -/
def State.calEnd (s : State) (d : Nat) (r : CalReq) (pass : Bool) : State :=
  let t := d / 8
  let rest := (s.calQueue t).filter (fun x => x != r)
  let past (s : State) : State := ((s.setCalQueue t rest).raiseDones r.dones).calSettled.regrant t
  let again (x : CalReq) (s : State) : State := s.setCalQueue t (x :: rest)
  if pass then past (s.calComplete d r.kind r.restore)
  else if r.kind = .verify then
    let s := s.count 0x6100 10 32 1
    let s := if r.restore.isSome then s.logEv { code := 0x4108, severity := note, kind := 3, id := d, detail := leBytes 2 (s.dockLayer d) } else s
    again { r with kind := .cold, running := false, restore := none } s
  else if r.fails = 0 then again { r with fails := 1 } s
  else past (s.calFault d)

/-! ## The queue of a tile (R131, R167, R169) -/

/-- Cold calibrations of start-up wait until the die has settled for 500 ms, or for the cap. -/
def State.dieSettled (s : State) (die : Nat) : Bool :=
  s.power.settled || match mget? s.power.settle die with
    | some (since, _) => decide (since + 500000000 ≤ s.timer)
    | none => false

def State.calPower (s : State) : Bool :=
  s.operating || (s.power.pst == .boot && (s.power.phase == .restoreWindow || s.power.phase == .calibration))

/-- The calibration of a whole die runs. -/
def State.dieCalRuns (s : State) (die : Nat) : Bool := match mget? s.dieCals die with
  | some x => x.running
  | none => false

/-- The request at the head of a tile's queue can start: its dock has no task running. -/
def State.calReady (s : State) (r : CalReq) : Bool :=
  !r.running && s.calPower && !(s.dock r.dock).held && !s.dockComputes r.dock && !s.dieCalRuns (dockDie r.dock)
    && (r.kind != .cold || s.operating || s.dieSettled (dockDie r.dock))

/-- CALIBRATION_START: requests for docks that have been retired since are dropped. -/
def execCalibrationStart (t : TileId) (s : State) : Host.Outcome State Fault Refusal :=
  .next (
    match (s.calQueue t.val).filter (fun r => !s.dockRetired r.dock) with
    | r :: rest => if s.calReady r then s.setCalQueue t.val ({ r with running := true } :: rest) else s
    | [] => (s.setCalQueue t.val []).calSettled)

/-- CALIBRATION_DONE: `pass` tells whether the reference columns (R170), or the verify (R169), were in order. -/
def execCalibrationDone (d : DockId) (pass : Bool) (s : State) : Host.Outcome State Fault Refusal :=
  .next (match (s.calQueue (d.val / 8)).find? (fun r => r.running && r.dock == d.val) with
    | some r => s.calEnd d.val r pass
    | none => s)

/-! ## The interrupting mode (R168) -/

/-- No task and no calibration runs on a dock of a die. -/
def State.dieFree (s : State) (die : Nat) : Bool :=
  !(s.mvms.any (fun e => e.1 / 144 == die)) && !(s.docks.any (fun e => dockDie e.1 == die && e.2.held))
    && !(s.cals.any (fun e => e.1 / 144 == die && e.2.any (fun r => r.running)))

def execDieCalibration (die : DieId) (s : State) : Host.Outcome State Fault Refusal :=
  .next (match mget? s.dieCals die.val with
    | some x => if !x.running && s.dieFree die.val then { s with dieCals := mset s.dieCals die.val { x with running := true } } else s
    | none => s)

/-- The docks that a calibration of the die calibrates: in place, not retired; where it repeats, those that failed. -/
def State.dieDocks (s : State) (die : Nat) (x : DieCal) : List Nat :=
  (if x.repeats = [] then (List.range 1152).map (· + 1152 * die) else x.repeats).filter
    (fun d => !s.dockRetired d && s.tileState (d / 8) != 2)

/-- Docks whose reference columns were in order take their native calibration; the others are repeated at once, or retire where
they have failed before (R168, R170). -/
def State.dieComplete (s : State) (die : Nat) (x : DieCal) (failing : List Nat) : State :=
  let ds := s.dieDocks die x
  let bad := ds.filter failing.contains
  let s := (ds.filter (fun d => !failing.contains d)).foldl (fun s d => s.calComplete d .native none) s
  if bad = [] then ({ s with dieCals := merase s.dieCals die }).raiseDones x.dones
  else if x.repeats = [] then { s with dieCals := mset s.dieCals die { x with repeats := bad } }
  else (bad.foldl (fun (s : State) d => s.calFault d) { s with dieCals := merase s.dieCals die }).raiseDones x.dones

/-- DIE_CALIBRATION_DONE: the docks of `r` that fail have reference columns outside their factory window (R170). -/
def execDieCalibrationDone (r : DieResult) (s : State) : Host.Outcome State Fault Refusal :=
  .next (match mget? s.dieCals r.die.val with
    | some x => if x.running then s.dieComplete r.die.val x (r.failing.map (fun d => d.val)) else s
    | none => s)

/-! ## Docks without trims (R166, R175) -/

/-- Queue a cold calibration of every dock in place that is not retired, not calibrating, and passes a test. -/
def State.queueColds (s : State) (p : Dock → Bool) : State :=
  ((List.range dockCount).filter (fun d => s.tileState (d / 8) != 2 && !s.dockRetired d && !s.calibrating d && p (s.dock d))).foldl
    (fun s d => s.setCalQueue (d / 8) (s.calQueue (d / 8) ++ [⟨d, .cold, [], false, 0, none⟩])) s

/-- Step 5 of start-up without a restore, or after its window has closed. -/
def State.startColds (s : State) (p : Dock → Bool) : State :=
  let s := { s with power := { s.power with phase := .calibration } }
  (s.queueColds p).calSettled

/-- The restore window closes (R175, R500). -/
def State.closeRestore (s : State) : State :=
  let s := { s with power := { s.power with restoreOpen := false } }
  (s.windowsDown.sweepTransfers).startColds (fun x => x.trims == .none)

def execRestoreWindowTimeout (s : State) : Host.Outcome State Fault Refusal :=
  .next (if s.power.restoreOpen then s.closeRestore else s)

/-- SETTLE_CAP_TIMEOUT: 10 s after the compute-die regulators came up; it matters while a cold calibration of start-up waits. -/
def execSettleCapTimeout (s : State) : Host.Outcome State Fault Refusal :=
  .next (if s.power.pst = .boot ∧ !s.power.settled ∧ (s.power.phase = .selfTest ∨ s.power.phase = .restoreWindow ∨ s.power.phase = .calibration) then
      let waits := s.power.phase != .calibration || s.cals.any (fun e => e.2.any (fun r => r.kind == .cold && !r.running && !s.dieSettled (e.1 / 144)))
      let s := { s with power := { s.power with settled := true } }
      if waits then s.logEv (pkgEv 0x800D note) else s
    else s)

/-- A conversion of a die's centre diode restarts its settling where the value has moved by 0.5 °C (R169). -/
def State.noteSettle (s : State) (die : Nat) : State :=
  let v := s.dieTemp die
  let keep := match mget? s.power.settle die with
    | some (_, w) => decide (absR (v - w) < 1 / 2)
    | none => false
  if keep then s else { s with power := { s.power with settle := mset s.power.settle die (s.timer, v) } }

/-! ## Trim domains (R172 to R174) -/

def trimMagic : Nat := 0x4D495254
def serialBytes : List Byte := (Config.serial ++ zeros 12).take 12
/-- The stepping "B0" (R66). -/
def steppingBytes : List Byte := [0x42, 0x30]

def gainSel (g : Nat) : Nat := if g = 8 then 3 else if g = 4 then 2 else if g = 2 then 1 else 0
def gainOf (sel : Nat) : Nat := 2 ^ sel

/-- The register of a physical column, GAIN_SEL included. -/
def Dock.trimWord (x : Dock) (policy col : Nat) : Nat := x.trimReg col / 16 * 16 + gainSel (x.gain policy (col / 4) (col / 2 % 2)) * 4

/-- Physical tile index of a logical tile, from TILE_MAP. -/
def State.physTile (s : State) (t : Nat) : Nat :=
  let w := s.get (0x2100 + t / 144) (t % 144 + 1)
  bits w 15 12 * 15 + bits w 11 8

def trimHeader (die : Nat) : List Byte :=
  leBytes 4 trimMagic ++ leBytes 2 1 ++ leBytes 1 die ++ [0] ++ serialBytes ++ steppingBytes ++ zeros 42

def State.trimBlock (s : State) (d : Nat) : List Byte :=
  let x := s.dock d
  leBytes 4 d ++ leBytes 1 x.calTemp ++ leBytes 1 (if x.calTemp = 0xFF ∨ s.dockRetired d then 0 else 1) ++ zeros 2
    ++ leBytes 2 (s.physTile (d / 8)) ++ zeros 6 ++ (List.range 2112).flatMap (fun c => leBytes 4 (x.trimWord s.coldGain c))

def trimBlockBytes : Nat := 8464

def State.trimDomain (s : State) (die : Nat) : List Byte :=
  trimHeader die ++ (List.range 1152).flatMap (fun i => s.trimBlock (1152 * die + i))

def trimWordsOf (b : List Byte) : List Nat := (chunks 4 2112 (b.drop 16)).map ofLe

/-- Two columns of every slice select the same gain. -/
def pairsOk (ws : List Nat) : Bool := (chunks 2 1056 ws).all (fun p => bits (p.getD 0 0) 3 2 == bits (p.getD 1 0) 3 2)

/-- A block's fields; the registers of a block that is not valid are not looked at. -/
def trimBlockOk (d : Nat) (b : List Byte) : Bool :=
  decide (field b 0 4 = d ∧ field b 5 1 < 2) && isZero (sub_ b 6 2) && isZero (sub_ b 10 6)
    && (field b 5 1 == 0 || ((trimWordsOf b).all (fun w => decide (16384 ≤ bits w 31 16 ∧ bits w 31 16 ≤ 49151 ∧ bits w 1 0 = 0)) && pairsOk (trimWordsOf b)))

def trimBlocks (bs : List Byte) : List (List Byte) := chunks trimBlockBytes 1152 (bs.drop 64)

def trimsOk (die : Nat) (bs : List Byte) : Bool :=
  decide (bs.length = 64 + 1152 * trimBlockBytes) && bs.take 64 == trimHeader die
    && (trimBlocks bs).zipIdx.all (fun p => trimBlockOk (1152 * die + p.2) p.1)

/-- One block of a download: restored trims and gains, then a verify, or a native calibration that keeps the restored gains (R174).
It speaks of the dock, so in the interrupting mode too it is the dock's own (DEDUCED, log 52). -/
def State.applyBlock (s : State) (d : Nat) (b : List Byte) : State :=
  if field b 5 1 = 0 ∨ s.dockRetired d ∨ s.tileState (d / 8) = 2 then s
  else if field b 8 2 ≠ s.physTile (d / 8) then s.queueDock d .cold [] none
  else
    let ws := trimWordsOf b
    let temp := field b 4 1
    let x := s.dock d
    let s := s.setDock d { x with trims := .restored ws, gains := (List.range 1056).map (fun i => (i, gainOf (bits (ws.getD (2 * i) 0) 3 2))),
                                  peak := [], saturated := [], ran := false }
    if absR (s.dieTemp (dockDie d) - (temp : Rat)) ≤ f32ToRat (s.get 0x6100 2) then s.queueDock d .verify [] (some temp)
    else s.queueDock d .native [] (some temp)

/-- A trim domain is downloaded; the window closes once all 16 are. -/
def State.applyTrims (s : State) (die : Nat) (bs : List Byte) : State :=
  let s := (trimBlocks bs).zipIdx.foldl (fun s p => s.applyBlock (1152 * die + p.2) p.1) s
  if !s.power.restoreOpen then s
  else
    let ds := if s.power.restoredDies.contains die then s.power.restoredDies else die :: s.power.restoredDies
    let s := { s with power := { s.power with restoredDies := ds } }
    if ds.length = 16 then s.closeRestore else s

end Sys2Proof.Machine
end

