-- ==== Sys2Proof/Machine/Mgmt.lean ====
section
/-! DEFINITION. The management port, the SPDM responder and boundary scan (R518 to R520, R526 to R528). -/

namespace Sys2Proof.Machine

/-! ## 10BASE-T1S (R518, R519) -/

def execDadComplete (duplicate : Bool) (s : State) : Host.Outcome State Fault Refusal :=
  .next (if s.mgmt.running ∧ s.get 0x1400 7 = 0 then s.put 0x1400 7 (if duplicate then 2 else 1) else s)

/-- The link-local address formed from MAC_ADDRESS by the modified EUI-64 rule (R55). -/
def State.ownAddr (s : State) : Nat :=
  let m := s.get 0x1018 6
  let eui := ((bits m 47 24) ^^^ 0x020000) * 2 ^ 40 + 0xFFFE * 2 ^ 24 + bits m 23 0
  0xFE80 * 2 ^ 112 + eui

/-- A frame that this node takes is counted (0x1400:08). -/
def State.rx (s : State) : State := s.count 0x1400 8 64 1
/-- A frame that this node sends is counted (0x1400:09); a node without a beacon sends nothing (R518). -/
def State.tx (s : State) (o : Output) : State :=
  if s.get 0x1400 6 = 2 then s else (s.count 0x1400 9 64 1).emit o

/-- Neighbour solicitations for its own address are answered, also while the address is duplicate (R519). -/
def execNeighbourSolicitation (srcAddr target : Nat) (s : State) : Host.Outcome State Fault Refusal :=
  .next (if !s.mgmt.running ∨ target ≠ s.ownAddr ∨ s.get 0x1400 7 = 0 then s else s.rx.tx (.neighbourAdv srcAddr target))

def execEchoRequest (srcAddr : Nat) (data : List Byte) (s : State) : Host.Outcome State Fault Refusal :=
  .next (if !s.mgmt.running ∨ s.get 0x1400 7 ≠ 1 then s else s.rx.tx (.echoReply srcAddr data))

/-- A node that follows a coordinator's beacon. -/
def State.follower (s : State) : Bool := decide (1 ≤ s.get 0x1400 1 ∧ s.get 0x1400 1 ≤ 254)

def execPlcaBeaconTimeout (s : State) : Host.Outcome State Fault Refusal :=
  .next (if s.mgmt.running ∧ s.follower then ({ s with mgmt := { s.mgmt with beacon := false } }).put 0x1400 6 2 else s)

def execPlcaBeacon (s : State) : Host.Outcome State Fault Refusal :=
  .next (if s.mgmt.running ∧ s.follower then ({ s with mgmt := { s.mgmt with beacon := true } }).put 0x1400 6 1 else s)

/-! ## SPDM (R526 to R528) -/

def State.spdmConn (s : State) : SpdmPath → SpdmConn
  | .doe p => if p.val = 0 then s.spdmHl0 else s.spdmHl1
  | .odp => s.spdmOdp

def State.setSpdm (s : State) (path : SpdmPath) (c : SpdmConn) : State :=
  match path with
  | .doe p => if p.val = 0 then { s with spdmHl0 := c } else { s with spdmHl1 := c }
  | .odp => { s with spdmOdp := c }

/-- The responder runs in every state but OFF; a DOE instance needs its link, and a device whose firmware is invalid serves
only the recovery objects (R527, R523). -/
def State.spdmUp (s : State) : SpdmPath → Bool
  | .doe p => s.power.pst != .off && s.linkUp p.val
  | .odp => s.power.pst != .off && !s.fw.bothFailed

/-- A response leaves on the path of its request; the ODP path's is also 0xC101 SPDM_RESPONSE (R530). -/
def State.spdmSend (s : State) (path : SpdmPath) (msg : List Byte) : State :=
  let s := s.emit (.spdm path msg)
  match path with
  | .odp => { s with blobs := mset s.blobs (key 0xC101 0) msg }
  | _ => s

/-- The slot 0 chain (R526). -/
def State.certChain (s : State) : List Byte :=
  let x := s.fw.slot s.fw.running
  Config.rootCert ++ Config.intermediateCert ++ Config.identityCert ++ Config.aliasCert x.lhDigest x.svn

/-- Message codes and the ERROR codes of SPDM 1.3 are PRESUMED from the standard (log 15). -/
def spdmError (code : Nat) (data : Nat) : List Byte := [0x13, 0x7F, BitVec.ofNat 8 code, BitVec.ofNat 8 data]

/-- A malformed or unsupported request: ERROR, logged as 0x9004 (R532). -/
def State.spdmReject (s : State) (path : SpdmPath) (code data : Nat) : State :=
  (s.spdmSend path (spdmError code data)).logEv (pkgEv 0x9004 note)

/-- A request that arrives before the negotiation it needs is answered with ERROR UnexpectedRequest. -/
def State.spdmStep (s : State) (path : SpdmPath) (ready : Bool) (f : State → State) : State :=
  if !s.spdmUp path then s else if ready then f s else s.spdmReject path 0x04 0

/-- The measurement block of an index (R528), a SHA-384 digest. -/
def State.measurement (s : State) (i : Nat) : List Byte :=
  let x := s.fw.slot s.fw.running
  if i = 1 then Config.romDigest
  else if i = 2 then x.lhDigest
  else if i = 3 then (if s.fw.hmVerified then x.hmDigest else zeros 48)
  else if i = 4 then sha384 (leBytes 2 x.svn ++ leBytes 1 s.arb ++ Config.fusedConfig)
  else if i = 5 then sha384 (leBytes 1 (if s.dbg.on then 1 else 0) ++ s.dbg.tokenHash)
  else match s.plan with
    | some p => p.digest
    | none => zeros 48

/-- A signature by the alias key over the transcript: the key is the device's own (log 11). -/
def State.spdmSign (s : State) (msg : List Byte) : List Byte × State :=
  (Config.aliasSignature s.draws msg, { s with draws := s.draws + 1 })

def execSpdmGetVersion (path : SpdmPath) (s : State) : Host.Outcome State Fault Refusal :=
  .next (s.spdmStep path true (fun s =>
    (s.setSpdm path ⟨true, false, false, []⟩).spdmSend path [0x10, 0x04, 0, 0, 0, 1, 0x00, 0x13]))

def execSpdmGetCapabilities (path : SpdmPath) (s : State) : Host.Outcome State Fault Refusal :=
  .next (s.spdmStep path (s.spdmConn path).version (fun s =>
    (s.setSpdm path { s.spdmConn path with capabilities := true }).spdmSend path
      ([0x13, 0x61, 0, 0, 0, 0, 0, 0] ++ leBytes 4 0x16)))

/-- ALGORITHMS: SHA-384 as the base hash and one extended asymmetric algorithm, TPM_ECC_BP_P384_R1 (0x0031) of the TCG registry (R527;
the message's layout is the SPDM standard's, log 15). -/
def spdmAlgorithms : List Byte :=
  [0x13, 0x63, 0, 0] ++ leBytes 2 40 ++ [1, 0] ++ leBytes 4 4 ++ leBytes 4 0 ++ leBytes 4 2 ++ zeros 12 ++ [1, 0, 0, 0] ++ [1, 0] ++ leBytes 2 0x31

/-- A requester that does not offer SHA-384 with brainpoolP384r1 gets an ERROR (R527). -/
def execSpdmNegotiateAlgorithms (path : SpdmPath) (offersP384 offersSha384 : Bool) (s : State) :
    Host.Outcome State Fault Refusal :=
  .next (s.spdmStep path (s.spdmConn path).capabilities (fun s =>
    if offersP384 && offersSha384 then
      (s.setSpdm path { s.spdmConn path with algorithms := true }).spdmSend path
        spdmAlgorithms
    else s.spdmReject path 0x01 0))

def execSpdmGetDigests (path : SpdmPath) (s : State) : Host.Outcome State Fault Refusal :=
  .next (s.spdmStep path (s.spdmConn path).algorithms (fun s =>
    s.spdmSend path ([0x13, 0x01, 0, 1] ++ sha384 s.certChain)))

/-- A portion of the slot 0 chain and the length that remains; another slot or an offset beyond the chain is refused. -/
def execSpdmGetCertificate (path : SpdmPath) (slot offset length : Nat) (s : State) : Host.Outcome State Fault Refusal :=
  .next (s.spdmStep path (s.spdmConn path).algorithms (fun s =>
    let c := s.certChain
    if slot ≠ 0 ∨ c.length ≤ offset then s.spdmReject path 0x01 0
    else
      let part := (c.drop offset).take length
      s.spdmSend path ([0x13, 0x02, 0, 0] ++ leBytes 2 part.length ++ leBytes 2 (c.length - offset - part.length) ++ part)))

/-- CHALLENGE_AUTH: the chain's digest, a nonce, and a signature by the alias key (R527). -/
def execSpdmChallenge (path : SpdmPath) (slot : Nat) (nonce : List Byte) (s : State) : Host.Outcome State Fault Refusal :=
  .next (s.spdmStep path (s.spdmConn path).algorithms (fun s =>
    if slot ≠ 0 then s.spdmReject path 0x01 0
    else
      let (n, s) := s.draw
      let body := [0x13, 0x03, 0, 1] ++ sha384 s.certChain ++ leBytes 32 n
      let (sig, s) := s.spdmSign (nonce ++ body)
      s.spdmSend path (body ++ sig)))

/-- MEASUREMENTS: all six blocks for index 0xFF, else the one asked for; signed when asked (R528). -/
def execSpdmGetMeasurements (path : SpdmPath) (index : Nat) (signed : Bool) (nonce : List Byte) (s : State) :
    Host.Outcome State Fault Refusal :=
  .next (s.spdmStep path (s.spdmConn path).algorithms (fun s =>
    if index = 0 then s.spdmSend path [0x13, 0x60, 6, 0]
    else if index = 0xFF ∨ (1 ≤ index ∧ index ≤ 6) then
      let is := if index = 0xFF then [1, 2, 3, 4, 5, 6] else [index]
      let body := [0x13, 0x60, 0, 0, BitVec.ofNat 8 is.length]
        ++ is.flatMap (fun i => [BitVec.ofNat 8 i, 1] ++ leBytes 2 48 ++ s.measurement i)
      if signed then
        let (sig, s) := s.spdmSign (nonce ++ body)
        s.spdmSend path (body ++ sig)
      else s.spdmSend path body
    else s.spdmReject path 0x01 0))

def execSpdmUnsupported (path : SpdmPath) (request : Nat) (malformed : Bool) (s : State) : Host.Outcome State Fault Refusal :=
  .next (s.spdmStep path true (fun s =>
    if malformed then s.spdmReject path 0x01 0 else s.spdmReject path 0x07 request))

/-! ## Boundary scan (R520) -/

def State.tapSet (s : State) (i : TapInstr) : State := { s with tap := { s.tap with ir := i } }

def execTestReset (s : State) : Host.Outcome State Fault Refusal := .next (s.tapSet .idcode)

/-- The instruction in effect: EXTEST, HIGHZ and CLAMP act in AUX only, a private opcode only while debug access is enabled
(R520, R529). The instruction register holds what was loaded. -/
def State.tapActs (s : State) : TapInstr :=
  match s.tap.ir with
  | .extest => if s.power.pst = .aux then .extest else .bypass
  | .highz => if s.power.pst = .aux then .highz else .bypass
  | .clamp => if s.power.pst = .aux then .clamp else .bypass
  | .priv op => if s.dbg.on then .priv op else .bypass
  | i => i

/-- EXTEST drives the boundary register, in AUX only. -/
def execExtest (bits : Nat) (s : State) : Host.Outcome State Fault Refusal :=
  .next { s with tap := ⟨.extest, if s.power.pst = .aux then bits else s.tap.boundary⟩ }

/-- IDCODE: version 0x1, part 0xD236, Harzan's JEDEC identity, and 1. -/
def idcodeWord : Nat := 1 * 2 ^ 28 + 0xD236 * 2 ^ 12 + (Config.jedecId % 2 ^ 11) * 2 + 1

def execIdcode (s : State) : Host.Outcome State Fault Refusal := .next (s.tapSet .idcode)

/-- SAMPLE/PRELOAD loads the boundary register, in any state. -/
def execSamplePreload (bits : Nat) (s : State) : Host.Outcome State Fault Refusal :=
  .next { s with tap := ⟨.sample, bits⟩ }

def execHighz (s : State) : Host.Outcome State Fault Refusal :=
  .next (s.tapSet .highz)

def execClamp (s : State) : Host.Outcome State Fault Refusal :=
  .next (s.tapSet .clamp)

def execBypass (s : State) : Host.Outcome State Fault Refusal := .next (s.tapSet .bypass)

/-- A private opcode is loaded; it acts only while debug access is enabled (`State.tapActs`). -/
def execPrivateInstruction (opcode : Nat) (s : State) : Host.Outcome State Fault Refusal :=
  .next (s.tapSet (.priv opcode))

end Sys2Proof.Machine
end

