-- ==== Sys2Proof/Machine/Platform.lean ====
section
/-! DEFINITION. The platform at work: self-test, the last steps of start-up, NAP, IDLE and SHUTDOWN, the power loop, conversions, the store, the flash log and POSITION (R61 to R64, R69, R73, R74, R108 to R110, R459 to R462, R481 to R490, R497). -/

namespace Sys2Proof.Machine

/-! ## Self-test and substitution (R27, R28, R108 to R110) -/

/-- A die as a pass goes through it: what each spare carries, TILE_STATE and physical tile of each logical tile it has changed, the
tiles substituted and made absent by this pass, and whether the pass found anything new. -/
structure DiePass where
  spares : List Nat
  moved : List (Nat × Nat)
  absent : List Nat
  fresh : Bool
  deriving DecidableEq, Repr

/-- SUBSTITUTION_MAP as 16 × 6 numbers; none saved reads as every spare free. -/
def mapNumbers (b : List Byte) : List Nat := if b.length = 96 then b.map BitVec.toNat else List.replicate 96 0xFF

/-- The map a pass starts from. -/
def State.subMap (s : State) : List Nat := mapNumbers (mgetD s.blobs (key 0x2500 4) [])

/-- The word of TILE_MAP. -/
def tileWord (st p : Nat) : Nat := st * 2 ^ 20 + (if st = 2 then 0xFF00 else p / 15 * 4096 + p % 15 * 256)

/-- One logical tile of a pass. `st` is its TILE_STATE before the pass; physical tiles fail by their index on the die. -/
def passTile (failed : List Nat) (st l : Nat) (x : DiePass) : DiePass :=
  let here := x.spares.findIdx? (fun v => v == l)
  let phys := match here with | some j => 144 + j | none => l
  if st = 2 ∨ (st ≠ 3 ∧ !failed.contains phys) then x
  else
    let spares := match here with | some j => x.spares.set j 0xFE | none => x.spares
    match (spares.zipIdx.find? (fun p => p.1 == 0xFF && !failed.contains (144 + p.2))) with
    | some (_, j) => { x with spares := spares.set j l, moved := x.moved ++ [(l, j)], fresh := true }
    | none => { x with spares := spares, absent := x.absent ++ [l], fresh := true }

/-- A failed spare that is not in use leaves the pool. -/
def dropSpares (failed : List Nat) (x : DiePass) : DiePass :=
  let gone := (x.spares.zipIdx.filter (fun p => p.1 == 0xFF && failed.contains (144 + p.2))).map (fun p => p.2)
  { x with spares := gone.foldl (fun m j => m.set j 0xFE) x.spares, fresh := x.fresh || gone != [] }

def State.diePass (s : State) (failed : List Nat) (die : Nat) : DiePass :=
  let mine := (failed.filter (fun p => decide (p / 150 = die))).map (fun p => p % 150)
  let x := iter 144 (fun l x => passTile mine (s.tileState (144 * die + l)) l x) ⟨(s.subMap.drop (6 * die)).take 6, [], [], false⟩
  dropSpares mine x

/-- Eight fresh docks come with a spare; none of them is retired (R24, R110). -/
def State.freshDocks (s : State) (t : Nat) : State :=
  iter 8 (fun k s => { s with docks := merase s.docks (8 * t + k), retiredDocks := merase s.retiredDocks (8 * t + k) }) s

def State.placeWord (s : State) (die l st p : Nat) : State := s.put (0x2100 + die) (l + 1) (tileWord st p)

/-- What a pass found on a die takes effect. -/
def State.applyDie (s : State) (die : Nat) (x : DiePass) : State :=
  let s := iter 144 (fun l s =>
    if s.tileState (144 * die + l) = 2 then s
    else match x.spares.findIdx? (fun v => v == l) with
      | some j => s.placeWord die l 1 (144 + j)
      | none => s.placeWord die l 0 l) s
  let s := x.moved.foldl (fun s m => ((s.freshDocks (144 * die + m.1)).logEv { code := 0x700B, severity := note, kind := 2, id := 144 * die + m.1 })) s
  x.absent.foldl (fun s l => (s.placeWord die l 2 0).logEv { code := 0x700C, severity := warning, kind := 2, id := 144 * die + l }) s

/-- The device's own record of an object (R64). -/
def State.keepRec (s : State) (idx sub : Nat) : State :=
  { s with store := { s.store with devRec := mset s.store.devRec (key idx sub) (s.get idx sub) } }

/-- The numbers of the pass: the map, substitutions, tiles present, spares left, docks retired. -/
def State.passBooks (s : State) (xs : List DiePass) (failed : Nat) : State :=
  let m := (xs.flatMap (fun x => x.spares)).map (fun v => BitVec.ofNat 8 v)
  let store := { s.store with devBlob := mset s.store.devBlob (key 0x2500 4) m, mapGood := true }
  let s := { s with blobs := mset s.blobs (key 0x2500 4) m, store := store }
  let s := (s.count 0x2500 5 32 (xs.foldl (fun n x => n + x.moved.length) 0)).keepRec 0x2500 5
  let s := (s.put 0x2500 3 failed).put 0x2500 2 (if xs.any (fun x => x.fresh) then 3 else 2)
  let s := s.put 0x2000 3 ((List.range 2304).filter (fun t => s.tileState t ≠ 2)).length
  let s := s.put 0x2000 4 (xs.zipIdx.foldl (fun n p => n + (p.1.spares.filter (fun v => v == 0xFF)).length * 16 ^ p.2) 0)
  (s.put 0x2000 5 (min 65535 s.retiredDocks.length)).keepRec 0x2000 5

/-- A pass of every physical tile ends; `failed`: die × 150 + physical tile (R109). SRAM is destroyed (log 12). -/
def State.selfTestEnd (s : State) (failed : List Nat) : State :=
  let s := s.forget sramBase (sramBase + sramBytes)
  let xs := (List.range 16).map (fun d => s.diePass failed d)
  -- Where the map could not be read, a tile that stood on a spare returns home, to docks that are unprogrammed (R110).
  let home := (mapNumbers (mgetD s.store.devBlob (key 0x2500 4) [])).zipIdx.filter (fun p =>
    decide (p.1 < 144) && (xs[p.2 / 6]?).any (fun x => !x.spares.contains p.1 && !x.absent.contains p.1))
  let s := home.foldl (fun s p => s.freshDocks (144 * (p.2 / 6) + p.1)) s
  let s := xs.zipIdx.foldl (fun s p => s.applyDie p.2 p.1) s
  s.passBooks xs ((failed.eraseDups.filter (fun p => decide (p < 2400))).length)

/-- SELF_TEST_RUN; a pass that runs is left to end. -/
def execSelfTestRun (src : Src) (s : State) : Host.Outcome State Fault Refusal :=
  .next (s.guarded src 0x2500 1 [1] (fun _ s => .ok (s.put 0x2500 2 1)))

/-- Start-up goes on after its pass (R175, R497, R500). -/
def State.afterSelfTest (s : State) : State :=
  if s.get 0x6100 5 = 1 then
    let s := { s with power := { s.power with phase := .restoreWindow, restoreOpen := true, restoredDies := [] } }
    (s.put 0x1200 1 1).put 0x1201 1 1
  else s.startColds (fun _ => true)

/-- SELF_TEST_COMPLETE: of the pass of start-up, or of one on demand. -/
def execSelfTestComplete (failed : List Nat) (s : State) : Host.Outcome State Fault Refusal :=
  .next (if s.get 0x2500 2 ≠ 1 then s
    else if s.power.pst = .boot then (if s.power.phase = .selfTest then (s.selfTestEnd failed).afterSelfTest else s)
    else (s.selfTestEnd failed).queueColds (fun x => x.calTemp == 0xFF))

/-! ## Start-up from step 4 on (R113, R497) -/

/-- Registers of a dock from its metadata rows at power-up; a dock whose rows cannot be read is unprogrammed. -/
def Dock.powerUp (x : Dock) (bad : Bool) : Dock := { x with scale := x.metaScale, bias := x.metaBias, programmed := x.programmed && !bad }

def State.readMeta (s : State) (bad : List Nat) : State :=
  let s := { s with docks := s.docks.map (fun (e : Nat × Dock) => (e.1, e.2.powerUp (bad.contains e.1))) }
  bad.foldl (fun s d => s.logEv { code := 0x4006, severity := warning, kind := 3, id := d, detail := leBytes 2 0xFFFF }) s

def execDramTrainingDone (failedStacks badMetaDocks : List Nat) (s : State) : Host.Outcome State Fault Refusal :=
  .next (if s.power.pst ≠ .boot ∨ s.power.phase ≠ .dram then s
    else if failedStacks ≠ [] then s.bootFail 0x800A
    else
      let s := s.readMeta ((badMetaDocks.filter (fun d => decide (d < dockCount))).eraseDups)
      ({ s with power := { s.power with phase := .selfTest } }).put 0x2500 2 1)

/-- DEFAULT_OBJECTS_LOADED: step 6 ends, and the device is READY. -/
def execDefaultObjectsLoaded (s : State) : Host.Outcome State Fault Refusal :=
  .next (if s.power.pst = .boot ∧ s.power.phase = .defaults then s.becomeReady else s)

/-! ## NAP, IDLE, SHUTDOWN (R486 to R490) -/

/-- Securing or restoring is under way. -/
def State.secureBusy (s : State) : Bool := s.secure.copy.isSome || s.get 0x8202 5 == 1 || s.get 0x8202 5 == 3

def State.dockBusy (s : State) : Bool := s.cals != [] || s.dieCals != [] || s.docks.any (fun e => e.2.pass.isSome)

/-- What R488 asks of a held NAP. -/
def State.napReady (s : State) : Bool :=
  s.power.napHeld && (s.power.pst == .ready || s.power.pst == .idle) && !s.planBusy && !s.secureBusy && !s.dockBusy

/-- NAP_ENTRY: SRAM, trims and contexts stay. -/
def execNapEntry (s : State) : Host.Outcome State Fault Refusal :=
  .next (if s.napReady then
      (({ s with power := { s.power with napHeld := false, napFrom := s.power.pst } }).setPst .nap).sweepTransfers
    else s)

/-- Work, for RUN (R486). -/
def State.atWork (s : State) : Bool :=
  s.tiles.any (fun e => e.2.tasks != [] || e.2.ending != [] || e.2.fetching.isSome) || s.fabric.xfers != [] || s.fabric.relays != []
    || s.secure.copy.isSome || s.inval.isSome

/-- IDLE_TIMEOUT: IDLE_DELAY_US without work. -/
def execIdleTimeout (s : State) : Host.Outcome State Fault Refusal :=
  .next (if s.power.pst = .run ∧ !s.atWork then s.setPst .idle else s)

/-- SHUTDOWN is accepted only in READY. -/
def State.cmdShutdown (s : State) : Except Nat State :=
  if s.power.pst ≠ .ready then .error 0xA009
  else .ok { s with power := { s.power with shutdownBusy := true } }

def execPowerShutdown (src : Src) (s : State) : Host.Outcome State Fault Refusal :=
  .next (s.powerCommand src 5 State.cmdShutdown)

/-! ## The flash log and EVENT frames (R73, R74) -/

/-- An entry as an EVENT frame to the subscriber. DESIGN CHOICE (log 26): TRANSACTION_ID, INDEX, SUBINDEX and OFFSET of its header are
0; R57 and R74 give only its payload. -/
def State.eventFrame (s : State) (e : LogEntry) : Output :=
  .odp (0xFE80 * 2 ^ 112 + s.get 0x1100 2) (s.get 0x1100 3) ⟨0x40, 0, 0, 0, 0, 0, 0, e.image⟩

/-- Entries at or above NOTIFY_LEVEL that have not been sent yet. DESIGN CHOICE (log 26): those logged before EVENT_SUBSCRIBER was
set are sent once it is set. -/
def State.sendEvents (s : State) : State :=
  if s.get 0x1100 2 = 0 ∨ !s.mgmt.running then s
  else
    let due (e : LogEntry) : Bool := !e.sent && (e.force || decide (s.get 0xA002 2 ≤ e.severity))
    let es := (s.log.ring.filter due).map (fun e => { e with sent := true })
    let s := es.foldl (fun s e => s.tx (s.eventFrame e)) s
    { s with log := { s.log with ring := s.log.ring.map (fun e => if due e then { e with sent := true } else e) } }

def flashEntries : Nat := 786432
def sectorEntries : Nat := 4096

/-- Ring entries at or above PERSIST_LEVEL go to the flash log in SEQ order; a full log loses its oldest sector. -/
def State.persistRing (s : State) : State :=
  -- Written in SEQ order: an entry that a lowered PERSIST_LEVEL would let in behind newer ones is not written (log 26).
  let newest := s.log.kept.foldl (fun m e => max m e.seq) 0
  let due (e : LogEntry) : Bool := !e.persisted && decide (s.get 0xA002 1 ≤ e.severity) && decide (newest < e.seq)
  let new := (s.log.ring.filter due).map (fun e => { e with persisted := true })
  let flash := new.foldl (fun f e => if flashEntries ≤ f.length then f.drop sectorEntries ++ [e] else f ++ [e]) s.log.flash
  { s with log := { s.log with flash := flash, ring := s.log.ring.map (fun e => if due e then { e with persisted := true } else e) } }

def execEventLogPersist (s : State) : Host.Outcome State Fault Refusal :=
  .next (if s.power.pst = .off then s else s.sendEvents.persistRing)

/-- SHUTDOWN_DONE: the ring, the ageing history and the orderly flag are saved, and the device is in AUX (R490, R162). -/
def execShutdownDone (s : State) : Host.Outcome State Fault Refusal :=
  .next (if !s.power.shutdownBusy ∨ s.power.pst ≠ .ready then s
    else
      let orderly := !s.docks.any (fun e => e.2.pass.isSome)
      let s := s.persistRing.saveAgeing
      let s := { s with store := { s.store with orderly := orderly } }
      s.fallTo .aux 0)

/-! ## The power loop (R480 to R485) -/

/-- The point a die is to reach, as the loop holds it; IDLE and a droop hold the die at 0.9 GHz beside it. -/
def State.loopPoint (s : State) (d : Nat) : Nat := mgetD s.power.goal d (s.get 0xB011 (d + 1))
def State.goalPoint (s : State) (d : Nat) : Nat := if s.power.pst = .idle ∨ s.power.droop = true then 900 else s.loopPoint d

/-- The cap of the junction (R483): a step down per period from 93 °C, 0.9 GHz from 95 °C. -/
def State.thermalCap (s : State) (d : Nat) : Nat :=
  if !(s.filt d).sampled then 1600
  else if 95 ≤ s.channelValue d then 900
  else if 93 ≤ s.channelValue d then max 900 (s.loopPoint d - 100)
  else 1600

/-- Working converters, of 24. -/
def State.convertersOk (s : State) : Nat := ((List.range 24).filter (fun n => bit (s.get 0xB020 5) n)).length

/-- A package-wide limit: the bit of its cause, the measure and the limit. Power is in units of 0.1 mW, current in 0.1 A. -/
structure Limit where
  cause : Nat
  measure : Nat
  limit : Nat
  deriving DecidableEq, Repr

def Limit.over (l : Limit) : Bool := decide (l.limit < l.measure)
def Limit.under (l : Limit) : Bool := decide (100 * l.measure ≤ 95 * l.limit)

/-- The mean over the periods of the last 10 ms. -/
def meanPower (h : List Nat) : Nat := h.foldl (fun a b => a + b) 0 / max 1 h.length

def State.limits (s : State) (neDa swDa mean : Nat) : List Limit :=
  [⟨0, mean, s.get 0xB000 4 * 10000⟩, ⟨1, neDa + swDa, 3000⟩, ⟨2, neDa, 1600⟩, ⟨2, swDa, 1600⟩]
    ++ (if s.convertersOk < 22 then [⟨4, mean, s.convertersOk * 640 * 10000⟩] else [])

/-- One die in a period: its point, and the limits that bind it. -/
def State.loopDie (s : State) (past up : Bool) (pkgCause d : Nat) : State :=
  let host := s.get 0xB010 (d + 1)
  let rule := s.ruleCap d / 100 * 100
  let cap := min (min host rule) (s.thermalCap d)
  let f0 := s.loopPoint d
  let f1 := if past then max 900 (f0 - 100) else if up then f0 + 100 else f0
  let f := if s.power.droop then 900 else min f1 cap
  let kept := s.get 0xB012 (d + 1) % 32 % 8 + s.get 0xB012 (d + 1) / 16 % 2 * 16
  let pkg := if past then pkgCause else if f < cap then kept else 0
  let cause := pkg + (if (s.filt d).sampled ∧ 93 ≤ s.channelValue d then 8 else 0) + (if f = rule ∧ rule < 1600 then 32 else 0)
    + (if f = host then 64 else 0) + (if s.power.droop then 128 else 0)
  ({ s with power := { s.power with goal := mset s.power.goal d f } }).put 0xB012 (d + 1) cause

/-- What the loop logs while a limit binds, at most once per second each (R503). -/
def State.loopLog (s : State) (causes : List Nat) : State :=
  let s := if causes.contains 1 ∨ causes.contains 2 then s.logEvery 1000000000 (pkgEv 0x8006 note) else s
  let s := if causes.contains 0 then s.logEvery 1000000000 (pkgEv 0x8007 note) else s
  if 0 < s.power.gateN then s.logEvery 1000000000 (pkgEv 0x8008 warning) else s

/-- POWER_LOOP_TICK: the clamps as measured (R480), the limits, the points, the gating of task taking. -/
def State.powerTick (s : State) (neMv swMv neDa swDa : Nat) : State :=
  let now := neMv * neDa + swMv * swDa
  let hist := (now :: s.power.hist).take 100
  let mean := meanPower hist
  let s := { s with power := { s.power with hist := hist } }
  let s := (((s.put 0xB020 1 (mean / 10000)).put 0xB020 2 (min neMv swMv)).put 0xB020 3 neDa).put 0xB020 4 swDa
  let ls := s.limits neDa swDa mean
  let causes := ((ls.filter Limit.over).map (fun l => l.cause)).eraseDups
  let past := causes != []
  let under := ls.all Limit.under
  let n : Nat := if under then min 10 (s.power.underPeriods + 1) else 0
  let low := (List.range 16).all (fun d => s.get 0xB011 (d + 1) == 900)
  let gate : Nat := if past && low then min 9 (s.power.gateN + 1) else if past then s.power.gateN else s.power.gateN - 1
  let s := { s with power := { s.power with underPeriods := n, gateN := gate } }
  let pkgCause := causes.foldl (fun a c => a + 2 ^ c) 0
  let s := iter 16 (fun d s => s.loopDie past (decide (10 ≤ n)) pkgCause d) s
  let held := (List.range 16).any (fun d => s.get 0xB012 (d + 1) % 8 != 0 || s.get 0xB012 (d + 1) / 16 % 2 == 1)
  let s := if held then s.count 0xB020 6 64 100000 else s
  let s := if gate = 0 then s else s.count 0xB020 7 64 (gate * 10000)
  s.loopLog causes

def execPowerLoopTick (neMv swMv neDa swDa : Nat) (s : State) : Host.Outcome State Fault Refusal :=
  .next (if s.power.hmRunning then s.powerTick neMv swMv neDa swDa else s)

/-- DVFS_STEP_DONE: a die has moved one point towards the one it is to reach. -/
def execDvfsStepDone (die : DieId) (s : State) : Host.Outcome State Fault Refusal :=
  .next (if !s.power.hmRunning then s else
    let f := s.get 0xB011 (die.val + 1)
    let g := s.goalPoint die.val
    if f < g then s.put 0xB011 (die.val + 1) (min g (f + 100)) else if g < f then s.put 0xB011 (die.val + 1) (max g (f - 100)) else s)

/-! ## Conversions (R166, R169, R459 to R463) -/

/-- ADC_CONVERSION_DONE: the filters, the rules, and for a compute die's diode the triggers of calibration. -/
def execAdcConversionDone (conv : Fin 2) (code : Int) (s : State) : Host.Outcome State Fault Refusal :=
  .next (if s.power.pst = .off then s else
    match (s.conv conv.val).todo with
    | [] => s
    | ch :: _ =>
      let s := s.conversion conv.val code
      if ch < 16 ∧ s.power.hmRunning then
        let s := s.noteSettle ch
        if s.operating then s.tempTrigger ch else s
      else s)

/-! ## The saved store (R61 to R64) -/

/-- Whether bank 1 holds the image in force. -/
def Store.inBank1 (st : Store) : Bool :=
  st.bank1.good && !(st.bank0.good && decide (st.bank1.generation ≤ st.bank0.generation))

/-- A save starts: the snapshot, and the bank that does not hold the image is erased. -/
def State.startSave (s : State) : State :=
  let img := (savedKeys (fun _ => true)).foldl (fun m k => mset m k (s.getK k)) []
  let st := s.store
  let st := if st.inBank1 then { st with bank0 := Bank.empty } else { st with bank1 := Bank.empty }
  ({ s with store := { st with saving := some img } }).put 0x1011 1 1

def execStoreSave (src : Src) (s : State) : Host.Outcome State Fault Refusal :=
  .next (s.guarded src 0x1010 1 [1] (fun _ s => if s.store.saving.isSome then .error 0xA00A else .ok s.startSave))

/-- Every saved object takes its default; the device-maintained ones are not reached. -/
def State.savedDefaults (s : State) : State :=
  let ks := savedKeys (fun _ => true)
  { s with dict := s.dict.filter (fun e => !ks.contains e.1 || keyDev e.1) }

def execStoreDefaults (src : Src) (s : State) : Host.Outcome State Fault Refusal :=
  .next (s.guarded src 0x1010 2 [1] (fun _ s => if s.store.saving.isSome then .error 0xA00A else .ok s.savedDefaults.startSave))

/-- STORE_SAVE_DONE: the commit flag is written, or erase or verify failed. -/
def execStoreSaveDone (ok : Bool) (s : State) : Host.Outcome State Fault Refusal :=
  .next (match s.store.saving with
    | none => s
    | some img =>
      let st := { s.store with saving := none }
      if ok then
        let g := (s.get 0x1011 2 + 1) % 2 ^ 32
        let b : Bank := ⟨true, true, g, img⟩
        let st := if st.inBank1 then { st with bank0 := b } else { st with bank1 := b }
        ((({ s with store := st }).put 0x1011 1 0).put 0x1011 2 g).put 0x1011 3 0
      else
        ((({ s with store := st }).put 0x1011 1 2).put 0x1011 3 0xA00E).logEv (pkgEv 0xA00E warning))

/-! ## POSITION (R69) -/

def State.positionEff (s : State) (v : Nat) : Except Nat State :=
  let dom := s.stagedK (key 0x2200 1)
  let pkg := s.stagedK (key 0x2200 2)
  let slot := s.stagedK (key 0x2200 3)
  if v ≠ 1 then .error 0xA007
  else if !([0, 1, 0xFF].contains dom) ∨ ¬(pkg ≤ 16383 ∨ pkg = 0xFFFF) ∨ ¬(slot ≤ 16383 ∨ slot = 0xFFFF) then .error 0xA007
  else if pkg ≠ 0xFFFF ∧ slot ≠ 0xFFFF ∧ pkg ≠ slot then .error 0xA007
  else .ok (s.applyStaged 0x2200 1 3)

/-- POSITION_APPLY: PACKAGE_INDEX is RACK × 16 + SLOT, the number RACK_SLOT holds. -/
def execPositionApply (src : Src) (value : Nat) (s : State) : Host.Outcome State Fault Refusal :=
  .next (s.guarded src 0x2200 4 [BitVec.ofNat 8 value] (fun v s => s.positionEff v))

end Sys2Proof.Machine
end

