-- ==== Sys2Proof/Machine/Ageing.lean ====
section
/-! DEFINITION. Ageing: indicators sampled once a minute, daily means, the fitted line and its interval, END_OF_LIFE (R468 to R470, R476). -/

namespace Sys2Proof.Machine

/-! ## Items and indicators -/

/-- Items in the order of 0x9400: 16 die pairs, 18,432 docks, 8 stacks, 32 ports. -/
def itemDock : Nat := 16
def itemStack : Nat := 18448
def itemPort : Nat := 18456
def itemCount : Nat := 18488

def ageKey (item ind : Nat) : Nat := item * 4 + ind

/-- The indicators of an item: its place among them, its number in 0x9400, its limit in AGEING_POLICY, and whether it falls. -/
def itemInds (item : Nat) : List (Nat × Nat × Nat × Bool) :=
  if item < itemDock then [(0, 0, 1, false)]
  else if item < itemStack then [(0, 1, 2, false), (1, 2, 3, false), (2, 3, 4, false)]
  else if item < itemPort then [(0, 4, 5, false)]
  else [(0, 5, 6, true)]

def itemKind (item : Nat) : Nat := if item < itemDock then 0 else if item < itemStack then 1 else if item < itemPort then 2 else 3
def itemId (item : Nat) : Nat := item - (if item < itemDock then 0 else if item < itemStack then itemDock else if item < itemPort then itemStack else itemPort)

def AgeInd.empty : AgeInd := ⟨[], 0, 0, false⟩

/-- One sample of an indicator. -/
def addSample (m : AMap AgeInd) (e : Nat × Int) : AMap AgeInd :=
  mmod m e.1 AgeInd.empty (fun x => { x with sum := x.sum + e.2, count := x.count + 1 })

/-! ## The sample of a minute (R468) -/

/-- Eye margins of the ports with a link, as the receivers measure them (log 7). -/
def State.measureMargins (s : State) : State :=
  ((List.range 32).filter (fun p => s.linkState p == 2 || s.linkState p == 3)).foldl (fun s p =>
    iter 8 (fun l s =>
      let (v, s) := s.draw
      s.put (portIdx p) (8 + l) (v % 256)) s) s

def State.worstMargin (s : State) (p : Nat) : Int :=
  (List.range 8).foldl (fun m l => min m (toSigned 8 (s.get (portIdx p) (8 + l)))) 127

/-- Values of every indicator: dies from their ring oscillators, docks that have been in use, stacks, ports with a link. -/
def State.ageValues (s : State) (slow : List Int) (drift : List (Nat × Nat)) (corrected : List Nat) : List (Nat × Int) :=
  let dies := (List.range 16).map (fun c => (ageKey c 0, max (slow.getD c 0) (slow.getD (16 + c) 0)))
  let docks := s.docks.flatMap (fun e =>
    let d := (drift.find? (fun x => x.1 == e.1)).map (fun x => x.2)
    [(ageKey (itemDock + e.1) 0, (e.2.maxWear : Int)), (ageKey (itemDock + e.1) 1, (e.2.spares : Int)), (ageKey (itemDock + e.1) 2, ((d.getD 0 : Nat) : Int))])
  let dramStacks := (List.range 8).map (fun i => (ageKey (itemStack + i) 0, ((corrected.getD i 0 : Nat) : Int)))
  let ports := ((List.range 32).filter (fun p => s.linkState p == 2 || s.linkState p == 3)).map (fun p => (ageKey (itemPort + p) 0, s.worstMargin p))
  dies ++ docks ++ dramStacks ++ ports

/-! ## The line (R469) -/

/-- Daily points: the days kept and the running mean of the current day, the last 64 of them. -/
def AgeInd.points (x : AgeInd) : List Rat :=
  let l := x.days ++ (if x.count = 0 then [] else [(x.sum : Rat) / ((x.count : Nat) : Rat)])
  l.drop (l.length - 64)

def sumRat (l : List Rat) : Rat := l.foldl (fun a b => a + b) 0

/-- Slope, the square of its standard error, and the value today of the least-squares line through points one day apart. -/
structure Line where
  b : Rat
  sb2 : Rat
  today : Rat
  deriving DecidableEq, Repr

def fitLine (ys : List Rat) : Line :=
  let n : Rat := (ys.length : Nat)
  let xm := (n - 1) / 2
  let ym := sumRat ys / n
  let ix := ys.zipIdx
  let sxx := sumRat (ix.map (fun p => ((p.2 : Nat) - xm) * ((p.2 : Nat) - xm)))
  let sxy := sumRat (ix.map (fun p => ((p.2 : Nat) - xm) * (p.1 - ym)))
  let b := sxy / sxx
  let at_ (i : Nat) : Rat := ym + b * ((i : Nat) - xm)
  let ssr := sumRat (ix.map (fun p => (p.1 - at_ p.2) * (p.1 - at_ p.2)))
  ⟨b, ssr / (n - 2) / sxx, at_ (ys.length - 1)⟩

/-- The largest number of at most 16 bits that passes a test which holds up to some number. -/
def largest (p : Nat → Bool) : Nat := iter 16 (fun i acc => if p (acc + 2 ^ (15 - i)) then acc + 2 ^ (15 - i) else acc) 0

/-- d × (b + 1.645 s_b) ≤ m, for m ≥ 0, in exact numbers. -/
def leLow (l : Line) (m : Rat) (d : Nat) : Bool :=
  let r := m - (d : Rat) * l.b
  let q := (d : Rat) * (1645 / 1000)
  decide (0 ≤ r) && decide (q * q * l.sb2 ≤ r * r)
/-- d × (b − 1.645 s_b) ≤ m. -/
def leHigh (l : Line) (m : Rat) (d : Nat) : Bool :=
  let r := (d : Rat) * l.b - m
  let q := (d : Rat) * (1645 / 1000)
  decide (r ≤ 0) || decide (r * r ≤ q * q * l.sb2)

structure Predict where
  days : Nat
  low : Nat
  high : Nat
  deriving DecidableEq, Repr

def noDays : Nat := 65535
def clampDays (n : Nat) : Nat := min 65534 n

/-- b + 1.645 s_b, and b − 1.645 s_b, at or below 0. -/
def lowFlat (l : Line) : Bool := decide (l.b ≤ 0) && decide ((1645 / 1000 : Rat) * (1645 / 1000) * l.sb2 ≤ l.b * l.b)
def highFlat (l : Line) : Bool := decide (l.b ≤ 0) || decide (l.b * l.b ≤ (1645 / 1000 : Rat) * (1645 / 1000) * l.sb2)

def predict (ys : List Rat) (limit : Rat) : Predict :=
  if ys.length < 7 then ⟨noDays, noDays, noDays⟩
  else
    let l := fitLine ys
    let m := limit - l.today
    if m ≤ 0 then ⟨0, 0, 0⟩
    else
      ⟨if l.b ≤ 0 then noDays else clampDays (m / l.b).floor.toNat,
       if lowFlat l then noDays else clampDays (largest (leLow l m)),
       if highFlat l then noDays else clampDays (largest (leHigh l m))⟩

/-! ## END_OF_LIFE and its summary (R476) -/

structure Eol where
  p : Predict
  ind : Nat
  points : Nat
  value : Option (Rat × Rat)
  deriving DecidableEq, Repr

/-- An indicator of an item; a falling one is fitted negated. -/
def State.eolInd (s : State) (item : Nat) (q : Nat × Nat × Nat × Bool) : Eol :=
  let sg : Rat := if q.2.2.2 then -1 else 1
  let ys := ((mgetD s.lh.ageing (ageKey item q.1) AgeInd.empty).points).map (fun y => sg * y)
  let l := fitLine ys
  ⟨predict ys (sg * (s.get 0x9303 q.2.2.1 : Nat)), q.2.1, ys.length, if ys.length < 7 then none else some (l.today, l.b)⟩

/-- A dock reports the indicator with the smallest DAYS. -/
def State.eol (s : State) (item : Nat) : Eol :=
  match (itemInds item).map (fun q => s.eolInd item q) with
  | [] => ⟨⟨noDays, noDays, noDays⟩, 0, 0, none⟩
  | e :: r => r.foldl (fun a b => if b.p.days < a.p.days then b else a) e

def ratBytes (v : Rat) : List Byte := leBytes 4 (f32OfNum (if v = 0 then .zero false else .fin v))

/-- In AUX and SLEEP the entries carry STALE. -/
def State.eolStale (s : State) : Bool := s.power.pst = .aux || s.power.pst = .sleep

/-- VALUE and RATE before seven points are free (log 7). -/
def State.eolEntry (s : State) (item : Nat) : List Byte :=
  let e := s.eol item
  leBytes 2 e.p.days ++ leBytes 2 e.p.low ++ leBytes 2 e.p.high ++ leBytes 1 (e.ind + (if s.eolStale then 128 else 0)) ++ leBytes 1 e.points
    ++ (match e.value with
      | some (x, b) => ratBytes x ++ ratBytes b
      | none => (List.range 8).map (fun i => Config.ageingByte (16 * item + i) 0))

def State.endOfLife (s : State) : List Byte := (List.range itemCount).flatMap s.eolEntry

/-- 0x9302 as it is kept: its size from the manual, its layout open (log 7). -/
def State.ageingHistory (s : State) : List Byte := (List.range (64 + 256 * itemCount)).map (fun i => Config.ageingByte i (s.draws + 1))

/-- Items with a history. -/
def State.agedItems (s : State) : List Nat := (s.lh.ageing.map (fun e => e.1 / 4)).eraseDups

/-- The predictions are refreshed: the summary, and 0x8108 at most once per item and day. -/
def State.refreshEol (s : State) : State :=
  let es := s.agedItems.map (fun i => (i, s.eol i))
  let best := es.foldl (fun (m : Nat × Nat) e => if e.2.p.low < m.1 then (e.2.p.low, e.1) else m) (noDays, 0)
  let s := ((s.put 0x9401 1 best.1).put 0x9401 2 (itemKind best.2)).put 0x9401 3 (itemId best.2)
  es.foldl (fun s e =>
    let x := mgetD s.lh.ageing (ageKey e.1 0) AgeInd.empty
    if e.2.p.low < s.get 0x9500 12 ∧ !x.logged then
      let s := s.logEv (pkgEv 0x8108 warning)
      { s with lh := { s.lh with ageing := mset s.lh.ageing (ageKey e.1 0) { x with logged := true } } }
    else s) s

/-- AGEING_SAMPLE: slowdown of the 32 dies and drift of the docks in 0.01 %, corrected errors per day of the stacks. -/
def execAgeingSample (slow : List Int) (drift : List (Nat × Nat)) (corrected : List Nat) (s : State) : Host.Outcome State Fault Refusal :=
  .next (if !s.power.hmRunning then s else
    let s := s.measureMargins
    let s := iter 32 (fun i s => s.put 0x9301 (i + 1) (ofSigned 16 (clampInt (-32768) 32767 (slow.getD i 0)))) s
    let s := { s with lh := { s.lh with ageing := (s.ageValues slow drift corrected).foldl addSample s.lh.ageing } }
    s.refreshEol)

/-- The mean of the day joins the days kept. -/
def AgeInd.dayEnd (x : AgeInd) : AgeInd :=
  if x.count = 0 then { x with logged := false }
  else
    let l := x.days ++ [(x.sum : Rat) / ((x.count : Nat) : Rat)]
    ⟨l.drop (l.length - 64), 0, 0, false⟩

/-- AGEING_DAY_END: the daily means are kept and the history is saved (R470). -/
def execAgeingDayEnd (s : State) : Host.Outcome State Fault Refusal :=
  .next (if s.power.pst = .off then s else
    ({ s with lh := { s.lh with ageing := s.lh.ageing.map (fun (e : Nat × AgeInd) => (e.1, e.2.dayEnd)) } }).saveAgeing)

end Sys2Proof.Machine
end

