-- ==== Sys2Proof/Machine/Narrow.lean ====
section
/-! DEFINITION. Error control: sampling and the tally with its diagnosis, trouble, gates and trips, the replay of a step, and the end of a step (R222 to R240, R423 to R430). -/

namespace Sys2Proof.Machine

/-! ## Trouble (R223) -/

/-- The triggers that a class of a layer meets: bit 1 saturation, bit 2 underflow, bit 3 saturated block (R248). -/
def State.classTrouble (s : State) (y : ClassSt) : Nat :=
  let enough := decide (s.get 0x5300 3 ≤ y.converted)
  (if enough && decide (s.get 0x5300 1 * y.converted < y.saturated * 65536) then 2 else 0)
    + (if enough && decide (s.get 0x5300 2 * y.nonzero < y.underflowed * 65536) then 4 else 0)
    + (if 1 ≤ y.fullSat then 8 else 0)

/-- The triggers that hold for a layer, with bit 0 tally and bit 4 non-finite, and its troubled classes: every class for the
tally. At WIDE only those two can hold. What a gate had evaluated when it skipped the update counts no more (DEDUCED, log 57). -/
def State.trouble (s : State) (i : Nat) : Nat × List Nat :=
  let x := (s.layer i).since
  let per := [0, 1, 2].map (fun c => if s.level i = 2 then 0 else s.classTrouble (x.cls c))
  let bits := per.foldl (fun a b => a ||| b) 0 + (if x.tally then 1 else 0)
    + (if 1 ≤ x.nonfinite ∧ s.get 0x5300 7 = 1 then 16 else 0)
  (bits, if x.tally then [0, 1, 2] else [0, 1, 2].filter (fun c => decide (per.getD c 0 ≠ 0)))

/-- Layers of a context in trouble: position, entry, triggers, classes. -/
def State.troubled (s : State) (c : Nat) : List (Nat × LayerDef × Nat × List Nat) :=
  (s.ctxLayers c).filterMap (fun x => let (b, cs) := s.trouble x.1; if b = 0 then none else some (x.1, x.2, b, cs))

/-- One level down; ZD1 emulation skips FALLBACK (R232). -/
def State.down (s : State) (level : Nat) : Nat := if level = 0 ∧ !s.emulating then 1 else 2

/-- Where the n-th trip of a step moves a layer: its level, and the classes that go to just-in-time mode (R232). -/
def State.moveOf (s : State) (i n : Nat) (cs : List Nat) : Nat × List Nat :=
  if n ≤ 1 then (s.down (s.level i), cs) else (2, [])

/-- A move takes effect. -/
def LayerSt.move (x : LayerSt) (m : Nat × List Nat) : LayerSt :=
  m.2.foldl (fun x c => x.setCls c { x.cls c with jit := true }) { x with level := max x.level m.1 }

/-! ## The books of a tally (R226, R230) -/

def State.tallyOf (s : State) (key : Nat) : Option TallySlot := mget? s.tallies key
def State.setTally (s : State) (key : Nat) (e : TallySlot) : State := { s with tallies := mset s.tallies key e }

/-- An event of the narrow-width chapter: SOURCE_KIND 9, the context, LAYER_ID (R248). -/
def State.narrowEv (s : State) (c code sev layerId : Nat) (more : List Byte := []) : State :=
  s.logEv (s.ctxEv c code sev 9 c (leBytes 2 layerId ++ more))

/-- A sample is dropped or abandoned. -/
def State.dropSample (s : State) (c layerId : Nat) : State :=
  let s := s.count 0x5400 8 64 1
  if (s.ctx c).dropLogged then s
  else (s.setCtx c { s.ctx c with dropLogged := true }).narrowEv c 0x7106 note layerId

/-- The operand bytes that a sampled task read. -/
def State.sampleReads (s : State) (t : Nat) (k : Task) : List (Nat × Nat) :=
  if k.opcode = 0x01 then mvmReads s t k else if k.opcode = 0x11 then pairReads s k else gemmReads s k

/-- The compared values of a sample. -/
def Cap.values (cap : Cap) : List Num := cap.outs.map (·.z) ++ cap.prods.flatMap (·.acc)

/-- The recomputation reads the master (R228). -/
def Cap.needsMaster (cap : Cap) : Bool := if cap.product = 0 then !cap.behind else cap.prods.any (fun p => p.fmt != 0)

/-- The bytes of a slot copy: descriptor, status, operands, comparison values (R226). -/
def State.sampleBytes (s : State) (t : Nat) (k : Task) (cap : Cap) : Nat :=
  72 + (s.sampleReads t k).foldl (fun n r => n + r.2) 0 + 4 * cap.values.length

/-- The copy of a sample into its slot; the slot's layout is the device's own, so its bytes are free (log 7). -/
def State.takeSample (s : State) (t : Nat) (k : Task) (cap : Cap) (slot checker : Nat) : Except AccFault State :=
  let c := k.ctx
  let (bs, s) := s.drawBytes (s.sampleBytes t k cap)
  match s.writeNow (some t) c (s.get 0x5410 (c + 1) + slot * 4194304) bs with
  | .error f => .error f
  | .ok (_, s) =>
    let x := s.ctx c
    let e : TallySlot :=
      { seq := x.sampleSeq, tile := t, layer := cap.layer, takenAt := s.timer, step := s.stepOf c, attempt := s.attemptOf c, task := k,
        copying := true, diag := false, kind := 0, checker := checker, tried := [checker], x1 := [], x2 := [], open_ := [], late := none }
    .ok (((s.setCtx c { x with sampleSeq := x.sampleSeq + 1 }).setTally (c * 64 + slot) e).modTask t k.id
      (fun k => { k with sample := some slot }))

/-- A task that has ended counts among the eligible ones of its layer on the tile (R225). -/
def State.countEligible (s : State) (t : Nat) (k : Task) : State := match k.cap with
  | none => s
  | some cap =>
    let key := t * 65536 + cap.layer
    s.setCtx k.ctx { s.ctx k.ctx with eligible := mset (s.ctx k.ctx).eligible key (mgetD (s.ctx k.ctx).eligible key 0 + 1) }

/-- A task has ended: it is numbered among the eligible ones of its layer on the tile, and sampled when its turn comes or a
dropped sample is owed (R225 to R227). -/
def State.considerSample (s : State) (t : Nat) (k : Task) : Except AccFault State :=
  match k.cap with
  | none => .ok s
  | some cap =>
    let c := k.ctx
    let key := t * 65536 + cap.layer
    let n := mgetD (s.ctx c).eligible key 0
    let s := s.countEligible t k
    let rate := s.get 0x5400 1
    if rate = 0 then .ok s else
    let seed := match s.plan with | some p => p.jobSeed | none => 0
    let h := rngWord seed (s.stepOf c) t (0xFFF00000 + k.layerId) % rate
    let owed := mgetD (s.ctx c).owed key 0
    if (n + h) % rate ≠ 0 ∧ owed = 0 then .ok s else
    let chk := s.checkers c t
    let s := if chk = [] ∧ !(s.ctx c).noChecker then
        (s.setCtx c { s.ctx c with noChecker := true }).narrowEv c 0x7108 note 0xFFFF else s
    let slot := (List.range (s.get 0x5400 4)).find? (fun i => (s.tallyOf (c * 64 + i)).isNone)
    match slot, chk with
    | some slot, checker :: _ =>
      if s.get 0x5410 (c + 1) = 0 ∨ 4194304 < s.sampleBytes t k cap ∨ (cap.needsMaster && (s.binding cap.layer).master == 0) then
        .ok ((s.setCtx c { s.ctx c with owed := mset (s.ctx c).owed key 1 }).dropSample c k.layerId)
      else (s.setCtx c { s.ctx c with owed := merase (s.ctx c).owed key }).takeSample t k cap slot checker
    | _, _ => .ok ((s.setCtx c { s.ctx c with owed := mset (s.ctx c).owed key 1 }).dropSample c k.layerId)

/-- TALLY_SAMPLE_COPY_DONE: the slot holds its copy, and the task may signal. -/
def execTallySampleCopyDone (c : CtxId) (slot : Nat) (s : State) : Host.Outcome State Fault Refusal :=
  .next (match s.tallyOf (c.val * 64 + slot) with
    | none => s
    | some e => if slot < 64 then s.setTally (c.val * 64 + slot) { e with copying := false } else s)

/-! ## The wide recomputation and its bound (R228) -/

/-- A compared value: recomputed, as sampled, its bound B, and whether an input is at the largest magnitude of its grid. -/
structure Judged where
  x : Num
  z : Num
  bound : Rat
  big : Bool
  deriving DecidableEq, Repr

/-- The conversion bound of an element in its format, a narrow one at a block scale; a zero block holds nothing of it. -/
def convBound (f : Fmt) (scale x : Rat) : Rat :=
  let scale := if f.narrow then scale else 1
  if scale = 0 then absR x
  else match f with
    | .int _ => scale / 2
    | f => scale * max (pow2 (-(f.small.1 + 1 : Nat)) * absR (x / scale)) (pow2 (f.small.2 - f.small.1) / 2)

/-- Σ |a × b|. -/
def absDot (a b : List Num) : Rat := (a.zip b).foldl (fun p q => p + absR (q.1.rat * q.2.rat)) 0

/-- The bound of one output of a narrow digital product. -/
def prodBound (fmt : Nat) (a b : List Num) (scales : List Rat) : Rat :=
  let d := match Fmt.ofCode fmt with
    | none => 0
    | some f => ((a.zip b).zip scales).foldl (fun p q => p + absR q.1.1.rat * convBound f q.2 q.1.2.rat) 0
  let c := (a.length + 1023) / 1024
  d + (pow2 (-7) + (5 + c : Nat) * pow2 (-24)) * absDot a b

/-- One product again: in BF16, with the weight operand's master where its copy is narrow; at WIDE the same computation. -/
def State.judgeProd (s : State) (t c : Nat) (wide : Bool) (b : Binding) (p : CapProd) : Except AccFault (List Judged × State) :=
  let K := (p.rows.headD []).length
  let N := p.cols.length
  let read : Except AccFault (List (List Num) × State) :=
    if p.fmt = 0 then .ok (p.cols, s)
    else if p.swap then s.readMaster t c b p.row0 p.col0 N K
    else match s.readMaster t c b p.row0 p.col0 K N with
      | .error f => .error f
      | .ok (rows, s) => .ok (transpose N rows, s)
  match read with
  | .error f => .error f
  | .ok (cols, s) =>
    let narrow (m : List (List Num)) : Calc (List (List Num)) := if wide then pure m else m.mapM (fun r => r.mapM (toWide .bf16))
    let xs := (s.calc (do matmul (chunks N p.rows.length p.init) (← narrow p.rows) (← narrow cols))).1
    let bounds := p.rows.flatMap (fun a => cols.zipIdx.map (fun q => if wide then 0 else prodBound p.fmt a q.1 (p.scales.getD q.2 [])))
    let js := ((xs.flatten.zip p.acc).zip bounds).zipIdx.map (fun q => ⟨q.1.1.1, q.1.1.2, q.1.2, p.big.getD q.2 false⟩)
    .ok (js, s)

def State.judgeProds (s : State) (t c : Nat) (wide : Bool) (b : Binding) : List CapProd → Except AccFault (List Judged × State)
  | [] => .ok ([], s)
  | p :: r =>
    match s.judgeProd t c wide b p with
    | .error f => .error f
    | .ok (js, s) => match s.judgeProds t c wide b r with
      | .error f => .error f
      | .ok (ks, s) => .ok (js ++ ks, s)

/-- The fitted code of each of n rows of an output, times its fitted scale (R147, R164). -/
def State.fittedColumn (s : State) (t c base o : Nat) (scale : Num) : List Nat → Except AccFault (List Num × State)
  | [] => .ok ([], s)
  | r :: rest =>
    match s.readVa (some t) c (base + imgCodes + 1024 * r + 2 * o) 2 with
    | .error f => .error f
    | .ok (bs, s) => match s.fittedColumn t c base o scale rest with
      | .error f => .error f
      | .ok (xs, s) => .ok (ratNum ((toSigned 16 (ofLe bs) : Rat) * scale.rat) :: xs, s)

/-- The weights of a dock's rows for an output, as the checker reads them. -/
def State.termWeights (s : State) (t c : Nat) (b : Binding) (behind : Bool) (col : Nat) (e : CapTerm) : Except AccFault (List Num × State) :=
  if behind then
    let base := b.fit + imageBytes * e.entry
    match s.readVa (some t) c (base + imgFitted + 2 * (col % 512)) 2 with
    | .error f => .error f
    | .ok (bs, s) => s.fittedColumn t c base (col % 512) (numOfF16 (ofLe bs)) (List.range e.x.length)
  else match s.readMaster t c b e.row0 col e.x.length 1 with
    | .error f => .error f
    | .ok (rows, s) => .ok (rows.flatten, s)

def State.termsWeights (s : State) (t c : Nat) (b : Binding) (behind : Bool) (col : Nat) : List CapTerm → Except AccFault (List (List Num) × State)
  | [] => .ok ([], s)
  | e :: r =>
    match s.termWeights t c b behind col e with
    | .error f => .error f
    | .ok (w, s) => match s.termsWeights t c b behind col r with
      | .error f => .error f
      | .ok (ws, s) => .ok (w :: ws, s)

/-- The bound of an output of docks, dock by dock. -/
def dockBound (theta : Rat) (bias : Num) (ts : List (CapTerm × List Num)) : Rat :=
  let per := ts.foldl (fun a e =>
    a + e.1.sIn / 2 * e.2.foldl (fun m w => m + absR w.rat) 0 + theta * absR e.1.wScale * e.1.q + e.1.analog) 0
  let p := ts.foldl (fun a e => a + absDot e.1.x e.2) 0
  per + pow2 (-7) * (p + absR bias.rat)

def State.judgeOut (s : State) (t c : Nat) (b : Binding) (behind : Bool) (o : CapOut) : Except AccFault (Judged × State) :=
  match s.termsWeights t c b behind o.col o.terms with
  | .error f => .error f
  | .ok (ws, s) =>
    let x := (s.calc (do
      let a ← (o.terms.flatMap (·.x)).mapM (toWide .bf16)
      let w ← ws.flatten.mapM (toWide .bf16)
      fadd (← dotIn s.emulating (.zero false) a w) o.bias)).1
    let theta : Rat := if behind then 0 else (s.get 0x6200 1 : Rat) / 16
    .ok (⟨if o.poisoned then .nan canonicalNaN else x, o.z, dockBound theta o.bias (o.terms.zip ws), o.big⟩, s)

def State.judgeOuts (s : State) (t c : Nat) (b : Binding) (behind : Bool) : List CapOut → Except AccFault (List Judged × State)
  | [] => .ok ([], s)
  | o :: r =>
    match s.judgeOut t c b behind o with
    | .error f => .error f
    | .ok (j, s) => match s.judgeOuts t c b behind r with
      | .error f => .error f
      | .ok (js, s) => .ok (j :: js, s)

/-- Every compared value of a sample, recomputed by a checker tile. -/
def State.recompute (s : State) (t c : Nat) (cap : Cap) : Except AccFault (List Judged × State) :=
  let b := s.binding cap.layer
  match s.judgeOuts t c b cap.behind cap.outs with
  | .error f => .error f
  | .ok (js, s) => match s.judgeProds t c (cap.product == 2) b cap.prods with
    | .error f => .error f
    | .ok (ks, s) => .ok (js ++ ks, s)

/-- The sampled value agrees with a recomputed one; at WIDE they must be bit-identical. -/
def agrees (factor : Rat) (wide : Bool) (j : Judged) : Bool :=
  if wide then j.x == j.z
  else match j.x, j.z with
    | .nan _, .nan _ => true
    | .inf a, .inf b => a == b
    | x, z => x.isFinite && z.isFinite && decide (absR (x.rat - z.rat) ≤ factor * j.bound)

/-! ## Results and diagnosis (R229, R230, R430) -/

def TallySlot.cap (e : TallySlot) : Cap := e.task.cap.getD ⟨0, e.layer, [], [], false, false⟩

/-- The tally has ended: the slot is freed; a replay that waits for its diagnosis may start (R423). -/
def State.tallyEnd (s : State) (key : Nat) (done : Bool) : State :=
  let s := { s with tallies := merase s.tallies key }
  (if done then s.count 0x5400 5 64 1 else s).maybeStop (key / 64)

/-- The tally of a task that was sampled again in the following attempt agrees: transient (R429). -/
def State.tallyTransient (s : State) (c : Nat) (e : TallySlot) : State :=
  let x := s.ctx c
  let hit (p : DataErr) : Bool :=
    p.code == 0x7105 && p.berth == e.task.berth && p.man == e.task.man && p.slot == e.task.slot && p.attempt != e.attempt
  let s := (x.prior.filter hit).foldl (fun s p =>
    (s.count 0x8220 2 64 1).logEv (s.ctxEv c 0x7006 note p.kind (p.ids.headD 0) ([0, 0] ++ leBytes 2 p.code))) s
  s.setCtx c { s.ctx c with prior := x.prior.filter (fun p => !hit p) }

def State.tallyAgreed (s : State) (key : Nat) (e : TallySlot) : State :=
  (if e.late.isNone then s.tallyTransient (key / 64) e else s).tallyEnd key true

/-- The place of a wrong result: every dock that contributed to a wrong output, or the sampled tile (R428). -/
def State.tallyPlace (s : State) (e : TallySlot) (outs : List Nat) : Nat × List Nat :=
  let cap := e.cap
  if cap.product = 0 then
    let docks : List Nat := match s.plan with
      | some p => (p.docks.filter (fun (d : DockMap) => d.layerIdx == cap.layer)).map (fun (d : DockMap) => d.dock)
      | none => []
    (3, (outs.flatMap (fun i => match cap.outs[i]? with
      | some o => o.terms.map (fun t => docks.getD t.entry 0)
      | none => [])).eraseDups)
  else (2, [e.tile])

/-- The sampled result is wrong: in its step a data error, its docks calibrated first; after the step's end R425 applies. -/
def State.tallyWrong (s : State) (key : Nat) (e : TallySlot) (outs : List Nat) : State :=
  let c := key / 64
  let (kind, ids) := s.tallyPlace e outs
  let s := { s with tallies := mset s.tallies key { e with diag := false } }
  let s := match e.late with
    | some (gated, _) =>
      if gated then s.jobFault c 0x7009 kind (ids.headD 0) { tile := e.tile, opcode := e.task.opcode } [] else s.logEv (s.ctxEv c 0x7009 warning kind (ids.headD 0))
    | none =>
      let s := if kind = 3 then ids.foldl (fun (s : State) d => s.triggerCal d .native) s else s
      s.wantReplay c ⟨0x7105, kind, ids, e.task.berth, e.task.man, e.task.slot, s.attemptOf c⟩ { tile := e.tile, opcode := e.task.opcode }
  s.tallyEnd key true

/-- A checker tile is permanently faulty: retired, 0x7007, and the job faults (R428, R430). -/
def State.checkerFault (s : State) (key tile : Nat) : State :=
  (s.permanentFault (key / 64) ⟨0x7105, 2, [tile], 0, 0, 0, 0⟩ { tile := tile, opcode := 0x60 }).tallyEnd key true

/-- The step's end has passed: explained trouble moves the layer when the next step ends (R237). -/
def State.lateTrouble (s : State) (c i layerId trips : Nat) : State :=
  let m := s.moveOf i (trips + 1) [0, 1, 2]
  let x := s.layer i
  let m := match x.pending with
    | none => m
    | some p => (max p.1 m.1, (p.2 ++ m.2).eraseDups)
  (s.setLayer i { x with pending := some m, tripped := true }).narrowEv c 0x710A note layerId

/-- The first recomputation is in. -/
def State.tallyFirst (s : State) (key : Nat) (e : TallySlot) (js : List Judged) (factor : Rat) : State :=
  let c := key / 64
  let cap := e.cap
  let wide := cap.product == 2
  let bad := js.zipIdx.filter (fun p => !agrees factor wide p.1)
  if bad = [] then s.tallyAgreed key e
  else
    let s := s.count 0x5400 6 64 1
    let open_ := (bad.filter (fun p => wide || !(p.1.big || cap.inSat))).map (·.2)
    let s := if open_.length < bad.length then
        let s := (s.count 0x5400 7 64 1).narrowEv c 0x7104 note e.task.layerId
        match e.late with
        | some (_, trips) => s.lateTrouble c e.layer e.task.layerId trips
        | none => s.setLayer e.layer { s.layer e.layer with tally := true }
      else s
    if open_ = [] then s.tallyEnd key true
    else
      let s := (s.narrowEv c 0x7105 warning e.task.layerId).countError
      let e := { e with x1 := js.map (·.x), open_ := open_ }
      match (s.checkers c e.tile).find? (fun t => !e.tried.contains t) with
      | none => s.tallyWrong key e open_
      | some t => s.setTally key { e with diag := true, kind := 1, checker := t, tried := e.tried ++ [t] }

/-- The reference stands: the outputs found unexplained are judged against it. -/
def State.tallyJudge (s : State) (key : Nat) (e : TallySlot) (ref : List Num) (js : List Judged) (factor : Rat) : State :=
  let wide := e.cap.product == 2
  let bad := e.open_.filter (fun i => match js[i]? with
    | some j => !agrees factor wide { j with x := ref.getD i (.zero false) }
    | none => false)
  if bad = [] then s.tallyAgreed key e else s.tallyWrong key e bad

/-- A transient fault of a checker. -/
def State.outvote (s : State) (c tile layerId : Nat) : State :=
  s.logEv (s.ctxEv c 0x700A note 2 tile (leBytes 2 layerId))

/-- The steps of R430 after the first. -/
def State.tallyNext (s : State) (key : Nat) (e : TallySlot) (js : List Judged) (factor : Rat) : State :=
  let c := key / 64
  let xs := js.map (·.x)
  let first := e.tried.headD 0
  let second := e.tried.getD 1 0
  if e.kind = 1 then
    if xs = e.x1 then s.tallyJudge key e e.x1 js factor
    else s.setTally key { e with x2 := xs, kind := 2, checker := first }
  else if xs = e.x2 then (s.outvote c first e.task.layerId).tallyJudge key e e.x2 js factor
  else if xs = e.x1 then
    let s := s.outvote c second e.task.layerId
    let n := mgetD s.outvoted second 0 + 1
    let s := { s with outvoted := mset s.outvoted second n }
    if 2 ≤ n then s.checkerFault key second else s.tallyJudge key e e.x1 js factor
  else s.checkerFault key first

/-- A fault that strikes a TALLY is a job fault: it runs at urgent priority, and what it had overtaken falls with it (R349). -/
def State.tallyStruck (s : State) (t c layerId : Nat) (f : AccFault) : State :=
  let at_ : FaultAt := { tile := t, opcode := 0x60 }
  match f with
  | .trans code va level w => (s.noteLeaf t c va).transFault c code { at_ with va := va, level := level, write := w }
  | .data pa code =>
    if code = 0x7003 then s.jobFault c code 5 (channelOf pa) at_ []
    else if code = 0x7002 then s.countError.jobFault c code 5 (channelOf pa) at_ []
    else s.countError.jobFault c code 2 (if sramBase ≤ pa then (pa - sramBase) / 16777216 else t) at_ []
  | .job code kind id _ => s.jobFault c code kind id at_ (leBytes 2 layerId)
  | _ => s

/-- A TALLY starts ahead of what was taken on its tile: an overtaking counts (R355). -/
def State.overtake (s : State) (t : Nat) : State :=
  if (s.tile t).tasks.any (fun y => y.prio != 3 && (y.st = .taken || y.st = .suspended)) then s.count 0x3020 3 64 1 else s

/-- An urgent task of a berth, taken before it, that a TALLY does not overtake (R348); a gate waits for the TALLY itself (R231; log 56). -/
def State.urgentFirst (s : State) (t : Nat) : Bool := (s.tile t).tasks.any (fun y => y.prio == 3 && y.st == .taken && !y.noop && y.gate != 1)

/-- The tally that is due on a checker tile: the one with the lowest context and slot. -/
def State.tallyDue (s : State) (t : Nat) : Option (Nat × TallySlot) := s.tallies.find? (fun e => e.2.checker == t && !e.2.copying)

/-- TALLY: the checker tile runs its next recomputation; `wrong` gives the outputs that it computes otherwise than the machine
would, which a fault of the checker's hardware does (log 13). -/
def execTally (t : TileId) (wrong : List (Nat × Num)) (s : State) : Host.Outcome State Fault Refusal :=
  .next (match s.tallyDue t.val with
    | none => s
    | some (key, e) =>
      let c := key / 64
      if !s.operating || !s.loaded || s.ctxState c != 2 || (s.tile t.val).busy || s.urgentFirst t.val then s
      else
        let s := s.work
        match s.recompute t.val c e.cap with
        | .error (.stall ls) => s.snoopHeld ls
        | .error (.noTask code va level w) =>
          (s.noteLeaf t.val c va).transFault c code { va := va, level := level, write := w, tile := t.val, noTask := true }
        | .error f =>
          ((((s.overtake t.val).tallyStruck t.val c e.task.layerId f).strikeDeferred t.val).count 0x4030 3 64 1).tallyEnd key false
            |>.regrant t.val
        | .ok (js, s) =>
          let s := (s.overtake t.val).count 0x4030 3 64 1
          let js := js.zipIdx.map (fun p => match wrong.find? (fun w => w.1 == p.2) with
            | some w => { p.1 with x := w.2 }
            | none => p.1)
          let factor := (numOfF32 (s.get 0x5400 2)).rat
          if e.kind = 0 then s.tallyFirst key e js factor else s.tallyNext key e js factor)

/-- TALLY_TIMEOUT, in ms, has passed since a sample was taken (R230). -/
def State.tallyLate (s : State) (e : TallySlot) : Bool := decide (e.takenAt + s.get 0x5400 3 * 1000000 ≤ s.timer)

/-- TALLY_TIMEOUT (R230). -/
def execTallyTimeout (c : CtxId) (slot : Nat) (s : State) : Host.Outcome State Fault Refusal :=
  .next (match s.tallyOf (c.val * 64 + slot) with
    | none => s
    | some e => if slot < 64 ∧ s.tallyLate e = true then (s.dropSample c.val e.task.layerId).tallyEnd (c.val * 64 + slot) false else s)

/-! ## Gates and trips (R231, R232, R235, R236) -/

/-- The gate's tallies have ended: those sampled from tasks completed before it was taken. -/
def State.gateReady (s : State) (k : Task) : Bool :=
  !s.tallies.any (fun e => e.1 / 64 == k.ctx && decide (e.2.seq < k.gateSeq))

/-- A gate passes: its task, and its layer for the rest of the step. -/
def State.gatePass (s : State) (t : Nat) (k : Task) (i : Nat) : State :=
  let s := s.setLayer i { s.layer i with gate := some (s.attemptOf k.ctx) }
  let s := s.setCtx k.ctx { s.ctx k.ctx with gated := true }
  (s.setTask t { k with gate := 2 }).regrant t

/-- The tasks of a skipped update that have been taken complete as no-ops. -/
def State.skipTasks (s : State) (c : Nat) : State :=
  (s.ctxTiles c).foldl (fun s t =>
    let f (k : Task) : Task :=
      if k.ctx = c ∧ k.st = .taken ∧ s.skips k then
        { k with noop := true, worked := true, endState := 2, gate := if k.gate = 1 then 2 else k.gate }
      else k
    (s.setTile t { s.tile t with tasks := (s.tile t).tasks.map f }).regrant t) s

/-- The trouble of a context's layers has been evaluated, and the levels stay (R232, R237). -/
def State.seenTrouble (s : State) (c : Nat) : State :=
  (s.ctxLayers c).foldl (fun (s : State) x => s.setLayer x.1 { s.layer x.1 with seen := (s.layer x.1).counters, tally := false }) s

/-- The update of the step is skipped (R235). -/
def State.skipUpdate (s : State) (c : Nat) : State :=
  if (s.ctx c).skip then s
  else
    let s := s.seenTrouble c
    let s := s.setCtx c { s.ctx c with skip := true, gated := true }
    let s := (s.count 0x5300 11 64 1).logEv { s.ctxEv c 0x7103 warning 9 c (leBytes 2 0xFFFF) with force := true }
    (s.weighSkip c).skipTasks c

/-- A troubled layer's move at a trip: it takes effect with the rewind (R233). -/
def State.tripLayer (s : State) (c n : Nat) (x : Nat × LayerDef × Nat × List Nat) : State :=
  let (i, l, trig, cs) := x
  let old := s.level i
  let m := s.moveOf i n cs
  let y := s.layer i
  let s := s.setLayer i { y with trip := some m, tripStep := true, tripped := true, trips := min (2 ^ 32 - 1) (y.trips + 1), clean := 0 }
  if m.1 = old then s
  else (s.count 0x5300 9 64 1).narrowEv c 0x7101 warning l.id (leBytes 1 trig ++ leBytes 1 old ++ leBytes 1 m.1 ++ leBytes 1 n)

/-- The step trips. -/
def State.trip (s : State) (c : Nat) (found : List (Nat × LayerDef × Nat × List Nat)) : State :=
  let n := (s.ctx c).trips + 1
  let s := s.setCtx c { s.ctx c with trips := n, gated := true }
  if 3 ≤ n ∨ 2 ≤ (s.ctx c).replays ∨ manLogMax < (s.ctx c).manLog then
    (found.foldl (fun (s : State) x =>
      let y := s.layer x.1
      s.setLayer x.1 { y with tripStep := true, tripped := true, trips := min (2 ^ 32 - 1) (y.trips + 1) }) s).skipUpdate c
  else
    let s := found.foldl (fun s x => s.tripLayer c n x) s
    ((s.narrowEv c 0x7102 warning 0xFFFF).setCtx c { s.ctx c with tripReplay := true }).maybeStop c

/-- GATE_EVALUATE: every layer of the context is evaluated; the gate passes, trips the step, or waits for a replay. -/
def execGateEvaluate (t : TileId) (s : State) : Host.Outcome State Fault Refusal :=
  .next (match (s.tile t.val).tasks.find? (fun k => k.gate == 1 && k.st == .taken) with
    | none => s
    | some k => match s.layerOf k with
      | none => s
      | some (i, _) =>
        if !s.takes k.ctx || (s.ctx k.ctx).tripReplay || !s.gateReady k then s
        else if (s.layer i).gate.isSome then s.gatePass t.val k i
        else match s.troubled k.ctx with
          | [] => if (s.ctx k.ctx).errs = [] then s.gatePass t.val k i else s
          | found => s.trip k.ctx found)

/-! ## The replay (R233) -/

/-- A berth returns to its step mark, its manifests since then queued again. -/
def Berth.rewind (b : Berth) : Berth :=
  { b with queue := b.log, curMan := b.markMan, curSlot := b.markSlot, waiting := none }

/-- A bollard returns to its value at the mark plus the signals from outside. -/
def Bollard.rewind (b : Bollard) : Bollard := { b with count := min (2 ^ 32 - 1) (b.mark + b.ext), waits := [] }

/-- Berths and bollards of a context under the plan. -/
def State.ctxBerths (s : State) (c : Nat) : List BerthDef := match s.plan with
  | none => []
  | some p => p.berths.filter (fun b => b.ctx == c)
def State.ctxBollards (s : State) (c : Nat) : List Nat := match s.plan with
  | none => []
  | some p => (p.bollards.filter (fun b => b.ctx == c)).flatMap (fun b => (List.range b.count).map (· + b.first))
/-- Chains of a context. -/
def State.ctxChains (s : State) (c : Nat) : List ChainDef := match s.plan with
  | none => []
  | some p => p.chains.filter (fun x => x.ctx == c)

/-- The chains of a context are emptied; chunk numbers restart (R304). -/
def State.emptyChains (s : State) (c : Nat) : State := { s with chains := s.chains.filter (fun e => !(s.ctxChains c).any (fun d => d.id == e.1)) }

/-- What a tile holds of a context's work is dropped. -/
def State.dropWork (s : State) (c : Nat) (t : Nat) : State :=
  let x := s.tile t
  let mine (b : Nat) : Bool := (s.ctxBerths c).any (fun d => d.berth == b)
  let x := { x with tasks := x.tasks.filter (fun k => k.ctx != c), ending := x.ending.filter (fun k => k.ctx != c),
                    bufs := x.bufs.filter (fun m => !mine m.berth),
                    fetching := match x.fetching with | some b => if mine b then none else some b | none => none, prev := none }
  { s with mvms := merase s.mvms t }.setTile t x

/-- The layers of a context as the next attempt begins: counts cleared, the moves of a trip in effect. -/
def State.rewindLayers (s : State) (c : Nat) : State :=
  (s.ctxLayers c).foldl (fun s x =>
    let y := { (s.layer x.1).clear with gateSeen := false, trip := none }
    s.setLayer x.1 (match (s.layer x.1).trip with | some m => y.move m | none => y)) s

/-- The rewind: steps 2 to 6 of R233. -/
def State.rewind (s : State) (c : Nat) : State :=
  let s := (s.ctxTiles c).foldl (fun s t => s.dropWork c t) s
  let s := (s.ctxBerths c).foldl (fun s d => s.setBerth d.berth (s.berth d.berth).rewind) s
  let s := (s.ctxBollards c).foldl (fun s b => s.setBollard b (s.bollard b).rewind) s
  let s := ((s.emptyChains c).discardHolds c false).rewindLayers c
  let x := s.ctx c
  let s := s.setCtx c { x with replaying := false, tripReplay := false, replays := x.replays + 1, errs := [], prior := x.errs,
                               barrier := none, eligible := [], owed := [] }
  let s := (s.count 0x5300 10 64 1).put 0x4003 (c + 1) (min 255 (s.attemptOf c + 1))
  let s := if s.secureCtx = c then s.processRequests else s
  (s.ctxTiles c).foldl (fun s t => s.regrant t) s

/-- REPLAY_REWIND: running tasks are complete. A step whose manifest log has overflowed meanwhile cannot be replayed. -/
def execReplayRewind (c : CtxId) (s : State) : Host.Outcome State Fault Refusal :=
  .next (
    let x := s.ctx c.val
    if !x.replaying || s.ctxRuns c.val || s.diagnosing c.val || s.ctxState c.val != 2 then s
    else if x.manLog ≤ manLogMax then s.rewind c.val
    else
      let s := s.setCtx c.val { x with replaying := false, tripReplay := false, errs := [] }
      if x.errs = [] then s.skipUpdate c.val else s.jobFault c.val 0x7005 9 c.val {} [])

/-! ## The end of a step (R219, R232, R237, R239) -/

/-- Trouble found as the step ends moves a layer for the next step, as the next trip would have. -/
def State.endTrouble (s : State) (c i : Nat) (l : LayerDef) : State :=
  let (trig, cs) := s.trouble i
  if trig = 0 then s
  else
    let m := s.moveOf i ((s.ctx c).trips + 1) cs
    let y := s.layer i
    let s := s.setLayer i ({ y with tripStep := true, tripped := true, clean := 0 }.move m)
    s.narrowEv c 0x710A note l.id

/-- A layer climbs one level after RECOVER_STEPS clean steps, never above FORCE_LEVEL nor above FALLBACK while its history is short; as
its history refills it goes to CONFIGURED, where FORCE_LEVEL may still hold it (R232, R239, R240). -/
def State.climb (s : State) (c i : Nat) (l : LayerDef) (refilled : Bool) : State :=
  let y := s.layer i
  let floor := max s.forced (if s.historyShort y ∧ !s.emulating then 1 else 0)
  let up := if s.emulating then 0 else y.level - 1
  let due := s.get 0x5300 6 ≠ 0 ∧ s.get 0x5300 6 ≤ y.clean
  let back : Bool := refilled && y.level == 1 && !y.tripped
  if l.path ≠ 2 ∧ (back = true ∨ (due ∧ up < y.level ∧ floor ≤ up)) then
    let s := s.setLayer i { y with level := up, clean := 0 }
    if s.forced ≤ up then s.narrowEv c 0x7107 note l.id else s
  else s

/-- One layer at the end of a step: evaluation, a late move, the push of its maxima, its count of clean steps, its climb, and the
ranges of the next step. -/
def State.endLayer (s : State) (c : Nat) (i : Nat) (l : LayerDef) : State :=
  let y := s.layer i
  let short := s.historyShort y
  let s := s.setLayer i { y with cin := { y.cin with jit := false }, cout := { y.cout with jit := false }, cgrad := { y.cgrad with jit := false } }
  let s := s.endTrouble c i l
  let y := s.layer i
  let y := match y.pending with
    | some m => { y.move m with pending := none, clean := 0, tripStep := true }
    | none => y
  let y := s.pushLayer y
  let y := { y with clean := if y.tripStep then 0 else min (2 ^ 32 - 1) (y.clean + 1) }
  let s := s.setLayer i y
  let s := s.climb c i l (short && !s.historyShort y)
  let y := s.layer i
  let y := if s.historyShort y then y else { y with tripped := false }
  s.setLayer i { s.startLayer y with gateSeen := false, trip := none, tripStep := false }

/-- The end of a step, as far as layers, tallies and the step's books go. -/
def State.endStep (s : State) (c : Nat) : State :=
  let x := s.ctx c
  let s := (s.ctxLayers c).foldl (fun s l => s.endLayer c l.1 l.2) s
  let s := { s with tallies := s.tallies.map (fun (e : Nat × TallySlot) =>
    if e.1 / 64 = c ∧ e.2.late.isNone then (e.1, { e.2 with late := some (x.gated, x.trips) }) else e) }
  s.setCtx c { s.ctx c with replays := 0, trips := 0, skip := false, gated := false, errs := [], prior := [], dropLogged := false,
                            eligible := [], owed := [], manLog := 0 }

end Sys2Proof.Machine
end

