-- ==== Sys2Proof/Machine/Stream.lean ====
section
/-! DEFINITION. Streaming: doorbells, manifests, the taking and the ends of tasks, signals, fences, barriers with the advance of a step, hangs and ferry chains (R289 to R318). -/

namespace Sys2Proof.Machine

/-! ## Doorbells (R290, R513) -/

def manVaOf (value : Nat) : Nat := value % 2 ^ 48

/-- Reserved bits of a doorbell value are 0. -/
def bellOk (value : Nat) : Bool := decide (value < 2 ^ 48 ∧ value % 4096 = 0)

/-- A doorbell is refused: counted and logged, a job fault of the berth's context, or a warning where no berth is configured. -/
def State.refuseBell (s : State) (d : Option BerthDef) : State :=
  let s := s.count 0x4030 1 64 1
  match d with
  | some d => s.jobFault d.ctx 0x1301 9 d.ctx {} []
  | none => s.logEv (pkgEv 0x1301 warning)

/-- A manifest joins the berth's queue, and the log of the step (R233). -/
def State.acceptBell (s : State) (d : BerthDef) (va : Nat) : State :=
  let b := s.berth d.berth
  let m : Man := ⟨b.nextNo, va, false⟩
  let s := s.setBerth d.berth { b with queue := b.queue ++ [m], log := b.log ++ [m], nextNo := b.nextNo + 1 }
  s.setCtx d.ctx { s.ctx d.ctx with manLog := (s.ctx d.ctx).manLog + 1 }

/-! ## Manifests (R291, R292) -/

def Tile.buffered (x : Tile) (b no : Nat) : Bool := x.bufs.any (fun m => m.berth == b && m.man == no)

/-- The next queued manifest of a berth that is not in a buffer. -/
def State.nextMan (s : State) (t b : Nat) : Option Man := (s.berth b).queue.find? (fun m => !(s.tile t).buffered b m.no)

/-- The berth of highest priority among some; the first in the order given. -/
def topBerth (ds : List BerthDef) : Option BerthDef :=
  let m := ds.foldl (fun n d => max n d.prio) 0
  ds.find? (fun d => d.prio == m)

/-- MANIFEST_FETCH: a burst starts while a buffer of the tile is free. -/
def execManifestFetch (t : TileId) (s : State) : Host.Outcome State Fault Refusal :=
  .next (
    let x := s.tile t.val
    let size := match s.plan with | some p => ((p.tilePart t.val).map (·.mbufs)).getD 0 | none => 0
    if x.fetching.isSome ∨ size ≤ x.bufs.length then s
    else match topBerth ((s.tileBerths t.val).filter (fun d =>
        s.takes d.ctx && decide ((x.bufs.filter (fun m => m.berth == d.berth)).length < 2) && (s.nextMan t.val d.berth).isSome)) with
      | none => s
      | some d => s.work.setTile t.val { x with fetching := some d.berth })

/-- The 64 slots of a manifest; a slot whose data is poisoned is kept with its code, and uncorrectable data is a fault. -/
def State.readSlots (s : State) (t c va : Nat) : Nat → Nat → Except AccFault ((List (List Nat) × List Nat) × State)
  | 0, _ => .ok (([], []), s)
  | n + 1, i =>
    let words (bs : List Byte) : List Nat := (chunks 8 8 bs).map ofLe
    let one : Except AccFault ((List Nat × List Nat) × State) :=
      match s.readVa (some t) c (va + 64 * i) 64 with
      | .ok (bs, s) => .ok ((words bs, []), s)
      | .error (.data pa code) => if code = 0x7003 then .error (.data pa code) else .ok ((words (zeros 64), [65536 * i + code]), s)
      | .error f => .error f
    match one with
    | .error f => .error f
    | .ok ((w, p), s) => match s.readSlots t c va n (i + 1) with
      | .error f => .error f
      | .ok ((ws, ps), s) => .ok ((w :: ws, p ++ ps), s)

/-- A fault on a manifest or its status area serves no task: a job fault of the berth's context (R292, R340). -/
def State.fetchFault (s : State) (t c : Nat) (f : AccFault) : State :=
  match f with
  | .trans code va level w =>
    (s.noteLeaf t c va).transFault c code { va := va, level := level, write := w, tile := t, noTask := true }
  | .data pa code => s.jobFault c code 5 (channelOf pa) { tile := t, noTask := true } []
  | _ => s

/-- The burst is in, and its status area is zeroed where the manifest had not been fetched before. -/
def State.burstIn (s : State) (t : Nat) (d : BerthDef) (m : Man) : Except AccFault State :=
  match s.readSlots t d.ctx m.va 64 0 with
  | .error f => .error f
  | .ok ((ws, ps), s) =>
    match (if m.zeroed then .ok ([], s) else s.writeNow (some t) d.ctx (m.va + 0x1000) (zeros 512)) with
    | .error f => .error f
    | .ok (_, s) =>
      let mark (x : Man) : Man := if x.no = m.no then { x with zeroed := true } else x
      let b := s.berth d.berth
      let s := s.setBerth d.berth { b with queue := b.queue.map mark, log := b.log.map mark }
      let x := s.tile t
      let s := s.setTile t { x with bufs := x.bufs ++ [⟨d.berth, m.no, m.va, ws, ps⟩], fetching := none }
      .ok ((s.count 0x4030 2 64 1).finish t d.berth)

/-- MANIFEST_ARRIVE. -/
def execManifestArrive (t : TileId) (s : State) : Host.Outcome State Fault Refusal :=
  .next (
    let x := s.tile t.val
    let stop (s : State) : State := s.setTile t.val { s.tile t.val with fetching := none }
    match x.fetching with
    | none => s
    | some b => match s.berthDef b, s.nextMan t.val b with
      | some d, some m =>
        (match s.burstIn t.val d m with
         | .ok s => s
         | .error (.stall ls) => s.snoopHeld ls
         | .error f => stop (s.fetchFault t.val d.ctx f))
      | _, _ => stop s)

/-! ## Taking a task (R295, R296, R106, R234) -/

/-- The buffer of a berth's next manifest. -/
def State.curBuf (s : State) (t b : Nat) : Option ManBuf :=
  (s.tile t).bufs.find? (fun m => m.berth == b && m.man == (s.berth b).curMan)

/-- A berth's next task is fetched, and none of its tasks waits or holds at a BARRIER (R313). -/
def State.offers (s : State) (d : BerthDef) : Bool :=
  let b := s.berth d.berth
  s.takes d.ctx && b.waiting.isNone && decide (b.curSlot < 64)
    && !(s.tile d.tile).tasks.any (fun k => k.berth == d.berth && k.opcode == 0x53 && k.st == .handed)
    && match s.curBuf d.tile d.berth with
      | none => false
      | some m => (m.slots.getD b.curSlot []).getD 0 0 != 0 || m.poisoned.any (fun p => p / 65536 == b.curSlot)

/-- Among berths of the highest priority, one task from each in turn. -/
def State.pickBerth (s : State) (t : Nat) : Option BerthDef := (s.turnOrder t ((s.tileBerths t).filter s.offers)).head?

/-- A berth has had its turn among those of its priority. -/
def State.tookTurn (s : State) (d : BerthDef) : State :=
  s.setTile d.tile { s.tile d.tile with lastBerth := mset (s.tile d.tile).lastBerth d.prio d.berth }

/-- Tasks that never run twice in a step (R234). -/
def onceOp (op : Nat) : Bool := [0x40, 0x43, 0x42, 0x78, 0x79, 0x70, 0x02, 0x03, 0x53].contains op
def gatedOp (op : Nat) : Bool := [0x68, 0x69, 0x6A, 0x23].contains op

/-- A task at a position that completed in an earlier attempt runs as a no-op (R234). -/
def State.replayNoop (s : State) (k : Task) : Bool :=
  let now := s.attemptOf k.ctx
  (s.berth k.berth).completed.any (fun e => e.1 == k.man * 64 + k.slot && decide (e.2 < now))
    && (onceOp k.opcode || (gatedOp k.opcode && match s.layerOf k with
      | none => false
      | some (i, _) => match (s.layer i).gate with
        | none => false
        | some a => decide (a < now)))

/-- Words that name the berth's own context, for the books of a task that is not run. -/
def ownWords (d : BerthDef) (ws : List Nat) : List Nat := [setBits (ws.getD 0 0) 31 26 d.ctx] ++ ws.drop 1

/-- A rejected descriptor: STATE 3, and a job fault of the berth's context (R106). -/
def State.reject (s : State) (d : BerthDef) (k : Task) (code : Nat) : State :=
  let k := { k with words := ownWords d k.words, endState := 3, code := code }
  let s := (s.bookEnd d.tile k).finish d.tile d.berth
  s.jobFault d.ctx code 9 d.ctx { tile := d.tile, opcode := k.opcode } []

/-- A task whose slot is poisoned aborts before it is validated; nothing of its words is used (R292). -/
def State.takePoisoned (s : State) (d : BerthDef) (k : Task) (code : Nat) : State :=
  let k := { k with words := [d.ctx * 2 ^ 26 + d.prio * 2 ^ 24] }
  let pa := match s.placeOf (some d.tile) d.ctx [(k.manVa + 64 * k.slot, 64)] false with
    | p :: _ => p.1
    | [] => 0
  s.abort d.tile k (.data pa code)

/-- A validated task stands at its bollards, or is taken at once. -/
def State.standBy (s : State) (d : BerthDef) (k : Task) : State :=
  let s := s.setBerth d.berth { s.berth d.berth with waiting := some k }
  let s := k.waits.foldl (fun s w => s.setBollard w.1 { s.bollard w.1 with waits := (s.bollard w.1).waits ++ [d.berth] }) s
  s.regrant d.tile

/-- TASK_TAKE. -/
def execTaskTake (t : TileId) (s : State) : Host.Outcome State Fault Refusal :=
  .next (match s.pickBerth t.val with
    | none => s
    | some d => match s.curBuf t.val d.berth with
      | none => s
      | some m =>
        let s := s.work
        let b := s.berth d.berth
        let k := Task.fresh s.nextTask (m.slots.getD b.curSlot []) d.berth m.man m.va b.curSlot
        let s := { s with nextTask := s.nextTask + 1 }.setBerth d.berth { b with curSlot := b.curSlot + 1 }
        match m.poisoned.find? (fun p => p / 65536 == k.slot) with
        | some p => (s.tookTurn d).takePoisoned d k (p % 65536)
        | none =>
          let code := s.validate d k
          if code ≠ 0 then (s.tookTurn d).reject d k code
          else (s.standBy d (s.withUses t.val { k with noop := k.zeroAmount || s.replayNoop k })).finish t.val d.berth)

/-! ## Transfers and ends (R293, R296, R308) -/

/-- TRANSFER_ACK: an entry of a task's transfers is free again. -/
def execTransferAck (t : TileId) (task : Nat) (s : State) : Host.Outcome State Fault Refusal :=
  .next (match s.findTask t.val task with
    | none => s
    | some k =>
      if k.outstanding = 0 then s
      else ((s.modTask t.val task (fun k => { k with outstanding := k.outstanding - 1 })).issue t.val).settleLoad t.val task)

def Task.sigTarget (k : Task) : Nat := bits (k.w 6) 63 48
def Task.sigTargetBol (k : Task) : Nat := bits (k.w 6) 47 32
def Task.sigTargetInc (k : Task) : Nat := bits (k.w 6) 31 0
def Task.sigVc (k : Task) : Nat := bits (k.w 7) 63 56

/-- What the end of a task does besides its books: a local SIGNAL raises its target, a delivered bucket lands. -/
def State.endEffects (s : State) (k : Task) : State :=
  if k.noop then s
  else
    let s := match k.landing with
      | some (i, _) => s.bucketLanded i
      | none => s
    if k.opcode = 0x50 ∧ k.sigTarget = 0xFFFF then s.raise k.sigTargetBol k.sigTargetInc false else s

/-- A task that will not signal. -/
def Task.mute (k : Task) : Task := { k with words := k.words.set 1 k.waitThr }

/-- TASK_END: the next task of the tile has finished its work, and every answer it waits for is in. A sampled task is copied;
where the copy faults, the task ends and never signals (R340). -/
def execTaskEnd (t : TileId) (s : State) : Host.Outcome State Fault Refusal :=
  .next (match (s.tile t.val).tasks.find? (fun k => k.st != .handed) with
    | none => s
    | some k =>
      if !k.worked ∨ k.gate = 1 ∨ !(k.express || k.unanswered.isEmpty) then s
      else match (if k.noop then .ok s else s.considerSample t.val k) with
        | .ok s => (s.endTask t.val ((s.findTask t.val k.id).getD k)).endEffects k
        | .error f => (((s.countEligible t.val k).endTask t.val k.mute).endEffects k).fetchFault t.val k.ctx f)

/-- The slot copy of a sampled task is still under way. -/
def State.copyPending (s : State) (k : Task) : Bool := match k.sample with
  | none => false
  | some i => match s.tallyOf (k.ctx * 64 + i) with
    | none => false
    | some e => e.copying && e.task.id == k.id

/-- TASK_SIGNAL: the oldest ended task of the tile, its writes acknowledged, raises its bollard. -/
def execTaskSignal (t : TileId) (s : State) : Host.Outcome State Fault Refusal :=
  .next (match (s.tile t.val).ending with
    | [] => s
    | k :: rest =>
      if k.outstanding ≠ 0 ∨ k.unissued ≠ 0 ∨ !(k.express || k.unanswered.isEmpty) ∨ s.copyPending k then s
      else
        let s := s.setTile t.val { s.tile t.val with ending := rest }
        (k.signals.foldl (fun s g => s.raise g.1 g.2 false) s).regrant t.val)

/-! ## SIGNAL, WAIT and FENCE (R305, R310, R311) -/

def noWork (s : State) (_ : Nat) (_ : Task) : Except AccFault (State × Nat) := .ok (s, 0)

/-- A SIGNAL to another package is one message, answered at its destination. -/
def signalRun (s : State) (t : Nat) (k : Task) : Except AccFault (State × Nat) :=
  if k.sigTarget = 0xFFFF then .ok (s, 0)
  else match s.mayRoute k.ctx s.ownDom k.sigTarget k.sigVc with
    | .error f => .error f
    | .ok port =>
      let (xid, s) := s.newTid t
      let m := { s.message 0x05 k.sigVc s.ownDom k.sigTarget k.ctx xid with
        last := true, bollard := k.sigTargetBol, increment := k.sigTargetInc }
      .ok ((s.awaits t k.id xid).sendXfer (.task t k.id) k.ctx s.ownDom k.sigTarget port xid false [m], 0)

/-- SIGNAL. -/
def execSignal (t : TileId) (s : State) : Host.Outcome State Fault Refusal :=
  .next (s.runTask t.val 0x50 (fun k => !k.worked) ⟨noReads, fun _ _ => [], signalRun⟩)

/-- WAIT: both its waits were granted when it was taken; nothing is left to do. -/
def execWait (t : TileId) (s : State) : Host.Outcome State Fault Refusal :=
  .next (s.runTask t.val 0x51 (fun k => !k.worked) ⟨noReads, fun _ _ => [], noWork⟩)

/-- Writes of earlier tasks of the berth are all acknowledged, those of express multicasts among them. -/
def State.fenceMet (s : State) (t : Nat) (k : Task) : Bool :=
  let x := s.tile t
  (x.ending ++ x.tasks.takeWhile (fun y => y.id != k.id)).all (fun y => y.berth != k.berth || (y.outstanding == 0 && y.unissued == 0 && y.unanswered.isEmpty))
    && s.fabric.relays.all (fun r => match r.task with
      | none => true
      | some (t', b, _) => t' != t || b != k.berth || r.floor == r.count)

/-- FENCE: it starts, and holds its berth. -/
def execFence (t : TileId) (s : State) : Host.Outcome State Fault Refusal :=
  .next (match s.headOf t.val 0x52 with
    | none => s
    | some k => if k.st = .taken then ((s.work.startedAs t.val k [] []).setTask t.val { k with st := .running }).regrant t.val else s)

/-- FENCE_DONE. -/
def execFenceDone (t : TileId) (s : State) : Host.Outcome State Fault Refusal :=
  .next (match s.headOf t.val 0x52 with
    | none => s
    | some k => if k.st = .running ∧ s.fenceMet t.val k then s.setTask t.val { k with worked := true } else s)

/-! ## BARRIER and the advance of a step (R312 to R316) -/

def Task.barAdvance (k : Task) : Bool := bit (k.w 6) 63
def Task.barSeq (k : Task) : Nat := bits (k.w 6) 31 0

/-- Re-alignment of one bollard to its BARRIER_EXPECT; waits that it meets are granted (R316). -/
def State.realignOne (s : State) (c expect b : Nat) : State :=
  let x := s.bollard b
  if x.count = expect then s
  else
    let diff : Int := (x.count : Int) - expect
    let s := (s.count 0x4030 9 64 1).logEv (s.ctxEv c 0x1303 note 10 b ([0, 0] ++ leBytes 8 (ofSigned 64 diff)))
    (s.setBollard b { x with count := expect }).grantGo (70 * (s.berths.length + 64)) [b]

def State.realign (s : State) (c : Nat) : State := match s.plan with
  | none => s
  | some p => (p.bollards.filter (fun b => b.ctx == c && b.expect != 0xFFFFFFFF)).foldl (fun s r =>
      (List.range r.count).foldl (fun s i => s.realignOne c r.expect (r.first + i)) s) s

/-- The position of a berth: the task it takes next, or the one that waits. -/
def Berth.position (b : Berth) : Nat × Nat := match b.waiting with
  | some k => (k.man, k.slot)
  | none => (b.curMan, b.curSlot)

def Berth.takeMark (b : Berth) : Berth :=
  let (m, i) := b.position
  { b with markMan := m, markSlot := i, log := b.queue.filter (fun x => decide (m ≤ x.no)), completed := [] }

/-- New step marks (R233). -/
def State.takeMarks (s : State) (c : Nat) : State :=
  let s := (s.ctxBerths c).foldl (fun s d => s.setBerth d.berth (s.berth d.berth).takeMark) s
  (s.ctxBollards c).foldl (fun s b => s.setBollard b { s.bollard b with mark := (s.bollard b).count, ext := 0 }) s

/-- Chunks loaded and not consumed are discarded with 0x1309 (R304). -/
def State.dropChunks (s : State) (c : Nat) : State :=
  let left (d : ChainDef) : Bool := (s.members d.id).any (fun m => decide (m.released < m.loaded))
  let s := if (s.ctxChains c).any left then s.logEv (s.ctxEv c 0x1309 warning 9 c) else s
  s.emptyChains c

/-- The step ends (R313): evaluation and maxima, holds, chains, the step number, the attempt, marks; multicasts that every child
has acknowledged are forgotten; a copy that is due opens (R436). -/
def State.advanceStep (s : State) (c : Nat) : State :=
  let s := ((s.endStep c).discardHolds c true).dropChunks c
  let last := s.stepOf c
  let s := (s.put 0x4001 (c + 1) ((last + 1) % 2 ^ 64)).put 0x4003 (c + 1) 0
  let s := s.takeMarks c
  let s := { s with fabric := { s.fabric with relays := s.fabric.relays.filter (fun r =>
    !(r.ctx == c && r.task.isSome && r.last && r.floor == r.count)) } }
  s.openDue c last

/-- A BARRIER ends and signals; what that grants comes once every BARRIER has signalled (R313). -/
def State.barrierEnd (s : State) (b : Nat) : State :=
  match s.berthDef b with
  | none => s
  | some d => match (s.tile d.tile).tasks.find? (fun k => k.berth == b && k.opcode == 0x53 && k.st == .handed) with
    | none => s
    | some k =>
      let s := ((s.dropTask d.tile k).bookEnd d.tile { k with endState := 1 }).finish d.tile b
      k.signals.foldl (fun s g => s.bump g.1 g.2 false) s

/-- The last participant has arrived (R313). -/
def State.barrierJoin (s : State) (c : Nat) (x : BarSt) : State :=
  let epoch := (s.epochOf c + 1) % 2 ^ 32
  let s := (s.put 0x4002 (c + 1) epoch).setCtx c { s.ctx c with barrier := none }
  let s := if epoch % max 1 (s.get 0x4000 3) = 0 then s.realign c else s
  let s := if x.advance then s.advanceStep c else s
  let s := s.count 0x4030 10 64 1
  (x.arrived.foldl (fun s b => s.barrierEnd b) s).wakeCtx c

/-- A BARRIER arrives: it must carry the first arrival's sequence number; the last participant's completes the barrier, unless a
data error of the step awaits its replay (R423). -/
def State.barrierArrive (s : State) (t : Nat) (k : Task) : State :=
  let c := k.ctx
  let s := s.work.setTask t { k with worked := true }
  let x : BarSt := match (s.ctx c).barrier with
    | none => ⟨k.barSeq, [], false⟩
    | some x => x
  if x.seq ≠ k.barSeq then s.jobFault c 0x1305 9 c { tile := t, opcode := 0x53 } []
  else
    let x := { x with arrived := x.arrived ++ [k.berth], advance := x.advance || k.barAdvance }
    let s := s.setCtx c { s.ctx c with barrier := some x }
    let all := (s.ctxBerths c).all (fun d => decide (d.prio = 3) || x.arrived.contains d.berth)
    if all ∧ (s.ctx c).errs = [] ∧ !(s.ctx c).tripReplay then s.barrierJoin c x else s.regrant t

/-- BARRIER: one that the tile has taken reaches the harbourmaster. -/
def execBarrier (t : TileId) (s : State) : Host.Outcome State Fault Refusal :=
  .next (match (s.tile t.val).tasks.find? (fun k => k.opcode == 0x53 && k.st == .handed && !k.worked && s.takes k.ctx) with
    | none => s
    | some k => s.barrierArrive t.val k)

/-! ## BERTH_FLUSH (R294) -/

/-- A task of a fetched manifest that has not been taken is cancelled. -/
def State.cancelSlot (s : State) (d : BerthDef) (m : ManBuf) (i : Nat) : State :=
  let k := Task.fresh s.nextTask (ownWords d (m.slots.getD i [])) d.berth m.man m.va i
  { s with nextTask := s.nextTask + 1 }.bookEnd d.tile { k with endState := 6 }

/-- Slots of a buffered manifest from one on, up to its terminator. -/
def ManBuf.slotsFrom (m : ManBuf) (i : Nat) : List Nat :=
  (List.range 64).dropWhile (fun j => decide (j < i)) |>.takeWhile (fun j =>
    (m.slots.getD j []).getD 0 0 != 0 || m.poisoned.any (fun p => p / 65536 == j))

def State.flushBerth (s : State) (d : BerthDef) : State :=
  let t := d.tile
  let b := d.berth
  let s : State := match (s.berth b).waiting with
    | none => s
    | some k =>
      let s := k.waits.foldl (fun (s : State) w => s.setBollard w.1 { s.bollard w.1 with waits := (s.bollard w.1).waits.filter (· != b) }) s
      (s.setBerth b { s.berth b with waiting := none }).bookEnd t { k with endState := 6 }
  let s := (((s.tile t).tasks.filter (fun k => k.berth == b && k.st == .taken))).foldl (fun (s : State) k => s.cancel t 0 k) s
  let x : Berth := s.berth b
  let bufs := (s.tile t).bufs.filter (fun m => m.berth == b && decide (x.curMan ≤ m.man))
  let s := bufs.foldl (fun (s : State) m =>
    (m.slotsFrom (if m.man = x.curMan then x.curSlot else 0)).foldl (fun (s : State) i => s.cancelSlot d m i) s) s
  let x : Berth := s.berth b
  let dropped := (x.queue.filter (fun m => !(s.tile t).buffered b m.no)).map (·.no)
  let s := s.setBerth b { x with queue := x.queue.filter (fun m => !dropped.contains m.no), log := x.log.filter (fun m => !dropped.contains m.no),
                                 curMan := x.nextNo, curSlot := 0 }
  let s := s.setTile t { s.tile t with fetching := if (s.tile t).fetching = some b then none else (s.tile t).fetching }
  let awaited := (d.berth :: (s.ctxBerths d.ctx).map (·.berth)).flatMap (fun b => match (s.berth b).waiting with
    | some k => k.waits.map (·.1)
    | none => [])
  ((s.finish t b).settle awaited).regrant t

def State.flushEff (s : State) (b : Nat) : Except Nat State :=
  match (if s.loaded then s.berthDef b else none) with
  | none => .error 0xA007
  | some d => .ok (s.flushBerth d)

/-- BERTH_FLUSH. -/
def execBerthFlush (src : Src) (berth : Nat) (s : State) : Host.Outcome State Fault Refusal :=
  .next (s.guarded src 0x4021 0 (leBytes 2 berth) (fun v s => s.flushEff v))

/-! ## Hangs (R318) -/

/-- A bollard that holds a waiting task of a tile back: the first whose threshold is not met or that an earlier wait stands on. -/
def State.heldWait (s : State) (t : Nat) : Option (Task × Nat) :=
  (s.tileBerths t).findSome? (fun d => match (s.berth d.berth).waiting with
    | none => none
    | some k => match k.waits.find? (fun w => !(decide (w.2 ≤ (s.bollard w.1).count) && (s.bollard w.1).waits.head? == some d.berth)) with
      | none => none
      | some w => some (k, w.1))

/-- The chain slot that holds the next task of a tile back. -/
def State.heldSlot (s : State) (t : Nat) : Option (Task × FerrySlot) :=
  match (s.tile t).next with
  | some (k, none) =>
    if k.st ≠ .taken ∧ k.st ≠ .running ∨ k.worked ∨ k.noop then none
    else
      let reads := s.ownHits t (s.placeOf (some t) k.ctx (s.reads t k) false)
      let writes := s.placeOf (some t) k.ctx (s.writes t k) true
      match reads.find? (fun x => !s.slotReady reads x) with
      | some x => some (k, x)
      | none => match s.ferryWrite t k.chainLoad writes with
        | .error .wait => (s.ownHits t writes).head?.map (fun x => (k, x))
        | _ => none
  | _ => none

def State.hang (s : State) (c kind what slot tile opcode : Nat) : State :=
  s.jobFault c 0x1304 9 c { tile := tile % 4096, opcode := opcode }
    ([0, 0] ++ leBytes 1 kind ++ leBytes 2 what ++ leBytes 1 slot ++ leBytes 2 tile)

/-- HANG_TIMEOUT: something has held a task for 0x4000:02, and still holds it. -/
def execHangTimeout (w : HangKind) (t : TileId) (s : State) : Host.Outcome State Fault Refusal :=
  .next (if !s.loaded then s else match w with
    | .wait => (match s.heldWait t.val with
      | none => s
      | some (k, b) => s.hang k.ctx 0 b 0 t.val k.opcode)
    | .chainSlot => (match s.heldSlot t.val with
      | none => s
      | some (k, x) => s.hang k.ctx 1 x.chain x.slot t.val k.opcode)
    | .fence => (match s.headOf t.val 0x52 with
      | none => s
      | some k => if k.st = .running ∧ !s.fenceMet t.val k then s.hang k.ctx 2 0 0 t.val 0x52 else s)
    | .barrier => (match (s.tile t.val).tasks.find? (fun k => k.opcode == 0x53 && k.st == .handed) with
      | none => s
      | some k => s.hang k.ctx 3 0 0 t.val 0x53)
    | .invalidation => (match s.inval with
      | none => s
      | some i => s.hang i.ctx 4 0 0 0xFFFF 0))

/-! ## Ferry chains (R302) -/

/-- FERRY_FORWARD: the next loaded chunk of a member starts towards the next one, whose slot is free. -/
def execFerryForward (chain member : Nat) (s : State) : Host.Outcome State Fault Refusal :=
  .next (match s.chainDef chain with
    | none => s
    | some d =>
      let m := s.member chain member
      if !s.operating || !s.loaded || m.moving || decide (d.tiles.length ≤ member + 1) || decide (m.loaded ≤ m.forwarded)
          || !s.slotFree chain (member + 1) m.forwarded then s
      else s.setMember chain member { m with moving := true })

/-- A range of one tile's SRAM is copied to another: bytes, poison, and what is known of stored formats. -/
def State.moveBytes (s : State) (src dst n : Nat) : State :=
  let bad := s.poison.filter (fun e => decide (src ≤ e.1 ∧ e.1 < src + n))
  let fmts := s.stored.filter (fun e => decide (src ≤ e.1 ∧ e.1 < src + n))
  let s := s.writeAt dst (s.bytesAt src n)
  { s with poison := bad.foldl (fun m e => mset m (dst + (e.1 - src)) e.2) s.poison,
           stored := fmts.foldl (fun m e => mset m (dst + (e.1 - src)) e.2) s.stored }

def State.slotAddr (s : State) (t chain slot : Nat) : Nat :=
  tileAddr t ((((s.slotsOf t).find? (fun x => x.chain == chain && x.slot == slot)).map (·.off)).getD 0)

/-- FERRY_FORWARD_DONE: the chunk is loaded at the next member. -/
def execFerryForwardDone (chain member : Nat) (s : State) : Host.Outcome State Fault Refusal :=
  .next (match s.chainDef chain with
    | none => s
    | some d =>
      let m := s.member chain member
      match d.tiles[member]?, d.tiles[member + 1]? with
      | some a, some b =>
        if !m.moving then s
        else
          let slot := m.forwarded % max 1 d.credits
          let s := s.moveBytes (s.slotAddr a chain slot) (s.slotAddr b chain slot) ferryBytes
          let s := s.setMember chain member { m with forwarded := m.forwarded + 1, moving := false }
          let n := s.member chain (member + 1)
          s.setMember chain (member + 1) { n with loaded := n.loaded + 1 }
      | _, _ => s)

/-! ## The doorbell window (R290, R322, R513) -/

/-- 0x4020 STATE of a berth. A task that RUN_AHEAD alone holds waits on no bollard (R296, R322). -/
def State.berthPhase (s : State) (d : BerthDef) : Nat :=
  let b := s.berth d.berth
  let x := s.tile d.tile
  let slotHeld := match s.heldSlot d.tile with
    | some (k, _) => k.berth == d.berth
    | none => false
  if s.ctxState d.ctx = 1 ∨ s.ctxState d.ctx = 3 then 4
  else if (match b.waiting with | some k => !s.waitMet d.berth k | none => false) || slotHeld || x.tasks.any (fun k => k.berth == d.berth && k.opcode == 0x52 && k.st == .running) then 3
  else if b.queue != [] || (x.tasks ++ x.ending).any (fun k => k.berth == d.berth) then 2
  else 1

/-- The 8 bytes a doorbell reads as: STATE, then QUEUED. -/
def State.bellWord (s : State) (berth : Nat) : List Byte :=
  match s.berthDef berth with
  | none => zeros 8
  | some d => leBytes 1 (s.berthPhase d) ++ leBytes 1 ((s.berth berth).queue.length) ++ zeros 6

/-- DOORBELL: a write into BAR2, or a read of it (`none`), which changes nothing; what lies beyond the doorbells ignores a write and
reads 0. -/
def execDoorbell (port : HostPort) (offset size : Nat) (value : Option Nat) (s : State) : Host.Outcome State Fault Refusal :=
  .next (if !s.linkUp port.val ∨ !(s.operating || s.power.pst == .nap) then s
    else match value with
      | none =>
        let w := if 0x10000 ≤ offset then zeros 8 else s.bellWord (offset / 8)
        s.emit (.winData port.val (sub_ (w ++ zeros 8) (offset % 8) size))
      | some v =>
        if 0x10000 ≤ offset then s
        else
          match (if s.loaded then s.berthDef (offset / 8) else none) with
          | none => s.refuseBell none
          | some d =>
            if size ≠ 8 ∨ offset % 8 ≠ 0 ∨ !bellOk v ∨ d.depth ≤ (s.berth d.berth).queue.length then s.refuseBell (some d)
            else (s.napWake.work).acceptBell d (manVaOf v))

end Sys2Proof.Machine
end

