-- ==== Sys2Proof/Machine/Plan.lean ====
section
/-! DEFINITION. Loading and unloading a stowage plan (R82 to R88, R103). -/

namespace Sys2Proof.Machine

/-! ## LOAD: validation (R84, R86, R103) -/

/-- The device's own objects that validation compares with. -/
def State.planEnv (s : State) : PlanEnv :=
  { length := s.get 0x2400 2,
    absentTiles := (List.range 2304).filter (fun t => decide (2 ≤ s.tileState t)),
    retiredDocks := s.retiredDocks.map (·.1), failedPorts := s.failedPorts.map (·.1),
    domainId := s.ownDom, packageIndex := s.ownPkg, powerDomain := s.get 0x2210 0,
    override := s.get 0x8200 5 == 1 }

/-- The outcome of a LOAD: PLAN_STATE, PLAN_RESULT and the place of a failure. -/
def State.planOutcome (s : State) (st code sec entry : Nat) : State :=
  (((s.put 0x2400 4 st).put 0x2400 5 code).put 0x2400 6 sec).put 0x2400 7 entry

/-- A failed load leaves no plan, and is logged once (R103). -/
def State.planFail (s : State) (e : PlanErr) : State :=
  let s := { s.planOutcome 0 e.code e.section_ e.entry with plan := none }
  let s := s.logEv (pkgEv e.code warning (leBytes 2 e.section_ ++ leBytes 4 e.entry))
  s.heldSleep

/-- The partner of the image lies in the package's own power domain, without the override (R442). -/
def State.samePower (s : State) (img : List Byte) : Bool :=
  match secOf (readSecs img) 11 with
  | none => false
  | some x => match readPartner 0 0 (sub_ img x.off 16) with
    | .ok q => q.powerDom == s.get 0x2210 0 && s.get 0x8200 5 != 1
    | .error _ => false

/-- LOAD: the image is copied and validated; what passes is configured. -/
def State.loadPlan (s : State) : State :=
  let a := s.get 0x2400 1
  let n := s.get 0x2400 2
  if a % 4096 ≠ 0 ∨ n < 128 ∨ 67108864 < n ∨ reservedBase < a + n then s.planFail ⟨0x1101, 0xFFFF, 0xFFFFFFFF⟩
  else
    let img := s.bytesAt a n
    match validatePlan img s.planEnv with
    | .error e =>
      let s := s.planFail e
      if e.code = 0x1111 ∧ s.samePower img then s.logEv { code := 0x7017, severity := warning, kind := 9, id := 0xFF } else s
    | .ok p => { s.planOutcome 2 0 0xFFFF 0xFFFFFFFF with plan := some p }

/-- PLAN_LOAD: PLAN_COMMAND LOAD, whose write condition is idle. -/
def State.planLoadEff (s : State) : Except Nat State := if s.planLoaded then .error 0xA009 else .ok s.loadPlan

def execPlanLoad (src : Src) (s : State) : Host.Outcome State Fault Refusal :=
  .next (s.guarded src 0x2400 3 [1] (fun _ s => s.planLoadEff))

/-! ## The end of CONFIGURING (R85) -/

/-- Contexts of the plan start their step, epoch and attempt at 0 (R314). -/
def State.freshCtx (s : State) (c : Nat) : State :=
  (((s.put 0x4001 (c + 1) 0).put 0x4002 (c + 1) 0).put 0x4003 (c + 1) 0).setCtx c CtxSt.empty

/-- Bollards start at their INITIAL counts (R97). -/
def freshBollards (p : Plan) : AMap Bollard :=
  p.bollards.foldl (fun m r => (List.range r.count).foldl (fun m i => mset m (r.first + i) ⟨r.initial, r.initial, 0, []⟩) m) []

/-- The ports of the FABRIC section train, a fairway sending who this side is; every other port is off (R357, R368, R371). -/
def State.planPorts (s : State) (p : Plan) : State :=
  iter 32 (fun i s =>
    let mode := ((p.fabric.find? (fun f => f.port == i)).map (·.mode)).getD 0
    let s := (s.put (portIdx i) 1 mode).put (portIdx i) 2 (if mode = 0 then 0 else 1)
    let s := (s.put (portIdx i) 3 0xFFFFFFFF).put (portIdx i) 4 0xFFFF
    if mode = 2 then s.emit (.linkTrain i s.ownDom s.ownPkg) else s) s

/-- Versions start again, and REFIT_SUSPECT has served (R163, R162). -/
def Dock.freshPlan (x : Dock) : Dock := { x with version := 0 }

/-- Everything that a plan configures. Contents that a download left while no plan was loaded, in objects that the load fills or
whose size the plan gives, go (R85, R242, R368, R418). -/
def State.configure (s : State) (p : Plan) : State :=
  let gone : List Nat := [key 0x5102 0, key 0x5110 0, key 0x7000 0, key 0x8010 0]
  let s := { s with blobs := s.blobs.filter (fun e => !gone.contains e.1), tlbs := [] }
  let s := { s with tiles := [], berths := [], bollards := freshBollards p, chains := [], tallies := [], outvoted := [],
                    fabric := { Fabric.reset with nextSeq := s.fabric.nextSeq }, layers := [], stored := [], weigh := Weigh.reset, holds := [], mvms := [],
                    docks := s.docks.map (fun (e : Nat × Dock) => (e.1, e.2.freshPlan)) }
  let s := p.contexts.foldl (fun s c => s.freshCtx c) s
  let s := p.layers.zipIdx.foldl (fun s x => s.setLayer x.2 (s.freshLayer x.1 LayerSt.empty)) s
  let s := (s.planPorts p).put 0x6200 7 0
  (s.put 0x6100 1 (if p.zd1 then 1 else 0)).put 0x2400 8 p.planId

/-- PLAN_LOAD_COMPLETE: LOADED, and IDLE from READY (R487); a SLEEP that was held takes effect (R88). -/
def execPlanLoadComplete (s : State) : Host.Outcome State Fault Refusal :=
  .next (match s.plan with
    | none => s
    | some p =>
      if s.get 0x2400 4 ≠ 2 then s
      else
        let s := (s.configure p).put 0x2400 4 3
        (if s.power.pst = .ready then s.setPst .idle else s).heldSleep)

/-- PLAN_CONFIG_WRITE_FAIL (R86): what was written is returned to its state before the load. -/
def execPlanConfigWriteFail (s : State) : Host.Outcome State Fault Refusal :=
  .next (if s.get 0x2400 4 = 2 then s.planFail ⟨0x1114, 0xFFFF, 0xFFFFFFFF⟩ else s)

/-! ## UNLOAD (R87) -/

/-- UNLOAD is accepted in LOADED while every context that the plan names is halted; debug access, which relaxes write
conditions, has no part in it. PLAN_ID_LOADED reads 0 from then on (R82). -/
def State.unloadEff (s : State) : Except Nat State :=
  if s.loaded && s.planContexts.all (fun c => s.standsStill c) then .ok ((s.abandonCopy.put 0x2400 4 4).put 0x2400 8 0)
  else .error 0xA009

/-- PLAN_UNLOAD. -/
def execPlanUnload (src : Src) (s : State) : Host.Outcome State Fault Refusal :=
  .next (s.guarded src 0x2400 3 [2] (fun _ s => s.unloadEff))

/-- An open refit pass is discarded: each row that it has programmed becomes suspect. -/
def Dock.discardPass (x : Dock) : Dock :=
  match x.pass with
  | none => { x with job := none }
  | some p => { x with pass := none, job := none, suspect := x.suspect ++ p.rows.filter (fun r => !x.suspect.contains r) }

/-- Calibrations go on, with no bollard to raise. -/
def CalReq.orphan (r : CalReq) : CalReq := { r with dones := [] }

/-- The objects that a plan sets return to their defaults (R85, R385, R418). -/
def State.planDefaults (s : State) : State :=
  let gone := [key 0x5110 0, key 0x5102 0, key 0x7000 0, key 0x7110 0, key 0x8010 0]
  let s := { s with blobs := s.blobs.filter (fun e => !gone.contains e.1) }
  let s := iter 255 (fun i s => s.put 0x7100 (i + 1) 0xFFFF) s
  let s := iter 32 (fun i s => (s.put (portIdx i) 1 0).put (portIdx i) 2 0) s
  (s.put 0x6100 1 0).put 0x2400 8 0

/-- Tiles, berths, bollards, holds, passes and objects return to the unloaded state. -/
def State.unconfigure (s : State) : State :=
  let s := { s with plan := none, tiles := [], tlbs := [], berths := [], bollards := [], chains := [], ctxs := [], tallies := [], outvoted := [],
                    fabric := { Fabric.reset with nextSeq := s.fabric.nextSeq }, layers := [], stored := [], weigh := Weigh.reset, holds := [], mvms := [],
                    secure := { s.secure with copy := none, deferred := none },
                    docks := s.docks.map (fun (e : Nat × Dock) => (e.1, e.2.discardPass)),
                    cals := s.cals.map (fun (e : Nat × List CalReq) => (e.1, e.2.map CalReq.orphan)),
                    dieCals := s.dieCals.map (fun (e : Nat × DieCal) => (e.1, { e.2 with dones := [] })) }
  let s := if s.get 0x8201 3 = 0 then s else (s.put 0x8201 3 0).put 0x8201 7 0
  s.planDefaults

/-- The contents of every hold tier are discarded: the regions take free bytes where they are held (R87, R284). -/
def State.discardAllHolds (s : State) : State := s.planContexts.foldl (fun s c => s.discardHolds c false) s

/-- A swap still running at the end of an unload is finished first (R441); a commit that is not acknowledged is none. -/
def State.swapOut (s : State) : State := match s.secure.copy with
  | none => s
  | some cp => s.swapEnd { cp with committed := cp.committed && cp.stage == 4 }

/-- PLAN_UNLOAD_COMPLETE: NONE, and READY from IDLE or RUN (R487). -/
def execPlanUnloadComplete (s : State) : Host.Outcome State Fault Refusal :=
  .next (if s.get 0x2400 4 ≠ 4 then s
    else
      let s := s.swapOut.discardAllHolds.unconfigure.put 0x2400 4 0
      let s := if s.power.pst = .idle ∨ s.power.pst = .run then s.setPst .ready else s
      s.heldSleep)

end Sys2Proof.Machine
end

