-- ==== Sys2Proof/Machine/Dict.lean ====
section
/-! DEFINITION. What a read of any object of the dictionary returns: scalars, strings and DOMAINs (R39, R46, R66, R75, R321, R322). -/

namespace Sys2Proof.Machine

/-! ## Scalars -/

/-- The value of a scalar object: the one in force, or, of an object that reports other state, what it reports. -/
def State.scalarVal (s : State) (idx sub : Nat) : Nat :=
  if idx = 0x4010 ∧ sub = 2 then (s.bollard (s.get 0x4010 1)).count
  else if idx = 0x4010 ∧ sub = 3 then (s.bollardOwner (s.get 0x4010 1)).getD 0xFF
  else if idx = 0x4010 ∧ sub = 4 then (s.bollard (s.get 0x4010 1)).waits.length
  else if idx = 0x7050 ∧ sub = 0 then s.timer % 2 ^ 64
  else if 0x9100 ≤ idx ∧ idx ≤ 0x913F ∧ sub = 7 then ofSigned 32 (s.filt (idx - 0x9100)).y
  else if 0x9100 ≤ idx ∧ idx ≤ 0x913F ∧ sub = 8 then
    let f := s.filt (idx - 0x9100)
    (if f.hi then 1 else 0) + (if f.lo then 2 else 0) + (if f.sampled then 4 else 0)
  else if idx = 0xA001 ∧ sub = 2 then s.log.oldest
  else if idx = 0xA001 ∧ sub = 4 then s.log.nextSeq - 1
  else s.get idx sub

/-- The UTF-8 bytes of an ASCII string. -/
def ascii (x : String) : List Byte := x.toList.map (fun c => BitVec.ofNat 8 c.toNat)

/-- VSTRING objects (R66). -/
def State.stringVal (s : State) (idx sub : Nat) : List Byte :=
  if idx = 0x1008 then ascii "Spaide"
  else if idx = 0x100A then mgetD s.blobs (key 0x100A 0) []
  else if sub = 2 then Config.orderCode
  else if sub = 3 then ascii "B0"
  else Config.serial

/-! ## DOMAINs -/

def State.berthEntry (s : State) (n : Nat) : List Byte :=
  match s.berthDef n with
  | none => leBytes 2 0xFFFF ++ zeros 14
  | some d =>
    let b := s.berth n
    leBytes 2 d.tile ++ leBytes 1 d.ctx ++ leBytes 1 d.prio ++ leBytes 1 d.depth ++ leBytes 1 b.queue.length ++ leBytes 1 (s.berthPhase d)
      ++ [0] ++ leBytes 4 b.ended ++ leBytes 2 b.lastCode ++ zeros 2

/-- 0x4020 BERTH_STATE. -/
def State.berthStates (s : State) : List Byte := (List.range 8192).flatMap s.berthEntry

/-- 0x4011 BOLLARD_COUNTS. -/
def State.bollardCounts (s : State) : List Byte := (List.range 65536).flatMap (fun b => leBytes 4 (s.bollard b).count)

/-- Insert an entry before the first of a higher SEQ. -/
def insertEntry (e : LogEntry) : List LogEntry → List LogEntry
  | [] => [e]
  | x :: r => if e.seq ≤ x.seq then e :: x :: r else x :: insertEntry e r

/-- 0xA000 EVENT_LOG: the entries from READ_FROM_SEQ in ascending SEQ. -/
def State.eventLog (s : State) : List Byte :=
  ((s.log.all.filter (fun e => decide (s.get 0xA001 1 ≤ e.seq))).foldr insertEntry []).flatMap LogEntry.image

/-- 0x7000 ROUTE_TABLE. -/
def State.routeTable (s : State) : List Byte :=
  match mget? s.blobs (key 0x7000 0) with
  | some bs => bs
  | none => (List.range 32768).flatMap (fun p => leBytes 4 (s.defaultRoute (p / 16384) (p % 16384)))

def State.reductionCount (s : State) : Nat := match s.plan with
  | none => 0
  | some p => p.reductions.length

/-- The content of a DOMAIN (R46). -/
def State.domainVal (s : State) (idx sub : Nat) : List Byte :=
  let held (d : List Byte) : List Byte := mgetD s.blobs (key idx sub) d
  if idx = 0x2500 then s.subMap.map (fun v => BitVec.ofNat 8 v)
  else if idx = 0x2601 then s.holdState
  else if idx = 0x4011 then s.bollardCounts
  else if idx = 0x4020 then s.berthStates
  else if idx = 0x5100 then s.widthMap
  else if idx = 0x5102 then s.scaleHistory
  else if idx = 0x5110 then held (zeros (32 * s.planLayers.length))
  else if idx = 0x5120 then s.layerCounters
  else if idx = 0x6000 then s.dockStates
  else if idx = 0x6202 then s.masterVersions
  else if idx = 0x6203 then s.dockFit
  else if idx = 0x6204 then s.dockWear
  else if 0x6800 ≤ idx ∧ idx ≤ 0x680F then s.trimDomain (idx - 0x6800)
  else if idx = 0x7000 then s.routeTable
  else if idx = 0x7110 then held (zeros 65536)
  else if idx = 0x8010 then held (zeros (64 * s.reductionCount))
  else if idx = 0x9302 then s.ageingHistory
  else if idx = 0x9400 then s.endOfLife
  else if idx = 0xA000 then s.eventLog
  else if idx = 0xC001 then Config.fwKeyHash
  else if idx = 0xC031 then s.debugKeyHash
  else held []

/-- The bytes of an object's value, little-endian; `none` stands for subindex 0 of a RECORD or an ARRAY (R38). -/
def State.valueOf (s : State) (o : Option ObjDef) (idx sub : Nat) : List Byte :=
  match o with
  | none => leBytes 1 ((highestSub idx).getD 0)
  | some o =>
    if o.type.scalar then leBytes o.type.size (s.scalarVal idx sub)
    else if o.type.isDomain then s.domainVal idx sub
    else s.stringVal idx sub

/-- What a read of an object does besides returning its value: LAST_ABORT is cleared (R52), a conversion result is taken
(R459), and a free value of AGEING_HISTORY is used up. -/
def State.afterRead (s : State) (idx sub : Nat) : State :=
  if (idx = 0x1200 ∨ idx = 0x1201) ∧ sub = 2 then s.put idx 2 0
  else if (idx = 0x9001 ∨ idx = 0x9002) ∧ sub = 0 then s.put idx 0 (bits (s.get idx 0) 29 0)
  else if idx = 0x9302 then { s with draws := s.draws + 1 }
  else s

/-- Read an object: its value and the state after, or the code of a refusal. -/
def State.readObject (s : State) (src : Src) (idx sub : Nat) : Except Nat (List Byte × State) :=
  match s.readAccess src idx sub with
  | .error c => .error c
  | .ok o => .ok (s.valueOf o idx sub, s.afterRead idx sub)

/-- A live object, whose segments are read as it stands (R46). -/
def objLive (idx sub : Nat) : Bool := match objDef idx sub with
  | some o => o.live
  | none => false

/-- A range of an upload: of the snapshot, or of a live object as it stands now. -/
def State.uploadRange (s : State) (idx sub : Nat) (snapshot : List Byte) (off n : Nat) : List Byte :=
  let bs := if objLive idx sub then s.valueOf (objDef idx sub) idx sub else snapshot
  let part := (bs.drop off).take n
  part ++ zeros (n - part.length)

end Sys2Proof.Machine
end

