-- ==== Sys2Proof/Machine/Write.lean ====
section
/-! DEFINITION. What a write of an object does: the effect of every scalar write (R44, R45), and of every DOMAIN download as a whole (R40, R46). -/

namespace Sys2Proof.Machine

/-! ## Scalar writes -/

/-- POWER_COMMAND (R487 to R490, R501). -/
def State.powerEff (s : State) (src : Src) (v : Nat) : Except Nat State :=
  if v = 1 then s.cmdStart src
  else if v = 2 then s.cmdNap
  else if v = 3 then s.cmdWake
  else if v = 4 then s.cmdSleep
  else s.cmdShutdown

/-- BOLLARD_COUNT of the selected bollard (R317, R321). -/
def State.bollardWrite (s : State) (v : Nat) : Except Nat State :=
  let b := s.get 0x4010 1
  match s.bollardOwner b with
  | none => .error 0xA007
  | some c =>
    let s := s.setBollard b { s.bollard b with count := v }
    .ok (if s.takes c then s.settle [b] else s)

/-- CTX_COMMAND (R352). -/
def State.ctxCommand (s : State) (c v : Nat) : Except Nat State :=
  if v = 1 then s.resumeEff c else if v = 2 then s.haltEff c else s.closeEff c

/-- RESTORE_COMMAND: what the partner's slots would bring is free where the command does not carry it (log 13). -/
def State.restoreCommand (s : State) (v : Nat) : Except Nat State :=
  if v = 1 then
    let (n, s) := s.draw
    let (bs, s) := s.drawBytes n
    s.loadEff bs
  else s.verifyEff

/-- HOLD_POLICY: PREFETCH_ROOM_KIB stays above SPILL_HEADROOM_KIB (R285). -/
def State.holdPolicyOk (s : State) (sub v : Nat) : Bool :=
  if sub = 1 then decide (v < s.get 0x2600 2) else decide (s.get 0x2600 1 < v)

/-- VC_CREDITS: the sum of the eight channels stays within 6,144 flits (R385). -/
def State.creditsOk (s : State) (sub v : Nat) : Bool :=
  decide ((List.range 8).foldl (fun n i => n + if i + 1 = sub then v else s.get 0x7030 (i + 1)) 0 ≤ 6144)

/-- FW_ACTIVATE and SVN_COMMIT (R524, R525) through the checks of their own rows. -/
def State.fwCommand (s : State) (idx : Nat) : Except Nat State :=
  if idx = 0xC021 then s.activateEff else s.svnEff

/-- A write that every check has accepted: its effect, or the code of a refusal that the effect itself raises. -/
def State.writeEff (s : State) (src : Src) (idx sub v : Nat) : Except Nat State :=
  if idx = 0x1010 then
    if s.store.saving.isSome then .error 0xA00A
    else .ok (if sub = 1 then s.startSave else s.savedDefaults.startSave)
  else if idx = 0x1310 ∧ sub = 4 then .ok (s.ringApply v)
  else if idx = 0x1310 ∧ sub = 6 then s.consumerEff v
  else if idx = 0x2200 ∧ sub = 4 then s.positionEff v
  else if idx = 0x2400 ∧ sub = 3 then (if v = 1 then s.planLoadEff else s.unloadEff)
  else if idx = 0x2500 ∧ sub = 1 then .ok (s.put 0x2500 2 1)
  else if idx = 0x2600 then (if s.holdPolicyOk sub v then .ok (s.put idx sub v) else .error 0xA007)
  else if idx = 0x3000 ∧ sub = 1 then s.ctxOpenEff v
  else if idx = 0x3001 ∧ sub = 4 then s.invEff (v == 2)
  else if 0x3100 ≤ idx ∧ idx ≤ 0x313F ∧ sub = 3 then s.ctxCommand (idx - 0x3100) v
  else if idx = 0x4010 ∧ sub = 2 then s.bollardWrite v
  else if idx = 0x4021 then s.flushEff v
  else if idx = 0x7030 then (if s.creditsOk sub v then .ok (s.put idx sub v) else .error 0xA007)
  else if idx = 0x8201 ∧ sub = 1 then s.requestEff v
  else if idx = 0x8202 ∧ sub = 4 then s.restoreCommand v
  else if 0x9100 ≤ idx ∧ idx ≤ 0x913F then .ok (s.filterEff (idx - 0x9100) sub v)
  else if 0x9205 ≤ idx ∧ idx ≤ 0x923F then .ok (s.ruleEff (idx - 0x9200) v)
  else if idx = 0xB000 ∧ sub = 2 then s.powerEff src v
  else if idx = 0xC012 ∨ idx = 0xC021 then s.fwCommand idx
  else if idx = 0xC030 ∧ sub = 4 then .ok s.debugStop
  else match objDef idx sub with
    | some o => .ok (if o.staged then { s with staged := mset s.staged (key idx sub) v } else s.put idx sub v)
    | none => .ok s

/-- A scalar write: every check, then its effect (R44). -/
def State.writeScalar (s : State) (src : Src) (idx sub : Nat) (bs : List Byte) : Except Nat State :=
  match s.checkWrite src idx sub bs with
  | .error c => .error c
  | .ok v => s.writeEff src idx sub v

/-! ## The content of downloads (R40) -/

/-- The size of a download fits the object's definition. -/
def State.sizeOk (s : State) (t : OType) (n : Nat) : Bool :=
  match t with
  | .dom k => n == k
  | .domMax k => decide (n ≤ k)
  | .domLayers per extra => n == per * s.planLayers.length + extra
  | .domReductions per => n == per * s.reductionCount
  | .vstr => decide (n ≤ 255)
  | t => n == t.size

/-- One entry of WIDE_BINDING (R242). -/
def wideEntryOk (l : LayerDef) (e : List Byte) : Bool :=
  decide (field e 0 6 % 64 = 0 ∧ field e 8 6 % 64 = 0 ∧ field e 16 6 % 4096 = 0 ∧ field e 14 2 = 0)
  && isZero (sub_ e 22 10) && (field e 0 6 == 0 || decide (ceilDiv (6 * l.n) 64 ≤ field e 6 2))

def State.wideOk (s : State) (bs : List Byte) : Bool :=
  s.planLayers.zipIdx.all (fun p => wideEntryOk p.1 (sub_ bs (32 * p.2) 32))

/-- One entry of EXPERT_MAP (R375): QUOTA in range, BUFFER_ADDR of whole lines and INDEX_ADDR of whole indices (log 45). -/
def expertEntryOk (e : List Byte) : Bool :=
  decide (field e 2 2 ≤ 4096 ∧ field e 4 6 % 64 = 0 ∧ field e 10 6 % 4 = 0)

/-- One entry of REDUCTION_BINDING (R418). -/
def reductionEntryOk (e : List Byte) : Bool :=
  decide (field e 0 6 % 64 = 0 ∧ field e 8 6 % 64 = 0 ∧ field e 16 6 % 4096 = 0 ∧ field e 22 2 = 0 ∧ field e 24 6 % 64 = 0)
  && isZero (sub_ e 30 34)

/-- One entry of SECURE_REGIONS (R451). -/
def regionEntryOk (e : List Byte) : Bool :=
  decide (field e 0 6 % 4096 = 0 ∧ field e 6 1 ≤ 5 ∧ field e 7 1 = 0 ∧ field e 8 6 % 4096 = 0 ∧ field e 14 2 = 0
    ∧ field e 16 8 % 4096 = 0 ∧ 0 < field e 16 8 ∧ field e 26 1 ≤ 63)
  && isZero (sub_ e 27 5)

/-- SECURE_REGIONS: whole entries, in all at most 64 GiB. -/
def regionsOk (bs : List Byte) : Bool :=
  let es := chunks 32 64 bs
  decide (bs.length % 32 = 0) && es.all regionEntryOk && decide (es.foldl (fun n e => n + field e 16 8) 0 ≤ 64 * 2 ^ 30)

/-- SECURE_GROUP: U16 package indices of this domain until the first 0xFFFF. -/
def groupOk (bs : List Byte) : Bool :=
  decide (bs.length % 2 = 0)
  && (((chunks 2 16384 bs).map ofLe).takeWhile (fun p => p != 0xFFFF)).all (fun p => decide (p ≤ 16383))

/-- The content of a download against the object's definition. -/
def State.contentOk (s : State) (idx : Nat) (bs : List Byte) : Bool :=
  if idx = 0x5102 then s.historyOk bs
  else if idx = 0x5110 then s.wideOk bs
  else if 0x6800 ≤ idx ∧ idx ≤ 0x680F then trimsOk (idx - 0x6800) bs
  else if idx = 0x7110 then (chunks 16 4096 bs).all expertEntryOk
  else if idx = 0x8010 then (chunks 64 bs.length bs).all reductionEntryOk
  else if idx = 0x8203 then groupOk bs
  else if idx = 0x8210 then regionsOk bs
  else true

/-- Refusals of a download that do not concern its content: the security objects and SECURE_REGIONS have their own. -/
def State.downloadBar (s : State) (idx : Nat) : Nat :=
  if idx = 0xC031 ∧ !isZero s.debugKeyHash then 0xA012
  else if idx = 0x8210 ∧ s.get 0x8201 3 ≠ 0 then 0xA00A
  else if idx = 0xC020 ∧ s.fw.writing.isSome then 0xA00A
  else 0

/-! ## SPDM over ODP (R527, R530) -/

def stateOf (o : Host.Outcome State Fault Refusal) (s : State) : State := match o with
  | .next t => t
  | _ => s

/-- The extended asymmetric algorithm of R527 among those a NEGOTIATE_ALGORITHMS offers: registry 1 (TCG), TPM_ECC_BP_P384_R1;
the layout and the numbers are PRESUMED from SPDM 1.3 and the TCG registry (log 15). -/
def offersBp384 (m : List Byte) : Bool :=
  (chunks 4 (field m 28 1) (m.drop 32)).any (fun e => field e 0 1 == 1 && field e 2 2 == 0x31)

/-- One SPDM request on the ODP path; request codes are PRESUMED from SPDM 1.3 (log 15). -/
def State.spdmRequest (s : State) (m : List Byte) : State :=
  let code := field m 1 1
  let p1 := field m 2 1
  if m.length < 4 then stateOf (execSpdmUnsupported .odp code true s) s
  else if code = 0x84 then stateOf (execSpdmGetVersion .odp s) s
  else if field m 0 1 ≠ 0x13 then stateOf (execSpdmUnsupported .odp code true s) s
  else if code = 0xE1 then stateOf (execSpdmGetCapabilities .odp s) s
  else if code = 0xE3 then stateOf (execSpdmNegotiateAlgorithms .odp (offersBp384 m) (bit (field m 12 4) 1) s) s
  else if code = 0x81 then stateOf (execSpdmGetDigests .odp s) s
  else if code = 0x82 then stateOf (execSpdmGetCertificate .odp (p1 % 16) (field m 4 2) (field m 6 2) s) s
  else if code = 0x83 then stateOf (execSpdmChallenge .odp p1 (sub_ m 4 32) s) s
  else if code = 0xE0 then stateOf (execSpdmGetMeasurements .odp (field m 3 1) (bit p1 0) (sub_ m 4 32) s) s
  else stateOf (execSpdmUnsupported .odp code false s) s

/-! ## Downloads -/

/-- The content of a download takes effect whole, or is refused with a code (0: accepted); a refused firmware image and a
refused debug token leave their own traces (R524, R529). -/
def State.applyDomain (s : State) (idx sub : Nat) (bs : List Byte) : State × Nat :=
  let bar := s.downloadBar idx
  let hold (s : State) : State := { s with blobs := mset s.blobs (key idx sub) bs }
  if bar ≠ 0 then (s, bar)
  else if idx = 0xC020 then
    (match s.fwImageClose bs with
    | .ok t => (t, 0)
    | .error c => (if c = 0xA013 then s.logEv (pkgEv 0x9003 warning) else s, c))
  else if idx = 0xC030 then s.debugTokenWrite bs
  else if idx = 0xC031 then
    (match s.debugKeySet bs with
    | .ok t => (t, 0)
    | .error c => (s, c))
  else if !s.contentOk idx bs then (s, 0xA013)
  else if idx = 0x5102 then (s.loadHistory bs, 0)
  else if 0x6800 ≤ idx ∧ idx ≤ 0x680F then (s.applyTrims (idx - 0x6800) bs, 0)
  else if idx = 0xC100 then ((hold s).spdmRequest bs, 0)
  else (hold s, 0)

/-- What a download needs at its start: access, write condition, no transfer or scalar write in the way, its size (R47, R54). -/
def State.downloadCheck (s : State) (src : Src) (idx sub n : Nat) : Nat :=
  match s.writeAccess src idx sub with
  | .error c => c
  | .ok o =>
    if !s.condMet o idx sub then 0xA009
    else if s.transferOpen idx then 0xA00A
    else if s.downloadBar idx ≠ 0 then s.downloadBar idx
    else if s.sizeOk o.type n then 0 else 0xA008

/-- A download ends (its transfer is no longer open): every check that still applies, then the whole content. -/
def State.downloadEnd (s : State) (src : Src) (idx sub : Nat) (bs : List Byte) : State × Nat :=
  match s.writeAccess src idx sub with
  | .error c => (s, c)
  | .ok o =>
    if o.type.isDomain then
      if !s.condMet o idx sub then (s, 0xA009)
      else if !s.sizeOk o.type bs.length then (s, 0xA008)
      else s.applyDomain idx sub bs
    else match s.writeScalar src idx sub bs with
      | .ok t => (t, 0)
      | .error c => (s, c)

/-- What an upload needs at its start. -/
def State.uploadCheck (s : State) (src : Src) (idx sub : Nat) : Except Nat (List Byte × State) :=
  if s.transferOpen idx then (match s.readAccess src idx sub with
    | .error c => .error c
    | .ok _ => .error 0xA00A)
  else s.readObject src idx sub

end Sys2Proof.Machine
end

