-- ==== Sys2Proof/Machine/Dac.lean ====
section
/-! DEFINITION. The CXL window: the direct region, and the domain access channels (R49 to R54, R534). -/

namespace Sys2Proof.Machine

/-! ## Channels -/

def State.dac (s : State) (p ch : Nat) : Dac := (s.hl p).dacs.getD ch Dac.reset
def State.setDac (s : State) (p ch : Nat) (d : Dac) : State := s.setHl p { s.hl p with dacs := (s.hl p).dacs.set ch d }

/-- A refusal of R534: DAC_ABORT takes the code, nothing else changes. -/
def State.dacRefuse (s : State) (p ch code : Nat) : State := s.setDac p ch { s.dac p ch with abort := code }

/-- An allowed command whose work fails (R54). -/
def State.dacFail (s : State) (p ch code : Nat) : State :=
  s.setDac p ch { s.dac p ch with state := 4, abort := code, data := [], busy := none }

/-- DAC_CTRL fields: reserved bits, and the command. -/
def ctrlReserved (v : Nat) : Bool := bits v 63 40 != 0 || bits v 15 8 != 0 || bits v 6 4 != 0
def ctrlCmd (v : Nat) : Nat := bits v 3 0

/-- States in which no transfer is open: IDLE, ABORTED, CLOSED. -/
def Dac.idle (d : Dac) : Bool := d.state == 0 || d.state == 4 || d.state == 5

/-- States in which XFER and CLOSE are allowed: OPEN and SEGMENT_DONE. -/
def Dac.ready (d : Dac) : Bool := d.state == 1 || d.state == 3

/-- The fields a DAC_CTRL write sets. -/
def Dac.aim (d : Dac) (v : Nat) : Dac := { d with index := bits v 39 24, sub := bits v 23 16, download := bit v 7 }

/-- CMD 0. -/
def State.dacTarget (s : State) (p ch v : Nat) : State :=
  let d := s.dac p ch
  if d.idle then s.setDac p ch (d.aim v) else s.dacRefuse p ch 0xA00B

/-- OPEN of the object the channel names. -/
def State.dacOpenNow (s : State) (p : HostPort) (ch : Nat) : State :=
  let d := s.dac p.val ch
  if d.download then
    let c := s.downloadCheck (.win p) d.index d.sub d.size
    if c ≠ 0 then s.dacFail p.val ch c
    else s.setDac p.val ch { d with state := 1, data := [], busy := none }
  else match s.uploadCheck (.win p) d.index d.sub with
    | .error c => s.dacFail p.val ch c
    | .ok (bs, s) => s.setDac p.val ch { s.dac p.val ch with state := 1, size := bs.length, data := bs, busy := none }

/-- CMD 1. -/
def State.dacCmdOpen (s : State) (p : HostPort) (ch v : Nat) : State :=
  let d := s.dac p.val ch
  if d.idle then (s.setDac p.val ch (d.aim v)).dacOpenNow p ch else s.dacRefuse p.val ch 0xA00B

/-- CMD 2: the segment that DAC_OFFSET and DAC_LENGTH name starts to move; what the host wrote to the segment buffer is `buf`.
DESIGN CHOICE (log 70): a download segment in order that runs past DAC_SIZE is refused with 0xA008, the code of a segment too long
(R77); R54 gives 0xA00B for order and 0xA008 for the range and does not say which of the two this is. -/
def State.dacCmdXfer (s : State) (p ch : Nat) (buf : List Byte) : State :=
  let d := s.dac p ch
  if !d.ready then s.dacRefuse p ch 0xA00B
  -- A segment of length 0 is accepted wherever it lies, and moves nothing.
  else if d.length = 0 then s.setDac p ch { d with state := 2, busy := some (d.offset, 0), buf := if d.download then buf.take 65536 else d.buf }
  else if d.download && d.offset != d.data.length then s.dacRefuse p ch 0xA00B
  else if d.size < d.offset + d.length then s.dacRefuse p ch 0xA008
  else s.setDac p ch { d with state := 2, busy := some (d.offset, d.length), buf := if d.download then buf.take 65536 else d.buf }

/-- The segment has moved. -/
def State.dacMoved (s : State) (p ch : Nat) : State :=
  let d := s.dac p ch
  match d.busy with
  | none => s
  | some (off, n) =>
    if d.download then
      s.setDac p ch { d with state := 3, busy := none, data := d.data ++ (d.buf ++ zeros (n - d.buf.length)).take n }
    else
      s.setDac p ch { d with state := 3, busy := none, buf := s.uploadRange d.index d.sub d.data off n ++ d.buf.drop n }

/-- CMD 3. A firmware image is written for a while yet: the channel stays BUSY until then (R524). -/
def State.dacCmdClose (s : State) (p : HostPort) (ch : Nat) : State :=
  let d := s.dac p.val ch
  if !d.ready then s.dacRefuse p.val ch 0xA00B
  else if !d.download then s.setDac p.val ch { d with state := 5, data := [] }
  else if d.data.length ≠ d.size then s.dacRefuse p.val ch 0xA00B
  else
    let s := s.setDac p.val ch { d with state := 5, data := [] }
    match s.downloadEnd (.win p) d.index d.sub d.data with
    | (s, c) =>
      if c ≠ 0 then s.dacFail p.val ch c
      else if d.index = 0xC020 then
        { s with fw := { s.fw with writer := some (.dac p.val ch) } }.setDac p.val ch { d with state := 2, data := [], busy := none }
      else s

/-- CMD 4. -/
def State.dacCmdAbort (s : State) (p : HostPort) (ch : Nat) : State :=
  if (s.dac p.val ch).isOpen then (s.dacFail p.val ch 0xA00D).fwCut (.dac p.val ch) else s.dacRefuse p.val ch 0xA00B

/-- A write to DAC_CTRL, whatever its command. -/
def State.dacCtrl (s : State) (p : HostPort) (ch v : Nat) (buf : List Byte) : State :=
  if ctrlReserved v then s.dacRefuse p.val ch 0xA007
  else if ctrlCmd v = 0 then s.dacTarget p.val ch v
  else if ctrlCmd v = 1 then s.dacCmdOpen p ch v
  else if ctrlCmd v = 2 then s.dacCmdXfer p.val ch buf
  else if ctrlCmd v = 3 then s.dacCmdClose p ch
  else if ctrlCmd v = 4 then s.dacCmdAbort p ch
  else s.dacRefuse p.val ch 0xA00B

/-- A write to DAC_SIZE (8), DAC_OFFSET (16) or DAC_LENGTH (24). DESIGN CHOICE (log 70): an aligned 8-byte write to the read-only
DAC_STATUS is ignored and recorded nowhere; R534 names no code for it. -/
def State.dacParam (s : State) (p ch reg v : Nat) : State :=
  let d := s.dac p ch
  let v := v % 2 ^ 64
  if reg = 8 then (if d.idle then s.setDac p ch { d with size := v } else s.dacRefuse p ch 0xA00B)
  else if reg = 16 then (if d.state = 2 then s.dacRefuse p ch 0xA00B else s.setDac p ch { d with offset := v })
  else if reg = 24 then
    if d.state = 2 then s.dacRefuse p ch 0xA00B
    else if 65536 < v then s.dacRefuse p ch 0xA008
    else s.setDac p ch { d with length := v }
  else s

/-- What a control register reads as. -/
def Dac.reg (d : Dac) (reg : Nat) : Nat :=
  if reg = 0 then d.index * 2 ^ 24 + d.sub * 2 ^ 16 + (if d.download then 128 else 0)
  else if reg = 8 then d.size
  else if reg = 16 then d.offset
  else if reg = 24 then d.length
  else d.abort * 2 ^ 16 + d.state

/-- Every access to a port's window is dropped before WINDOW_READY (R51). -/
def State.ifReady (s : State) (p : HostPort) (f : State → State) : State := if s.windowReady p.val then f s else s

/-! ## The rows of the channels -/

/-- DAC_SET_TARGET (R534). -/
def execDacSetTarget (port : HostPort) (ch : DacCh) (ctrl : Nat) (s : State) : Host.Outcome State Fault Refusal :=
  .next (s.ifReady port (fun s => s.dacCtrl port ch.val (setBits ctrl 3 0 0) []))

/-- DAC_PARAM_WRITE (R534). -/
def execDacParamWrite (port : HostPort) (ch : DacCh) (reg value : Nat) (s : State) : Host.Outcome State Fault Refusal :=
  .next (s.ifReady port (fun s => s.dacParam port.val ch.val reg value))

/-- DAC_OPEN (R54). -/
def execDacOpen (port : HostPort) (ch : DacCh) (ctrl : Nat) (s : State) : Host.Outcome State Fault Refusal :=
  .next (s.ifReady port (fun s => s.dacCtrl port ch.val (setBits ctrl 3 0 1) []))

/-- DAC_XFER (R54). -/
def execDacXfer (port : HostPort) (ch : DacCh) (ctrl : Nat) (buf : List Byte) (s : State) : Host.Outcome State Fault Refusal :=
  .next (s.ifReady port (fun s => s.dacCtrl port ch.val (setBits ctrl 3 0 2) buf))

/-- DAC_SEGMENT_DONE (R54). -/
def execDacSegmentDone (port : HostPort) (ch : DacCh) (s : State) : Host.Outcome State Fault Refusal :=
  .next (if (s.dac port.val ch.val).state = 2 then s.dacMoved port.val ch.val else s)

/-- DAC_CLOSE (R54). -/
def execDacClose (port : HostPort) (ch : DacCh) (ctrl : Nat) (s : State) : Host.Outcome State Fault Refusal :=
  .next (s.ifReady port (fun s => s.dacCtrl port ch.val (setBits ctrl 3 0 3) []))

/-- DAC_ABORT (R54). -/
def execDacAbort (port : HostPort) (ch : DacCh) (ctrl : Nat) (s : State) : Host.Outcome State Fault Refusal :=
  .next (s.ifReady port (fun s => s.dacCtrl port ch.val (setBits ctrl 3 0 4) []))

/-- DAC_TIMEOUT (R54): 10 s in OPEN or SEGMENT_DONE. -/
def execDacTimeout (port : HostPort) (ch : DacCh) (s : State) : Host.Outcome State Fault Refusal :=
  .next (if (s.dac port.val ch.val).ready then s.dacFail port.val ch.val 0xA00C else s)

/-! ## The direct region (R49, R50) -/

def directEnd : Nat := 0x08000000
def dacEnd : Nat := 0x08080000
def barEnd : Nat := 0x10000000

/-- A single naturally aligned access of 1, 2, 4 or 8 bytes. -/
def readForm (offset size : Nat) : Bool := [1, 2, 4, 8].contains size && decide (offset % size = 0)

/-- The 8-byte image of a slot. -/
def slotImage (t : OType) (v : Nat) : Nat := if t.signed then ofSigned 64 (toSigned (8 * t.size) v) else v

def ones (n : Nat) : List Byte := List.replicate n 0xFF

/-- A read of the direct region. -/
def State.directRead (s : State) (p : HostPort) (offset size : Nat) : State :=
  let idx := offset / 2048
  let sub := offset % 2048 / 8
  let deny (c : Nat) : State := (s.refuse (.win p) idx sub c).emit (.winData p.val (ones size))
  let give (v : Nat) (s : State) : State := s.emit (.winData p.val (((leBytes 8 v).drop (offset % 8)).take size))
  -- The form is judged first: a VSTRING, a DOMAIN or a wider member is 0xA011 whatever its access class (R50).
  if !readForm offset size || (match objDef idx sub with | some o => !o.type.scalar | none => false) then deny 0xA011
  else match s.readAccess (.win p) idx sub with
    | .error c => deny c
    | .ok none => give ((highestSub idx).getD 0) s
    | .ok (some o) =>
      give (slotImage o.type (s.scalarVal idx sub)) (s.afterRead idx sub)

/-- The bytes a write of the direct region carries to an object, or none for a form that R50 does not allow: bytes above the
object's size are 0, or the sign extension of the value where its type is signed; a negative value of a signed object may come with
either (DEDUCED, log 70). -/
def slotBytes (o : ObjDef) (size value : Nat) : Option (List Byte) :=
  let n := o.type.size
  let v := value % 2 ^ (8 * size)
  if !o.type.scalar || !(size == 8 || (size == 4 && decide (n ≤ 4))) then none
  else if v = v % 2 ^ (8 * n) || (o.type.signed && v == ofSigned (8 * size) (toSigned (8 * n) v)) then some (leBytes n v)
  else none

/-- A write of the direct region. -/
def State.directWrite (s : State) (p : HostPort) (offset size value : Nat) : State :=
  let idx := offset / 2048
  let sub := offset % 2048 / 8
  let src := Src.win p
  -- The form is judged first, whatever the object's access class (R50).
  let bad : Bool := match objDef idx sub with
    | some o => (slotBytes o size value).isNone
    | none => false
  if offset % 8 ≠ 0 ∨ (size ≠ 8 ∧ size ≠ 4) ∨ bad = true then s.refuse src idx sub 0xA011
  else match s.writeAccess src idx sub with
    | .error c => s.refuse src idx sub c
    | .ok o => match slotBytes o size value with
      | none => s.refuse src idx sub 0xA011
      | some bs => match s.writeScalar src idx sub bs with
        | .error c => s.refuse src idx sub c
        | .ok t => t

/-- A read of a control block or a segment buffer (R53, R534). -/
def State.dacRead (s : State) (p : HostPort) (offset size : Nat) : State :=
  let ch := (offset - directEnd) / 0x20000
  let o := offset % 0x20000
  let give (bs : List Byte) (s : State) : State := s.emit (.winData p.val bs)
  if 0x10000 ≤ o then give ((((s.dac p.val ch).buf ++ zeros 65536).drop (o - 0x10000)).take size) s
  else if 0x28 ≤ o then give (zeros size) s
  else if size = 8 ∧ o % 8 = 0 then give (leBytes 8 ((s.dac p.val ch).reg o)) s
  else give (ones size) (s.dacRefuse p.val ch 0xA011)

/-- A write of a control block or a segment buffer. -/
def State.dacWrite (s : State) (p : HostPort) (offset size value : Nat) : State :=
  let ch := (offset - directEnd) / 0x20000
  let o := offset % 0x20000
  let d := s.dac p.val ch
  if 0x10000 ≤ o then
    let buf := d.buf ++ zeros (65536 - d.buf.length)
    s.setDac p.val ch { d with buf := (patch buf (o - 0x10000) (leBytes size value)).take 65536 }
  else if 0x28 ≤ o then s
  else if size = 8 ∧ o % 8 = 0 then
    if o = 0 then s.dacCtrl p ch (value % 2 ^ 64) d.buf else s.dacParam p.val ch o value
  else s.dacRefuse p.val ch 0xA011

/-- A read of BAR0. -/
def State.windowRead (s : State) (p : HostPort) (offset size : Nat) : State :=
  if barEnd ≤ offset then s
  else if !s.windowReady p.val then s.emit (.winData p.val (ones size))
  else if offset < directEnd then s.directRead p offset size
  else if offset < dacEnd then s.dacRead p offset size
  else s.emit (.winData p.val (zeros size))

/-- A write of BAR0. -/
def State.windowWrite (s : State) (p : HostPort) (offset size value : Nat) : State :=
  s.ifReady p (fun s =>
    if offset < directEnd then s.directWrite p offset size value
    else if offset < dacEnd then s.dacWrite p offset size value
    else s)

/-- DICT_WRITE (R44, R50). -/
def execDictWrite (port : HostPort) (offset size value : Nat) (s : State) : Host.Outcome State Fault Refusal :=
  .next (s.windowWrite port offset size value)

/-- WINDOW_ACCESS_REFUSED (R50): the access as it arrives; what is refused follows from its form. -/
def execWindowAccessRefused (port : HostPort) (offset size : Nat) (isWrite : Bool) (value : Nat) (s : State) :
    Host.Outcome State Fault Refusal :=
  .next (if isWrite then s.windowWrite port offset size value else s.windowRead port offset size)

/-- LAST_ABORT_READ (R52): the port's own status object, two bytes. -/
def execLastAbortRead (port : HostPort) (s : State) : Host.Outcome State Fault Refusal :=
  .next (s.windowRead port ((0x1200 + port.val) * 2048 + 2 * 8) 2)

end Sys2Proof.Machine
end

