-- ==== Sys2Proof/Machine/Odp.lean ====
section
/-! DEFINITION. ODP over the management port: frames, transfers and the memory of responses (R55 to R60), and the end of a firmware write (R524). -/

namespace Sys2Proof.Machine

/-! ## Frames -/

/-- The frame types of R57. -/
def odpTypes : List Nat :=
  [0x01, 0x02, 0x03, 0x04, 0x10, 0x11, 0x12, 0x13, 0x20, 0x21, 0x22, 0x23, 0x30, 0x40, 0x50, 0x51, 0x7F]

/-- A response to a frame: the fields it echoes, its type, flags, code, offset and payload. -/
def odpAnswer (f : OdpFrame) (typ : Nat) (code : Nat := 0) (payload : List Byte := []) (flags : Nat := 0)
    (offset : Option Nat := none) : OdpResp :=
  { typ := typ, tid := f.tid, index := f.index, sub := f.sub, flags := flags, offset := offset.getD f.offset, code := code, payload := payload }

/-- ABORT with a code. -/
def odpAbortResp (f : OdpFrame) (code : Nat) : OdpResp := odpAnswer f 0x7F code

/-- What the device does with a frame: a state and a response, or no response yet. -/
abbrev OdpAct := State → State × Option OdpResp

/-- Frames the device ignores (R55). -/
def odpIgnored (f : OdpFrame) (typ : Nat) : Bool :=
  f.short || !f.linkLocal || match f.dst with
    | .device => false
    | .allNodes => typ != 0x50
    | .other => true

/-- The device's address is in use: the port runs, and duplicate address detection has ended well (R518, R519). -/
def State.odpUp (s : State) : Bool := s.mgmt.running && s.get 0x1400 7 == 1

/-- A response leaves, and the last 32 pairs of address and TRANSACTION_ID are remembered with theirs (R59). -/
def State.odpReply (s : State) (f : OdpFrame) (typ : Nat) (r : OdpResp) : State :=
  let memo := s.odp.memo.filter (fun m => !(m.addr == f.srcAddr && m.tid == f.tid)) ++ [⟨f.srcAddr, f.tid, typ, f.offset, r⟩]
  { (s.tx (.odp f.srcAddr f.srcPort r)) with odp := { s.odp with memo := memo.drop (memo.length - 32) } }

/-- The remembered response to a repeated request. -/
def State.odpMemo (s : State) (f : OdpFrame) (typ : Nat) : Option OdpMemo :=
  s.odp.memo.find? (fun m => m.addr == f.srcAddr && m.tid == f.tid && m.typ == typ && m.offset == f.offset)

/-- The firmware image whose writing this frame's download started is still being written: its response is still to come. -/
def State.odpWriting (s : State) (f : OdpFrame) : Bool := match s.fw.writer with
  | some (.odp a _ t _ _ o) => a == f.srcAddr && t == f.tid && o == f.offset
  | _ => false

/-- PLCA settings take effect after the response to their write has been sent (R518). -/
def State.plcaRefresh (s : State) : State :=
  s.put 0x1400 6 (if s.get 0x1400 1 = 255 then 0 else if s.get 0x1400 1 = 0 || s.mgmt.beacon then 1 else 2)

/-- The 16-byte header of a frame, its fields big-endian, and the payload (R56). -/
def OdpResp.image (r : OdpResp) : List Byte :=
  let be (n v : Nat) : List Byte := (leBytes n v).reverse
  [0x01] ++ be 1 r.typ ++ be 2 r.tid ++ be 2 r.index ++ be 1 r.sub ++ be 1 r.flags ++ be 4 r.offset ++ be 2 r.payload.length ++ be 2 r.code
    ++ r.payload

/-- The frame that a datagram's bytes spell, given where it came from and went to (R55, R56). -/
def OdpFrame.ofBytes (srcAddr srcPort : Nat) (linkLocal : Bool) (dst : OdpDst) (dstPort : Nat) (bs : List Byte) : OdpFrame :=
  let be (at_ n : Nat) : Nat := ofLe (sub_ bs at_ n).reverse
  { srcAddr := srcAddr, srcPort := srcPort, linkLocal := linkLocal, short := decide (bs.length < 16), dst := dst, dstPort := dstPort,
    version := be 0 1, typ := be 1 1, tid := be 2 2, index := be 4 2, sub := be 6 1, flags := be 7 1, offset := be 8 4, plen := be 12 2,
    payload := bs.drop 16 }

/-- A frame of a type: ignored, answered from memory, refused for its header, or acted on (R55, R56, R59). -/
def State.odpFrame (s : State) (f : OdpFrame) (typ : Nat) (act : OdpAct) : State :=
  if !s.odpUp ∨ f.dst = .other then s
  else
    let s := s.rx
    -- The device listens on ODP_PORT (R55).
    if odpIgnored f typ || f.dstPort != s.get 0x1100 1 || (typ == 0x22 && s.odpWriting f) then s
    else match s.odpMemo f typ with
      | some m => s.tx (.odp f.srcAddr f.srcPort m.resp)
      | none =>
        if f.version ≠ 1 then s.odpReply f typ (odpAbortResp f 0xA015)
        else if 1024 < f.plen then s.odpReply f typ (odpAbortResp f 0xA008)
        else if 2 ≤ f.flags then s.odpReply f typ (odpAbortResp f 0xA007)
        else match act s with
          | (t, none) => t
          | (t, some r) =>
            let t := t.odpReply f typ r
            if f.index = 0x1400 ∧ (typ = 0x03 ∨ typ = 0x22) ∧ r.code = 0 then t.plcaRefresh else t

/-- The payload of a frame that carries one; a datagram that ends before it is a length mismatch (log 46). -/
def odpData (f : OdpFrame) : Option (List Byte) := if f.payload.length < f.plen then none else some (f.payload.take f.plen)

/-! ## Scalars (R57) -/

def odpRead (f : OdpFrame) : OdpAct := fun s =>
  match s.readAccess .odp f.index f.sub with
  | .error c => (s, some (odpAbortResp f c))
  | .ok o =>
    let domain := match o with | some o => o.type.isDomain | none => false
    let v := s.valueOf o f.index f.sub
    if domain || decide (1024 < v.length) then (s, some (odpAbortResp f 0xA008))
    else (s.afterRead f.index f.sub, some (odpAnswer f 0x02 0 v))

/-- ODP_READ_REQ. -/
def execOdpReadReq (f : OdpFrame) (s : State) : Host.Outcome State Fault Refusal := .next (s.odpFrame f 0x01 (odpRead f))

def odpWrite (f : OdpFrame) : OdpAct := fun s =>
  match odpData f with
  | none => (s, some (odpAbortResp f 0xA008))
  | some bs => match s.writeScalar .odp f.index f.sub bs with
    | .error c => (s, some (odpAbortResp f c))
    | .ok t => (t, some (odpAnswer f 0x04))

/-- ODP_WRITE_REQ. -/
def execOdpWriteReq (f : OdpFrame) (s : State) : Host.Outcome State Fault Refusal := .next (s.odpFrame f 0x03 (odpWrite f))

/-! ## Transfers (R58) -/

def OdpXfer.is (x : OdpXfer) (f : OdpFrame) : Bool := x.addr == f.srcAddr && x.tid == f.tid

def State.odpXfer (s : State) (f : OdpFrame) : Option OdpXfer := s.odp.xfers.find? (fun x => x.is f)

def State.odpOpen (s : State) (x : OdpXfer) : State :=
  { s with odp := { s.odp with xfers := s.odp.xfers ++ [x],
                               dead := s.odp.dead.filter (fun d => !(d.1 == x.addr && d.2.1 == x.tid)) } }

def State.odpDrop (s : State) (f : OdpFrame) : State :=
  { s with odp := { s.odp with xfers := s.odp.xfers.filter (fun x => !x.is f) } }

def State.odpSet (s : State) (f : OdpFrame) (x : OdpXfer) : State :=
  { s with odp := { s.odp with xfers := s.odp.xfers.map (fun y => if y.is f then x else y) } }

/-- A fifth open transfer, or a second one of the same name. -/
def State.odpFull (s : State) (f : OdpFrame) : Bool := decide (4 ≤ s.odp.xfers.length) || (s.odpXfer f).isSome

/-- A frame of a transfer that is not open: the client learns how an aborted one ended (R58). -/
def odpGone (f : OdpFrame) : OdpAct := fun s =>
  match s.odp.dead.find? (fun d => d.1 == f.srcAddr && d.2.1 == f.tid) with
  | some d => ({ s with odp := { s.odp with dead := s.odp.dead.filter (fun e => !(e.1 == f.srcAddr && e.2.1 == f.tid)) } },
      some (odpAbortResp f d.2.2))
  | none => (s, some (odpAbortResp f 0xA00B))

def odpUpload (f : OdpFrame) : OdpAct := fun s =>
  match s.uploadCheck .odp f.index f.sub with
  | .error c => (s, some (odpAbortResp f c))
  | .ok (bs, t) =>
    if s.odpFull f then (s, some (odpAbortResp f 0xA00A))
    else (t.odpOpen ⟨f.srcAddr, f.tid, f.index, f.sub, false, bs.length, bs⟩, some (odpAnswer f 0x11 0 [] 0 (some bs.length)))

/-- ODP_UPLOAD_INIT. -/
def execOdpUploadInit (f : OdpFrame) (s : State) : Host.Outcome State Fault Refusal := .next (s.odpFrame f 0x10 (odpUpload f))

/-- DESIGN CHOICE (log 70): a request that reaches past the snapshot is refused with 0xA008, as R54 and R58 say of an upload range;
the worked example after R60 answers such a request for the last segment with what is left. -/
def odpUploadSeg (f : OdpFrame) : OdpAct := fun s =>
  match s.odpXfer f with
  | none => odpGone f s
  | some x =>
    if x.download then (s, some (odpAbortResp f 0xA00B))
    else if f.plen ≠ 0 ∧ x.total < f.offset + f.plen then (s, some (odpAbortResp f 0xA008))
    else (s, some (odpAnswer f 0x13 0 (s.uploadRange x.index x.sub x.data f.offset f.plen)
      (if f.offset + f.plen = x.total then 1 else 0)))

/-- ODP_UPLOAD_SEG_REQ. -/
def execOdpUploadSegReq (f : OdpFrame) (s : State) : Host.Outcome State Fault Refusal := .next (s.odpFrame f 0x12 (odpUploadSeg f))

def odpDownload (f : OdpFrame) : OdpAct := fun s =>
  let c := s.downloadCheck .odp f.index f.sub f.offset
  if c ≠ 0 then (s, some (odpAbortResp f c))
  else if s.odpFull f then (s, some (odpAbortResp f 0xA00A))
  else (s.odpOpen ⟨f.srcAddr, f.tid, f.index, f.sub, true, f.offset, []⟩, some (odpAnswer f 0x21))

/-- ODP_DOWNLOAD_INIT. -/
def execOdpDownloadInit (f : OdpFrame) (s : State) : Host.Outcome State Fault Refusal :=
  .next (s.odpFrame f 0x20 (odpDownload f))

/-- The content is complete: it is validated and applied whole; the response to a firmware image waits for its writing. -/
def odpFinish (f : OdpFrame) (x : OdpXfer) (bs : List Byte) : OdpAct := fun s =>
  match (s.odpDrop f).downloadEnd .odp x.index x.sub bs with
  | (t, c) =>
    if c ≠ 0 then (t, some (odpAbortResp f c))
    else if x.index = 0xC020 then
      ({ t with fw := { t.fw with writer := some (.odp f.srcAddr f.srcPort f.tid f.index f.sub f.offset) } }, none)
    else (t, some (odpAnswer f 0x23))

def odpDownloadSeg (f : OdpFrame) : OdpAct := fun s =>
  match s.odpXfer f with
  | none => odpGone f s
  | some x => match odpData f with
    | none => (s, some (odpAbortResp f 0xA008))
    | some bs =>
      if !x.download || (bs ≠ [] && f.offset != x.data.length) then (s, some (odpAbortResp f 0xA00B))
      -- A segment of length 0 is accepted wherever it lies, and moves nothing (R54).
      else if bs = [] && !bit f.flags 0 then (s, some (odpAnswer f 0x23))
      else if bs ≠ [] ∧ x.total < f.offset + bs.length then (s, some (odpAbortResp f 0xA008))
      else if bit f.flags 0 then
        (if x.data.length + bs.length = x.total then odpFinish f x (x.data ++ bs) s else (s, some (odpAbortResp f 0xA00B)))
      else (s.odpSet f { x with data := x.data ++ bs }, some (odpAnswer f 0x23))

/-- ODP_DOWNLOAD_SEG. -/
def execOdpDownloadSeg (f : OdpFrame) (s : State) : Host.Outcome State Fault Refusal :=
  .next (s.odpFrame f 0x22 (odpDownloadSeg f))

/-- A transfer whose firmware image is still being written is open until its response. DESIGN CHOICE (log 70): the abort is answered
with ABORT 0xA00D; R57 and R77 give the code of the ended transfer and no answer. -/
def odpAbort (f : OdpFrame) : OdpAct := fun s =>
  match s.odpXfer f with
  | none => match s.fw.writer with
    | some (.odp a p t i b o) =>
      if a == f.srcAddr && t == f.tid then (s.fwCut (.odp a p t i b o), some (odpAbortResp f 0xA00D)) else odpGone f s
    | _ => odpGone f s
  | some _ => (s.odpDrop f, some (odpAbortResp f 0xA00D))

/-- ODP_TRANSFER_ABORT. -/
def execOdpTransferAbort (f : OdpFrame) (s : State) : Host.Outcome State Fault Refusal :=
  .next (s.odpFrame f 0x30 (odpAbort f))

/-- ODP_TRANSFER_TIMEOUT: the n-th open transfer received no frame for 5 s. -/
def execOdpTransferTimeout (n : Nat) (s : State) : Host.Outcome State Fault Refusal :=
  .next (match s.odp.xfers[n]? with
    | none => s
    | some x => { s with odp := { s.odp with xfers := s.odp.xfers.eraseIdx n, dead := s.odp.dead ++ [(x.addr, x.tid, 0xA00C)] } })

/-! ## Discovery and unknown frames (R55 to R57) -/

/-- 0x1018 as a RECORD image: its members in order, a VSTRING after its length (log 47). -/
def State.identityImage (s : State) : List Byte :=
  let str (n : Nat) : List Byte := leBytes 1 (s.stringVal 0x1018 n).length ++ s.stringVal 0x1018 n
  leBytes 4 (s.get 0x1018 1) ++ str 2 ++ str 3 ++ str 4 ++ leBytes 2 (s.get 0x1018 5) ++ leBytes 8 (s.get 0x1018 6)

/-- ODP_DISCOVER. -/
def execOdpDiscover (f : OdpFrame) (s : State) : Host.Outcome State Fault Refusal :=
  .next (s.odpFrame f 0x50 (fun s => (s, some (odpAnswer f 0x51 0 s.identityImage))))

/-- ODP_UNKNOWN_FRAME: of another version, or of a type R57 does not list. DESIGN CHOICE (log 70): a frame from a client of a type
that only the device sends is ignored; R57 answers only a type outside its table. -/
def execOdpUnknownFrame (f : OdpFrame) (s : State) : Host.Outcome State Fault Refusal :=
  .next (if f.version = 1 ∧ odpTypes.contains f.typ then s
    else s.odpFrame f f.typ (fun s => (s, some (odpAbortResp f 0xA00B))))

/-! ## The end of a firmware write (R524) -/

/-- FW_WRITE_DONE: the image is written and verified, or the flash does not verify and the slot stays without one; whoever
downloaded it is told. DESIGN CHOICE (log 35): a write that does not verify fails the CLOSE with 0xA00E, the code of flash that
failed to verify; R524 names none. -/
def execFwWriteDone (ok : Bool) (s : State) : Host.Outcome State Fault Refusal :=
  .next (match s.fw.writing with
    | none => s
    | some x =>
      let w := s.fw.writer
      let fw := { s.fw with writing := none, writer := none }
      let s := ({ s with fw := if ok then fw.setSlot fw.target x else fw }).fwStatus
      match w with
      | none => s
      | some (.dac p ch) =>
        if (s.dac p ch).state ≠ 2 then s
        else if ok then s.setDac p ch { s.dac p ch with state := 5, data := [] }
        else s.dacFail p ch 0xA00E
      | some (.odp a port tid idx sub off) =>
        let r : OdpResp := if ok then ⟨0x23, tid, idx, sub, 0, off, 0, []⟩ else ⟨0x7F, tid, idx, sub, 0, off, 0xA00E, []⟩
        let memo := s.odp.memo.filter (fun m => !(m.addr == a && m.tid == tid)) ++ [⟨a, tid, 0x22, off, r⟩]
        { (s.tx (.odp a port r)) with odp := { s.odp with memo := memo.drop (memo.length - 32) } })

end Sys2Proof.Machine
end

