-- ==== Sys2Proof/Machine/Dispatch.lean ====
section
/-! DEFINITION. Every command to its meaning, one arm per row of the opcode table. -/

namespace Sys2Proof.Machine

def exec (i : Instr) (s : State) : Host.Outcome State Fault Refusal :=
  match i with
  | .inputUndervoltage => Sys2Proof.Machine.execInputUndervoltage s
  | .inputOvervoltage => Sys2Proof.Machine.execInputOvervoltage s
  | .powerOn => Sys2Proof.Machine.execPowerOn s
  | .clampCheck neMv swMv => Sys2Proof.Machine.execClampCheck neMv swMv s
  | .converterFailure n => Sys2Proof.Machine.execConverterFailure n s
  | .regulatorFault => Sys2Proof.Machine.execRegulatorFault s
  | .pkgResetAssert => Sys2Proof.Machine.execPkgResetAssert s
  | .pkgResetRelease => Sys2Proof.Machine.execPkgResetRelease s
  | .powerStart src => Sys2Proof.Machine.execPowerStart src s
  | .powerNap src => Sys2Proof.Machine.execPowerNap src s
  | .napEntry => Sys2Proof.Machine.execNapEntry s
  | .powerWake src => Sys2Proof.Machine.execPowerWake src s
  | .powerSleep src => Sys2Proof.Machine.execPowerSleep src s
  | .powerShutdown src => Sys2Proof.Machine.execPowerShutdown src s
  | .shutdownDone => Sys2Proof.Machine.execShutdownDone s
  | .idleTimeout => Sys2Proof.Machine.execIdleTimeout s
  | .firmwareVerifyDone pass => Sys2Proof.Machine.execFirmwareVerifyDone pass s
  | .startupRegulatorsUp => Sys2Proof.Machine.execStartupRegulatorsUp s
  | .harbourmasterStart => Sys2Proof.Machine.execHarbourmasterStart s
  | .harbourmasterStartTimeout => Sys2Proof.Machine.execHarbourmasterStartTimeout s
  | .dramTrainingDone failedStacks badMetaDocks => Sys2Proof.Machine.execDramTrainingDone failedStacks badMetaDocks s
  | .dramTrainingTimeout => Sys2Proof.Machine.execDramTrainingTimeout s
  | .settleCapTimeout => Sys2Proof.Machine.execSettleCapTimeout s
  | .defaultObjectsLoaded => Sys2Proof.Machine.execDefaultObjectsLoaded s
  | .powerLoopTick neMv swMv neDa swDa => Sys2Proof.Machine.execPowerLoopTick neMv swMv neDa swDa s
  | .dvfsStepDone die => Sys2Proof.Machine.execDvfsStepDone die s
  | .inputDroop => Sys2Proof.Machine.execInputDroop s
  | .droopRecovery => Sys2Proof.Machine.execDroopRecovery s
  | .dictWrite port offset size value => Sys2Proof.Machine.execDictWrite port offset size value s
  | .windowAccessRefused port offset size isWrite value => Sys2Proof.Machine.execWindowAccessRefused port offset size isWrite value s
  | .lastAbortRead port => Sys2Proof.Machine.execLastAbortRead port s
  | .dacSetTarget port ch ctrl => Sys2Proof.Machine.execDacSetTarget port ch ctrl s
  | .dacParamWrite port ch reg value => Sys2Proof.Machine.execDacParamWrite port ch reg value s
  | .dacOpen port ch ctrl => Sys2Proof.Machine.execDacOpen port ch ctrl s
  | .dacXfer port ch ctrl buf => Sys2Proof.Machine.execDacXfer port ch ctrl buf s
  | .dacSegmentDone port ch => Sys2Proof.Machine.execDacSegmentDone port ch s
  | .dacClose port ch ctrl => Sys2Proof.Machine.execDacClose port ch ctrl s
  | .dacAbort port ch ctrl => Sys2Proof.Machine.execDacAbort port ch ctrl s
  | .dacTimeout port ch => Sys2Proof.Machine.execDacTimeout port ch s
  | .odpReadReq f => Sys2Proof.Machine.execOdpReadReq f s
  | .odpWriteReq f => Sys2Proof.Machine.execOdpWriteReq f s
  | .odpUploadInit f => Sys2Proof.Machine.execOdpUploadInit f s
  | .odpUploadSegReq f => Sys2Proof.Machine.execOdpUploadSegReq f s
  | .odpDownloadInit f => Sys2Proof.Machine.execOdpDownloadInit f s
  | .odpDownloadSeg f => Sys2Proof.Machine.execOdpDownloadSeg f s
  | .odpTransferAbort f => Sys2Proof.Machine.execOdpTransferAbort f s
  | .odpDiscover f => Sys2Proof.Machine.execOdpDiscover f s
  | .odpUnknownFrame f => Sys2Proof.Machine.execOdpUnknownFrame f s
  | .odpTransferTimeout n => Sys2Proof.Machine.execOdpTransferTimeout n s
  | .storeSave src => Sys2Proof.Machine.execStoreSave src s
  | .storeDefaults src => Sys2Proof.Machine.execStoreDefaults src s
  | .storeSaveDone ok => Sys2Proof.Machine.execStoreSaveDone ok s
  | .eventLogPersist => Sys2Proof.Machine.execEventLogPersist s
  | .positionApply src value => Sys2Proof.Machine.execPositionApply src value s
  | .planLoad src => Sys2Proof.Machine.execPlanLoad src s
  | .planLoadComplete => Sys2Proof.Machine.execPlanLoadComplete s
  | .planConfigWriteFail => Sys2Proof.Machine.execPlanConfigWriteFail s
  | .planUnload src => Sys2Proof.Machine.execPlanUnload src s
  | .planUnloadComplete => Sys2Proof.Machine.execPlanUnloadComplete s
  | .selfTestRun src => Sys2Proof.Machine.execSelfTestRun src s
  | .selfTestComplete failed => Sys2Proof.Machine.execSelfTestComplete failed s
  | .doorbell port offset size value => Sys2Proof.Machine.execDoorbell port offset size value s
  | .manifestFetch t => Sys2Proof.Machine.execManifestFetch t s
  | .manifestArrive t => Sys2Proof.Machine.execManifestArrive t s
  | .berthFlush src berth => Sys2Proof.Machine.execBerthFlush src berth s
  | .taskTake t => Sys2Proof.Machine.execTaskTake t s
  | .dmaSuspend t => Sys2Proof.Machine.execDmaSuspend t s
  | .transferAck t task => Sys2Proof.Machine.execTransferAck t task s
  | .taskEnd t => Sys2Proof.Machine.execTaskEnd t s
  | .taskSignal t => Sys2Proof.Machine.execTaskSignal t s
  | .tallySampleCopyDone c slot => Sys2Proof.Machine.execTallySampleCopyDone c slot s
  | .tally t wrong => Sys2Proof.Machine.execTally t wrong s
  | .tallyTimeout c slot => Sys2Proof.Machine.execTallyTimeout c slot s
  | .gateEvaluate t => Sys2Proof.Machine.execGateEvaluate t s
  | .replayRewind c => Sys2Proof.Machine.execReplayRewind c s
  | .dockMvm t => Sys2Proof.Machine.execDockMvm t s
  | .dockPhaseDone d counts => Sys2Proof.Machine.execDockPhaseDone d counts s
  | .dockVectorDone t => Sys2Proof.Machine.execDockVectorDone t s
  | .dockRefit t failing => Sys2Proof.Machine.execDockRefit t failing s
  | .dockRefitScan t => Sys2Proof.Machine.execDockRefitScan t s
  | .dockRefitReadback t metaBad => Sys2Proof.Machine.execDockRefitReadback t metaBad s
  | .dockRefitDone d => Sys2Proof.Machine.execDockRefitDone d s
  | .refitPassClose d r => Sys2Proof.Machine.execRefitPassClose d r s
  | .dockCalNative t => Sys2Proof.Machine.execDockCalNative t s
  | .dockCalCold t => Sys2Proof.Machine.execDockCalCold t s
  | .dockCalQuickVerify t => Sys2Proof.Machine.execDockCalQuickVerify t s
  | .calibrationStart t => Sys2Proof.Machine.execCalibrationStart t s
  | .calibrationDone d pass => Sys2Proof.Machine.execCalibrationDone d pass s
  | .dieCalibration die => Sys2Proof.Machine.execDieCalibration die s
  | .dieCalibrationDone r => Sys2Proof.Machine.execDieCalibrationDone r s
  | .restoreWindowTimeout => Sys2Proof.Machine.execRestoreWindowTimeout s
  | .gemm t => Sys2Proof.Machine.execGemm t s
  | .matvec t => Sys2Proof.Machine.execMatvec t s
  | .gemmBwdPair t => Sys2Proof.Machine.execGemmBwdPair t s
  | .attnFwdBlock t => Sys2Proof.Machine.execAttnFwdBlock t s
  | .attnBwdBlock t => Sys2Proof.Machine.execAttnBwdBlock t s
  | .normForward t => Sys2Proof.Machine.execNormForward t s
  | .normBackward t => Sys2Proof.Machine.execNormBackward t s
  | .act t => Sys2Proof.Machine.execAct t s
  | .actDerivative t => Sys2Proof.Machine.execActDerivative t s
  | .softmaxForward t => Sys2Proof.Machine.execSoftmaxForward t s
  | .softmaxBackward t => Sys2Proof.Machine.execSoftmaxBackward t s
  | .convert t => Sys2Proof.Machine.execConvert t s
  | .rngFill t => Sys2Proof.Machine.execRngFill t s
  | .copy t units => Sys2Proof.Machine.execCopy t units s
  | .transpose t units => Sys2Proof.Machine.execTranspose t units s
  | .holdPush t => Sys2Proof.Machine.execHoldPush t s
  | .holdPop t => Sys2Proof.Machine.execHoldPop t s
  | .holdSpill t => Sys2Proof.Machine.execHoldSpill t s
  | .holdPrefetch t => Sys2Proof.Machine.execHoldPrefetch t s
  | .holdMoveDone t => Sys2Proof.Machine.execHoldMoveDone t s
  | .signal t => Sys2Proof.Machine.execSignal t s
  | .wait t => Sys2Proof.Machine.execWait t s
  | .fence t => Sys2Proof.Machine.execFence t s
  | .fenceDone t => Sys2Proof.Machine.execFenceDone t s
  | .barrier t => Sys2Proof.Machine.execBarrier t s
  | .hangTimeout w t => Sys2Proof.Machine.execHangTimeout w t s
  | .ferryForward chain member => Sys2Proof.Machine.execFerryForward chain member s
  | .ferryForwardDone chain member => Sys2Proof.Machine.execFerryForwardDone chain member s
  | .ctxOpen src n => Sys2Proof.Machine.execCtxOpen src n s
  | .ctxResume src c => Sys2Proof.Machine.execCtxResume src c s
  | .ctxHalt src c => Sys2Proof.Machine.execCtxHalt src c s
  | .ctxClose src c => Sys2Proof.Machine.execCtxClose src c s
  | .tlbWalkDone t c va write => Sys2Proof.Machine.execTlbWalkDone t c va write s
  | .tlbInvalidateRange src => Sys2Proof.Machine.execTlbInvalidateRange src s
  | .tlbInvalidateContext src => Sys2Proof.Machine.execTlbInvalidateContext src s
  | .tlbInvalidateDone => Sys2Proof.Machine.execTlbInvalidateDone s
  | .sramParityError t offset read => Sys2Proof.Machine.execSramParityError t offset read s
  | .meshFlitError t pa retries => Sys2Proof.Machine.execMeshFlitError t pa retries s
  | .dramReadError pa kind => Sys2Proof.Machine.execDramReadError pa kind s
  | .hostPoisonReceived port pa t => Sys2Proof.Machine.execHostPoisonReceived port pa t s
  | .flitResendRequest p seq => Sys2Proof.Machine.execFlitResendRequest p seq s
  | .creditTimeout p vc => Sys2Proof.Machine.execCreditTimeout p vc s
  | .laneBerCheck p lane ber => Sys2Proof.Machine.execLaneBerCheck p lane ber s
  | .linkRetrainDone p ok => Sys2Proof.Machine.execLinkRetrainDone p ok s
  | .linkTrainingDone p dom pkg peerPort => Sys2Proof.Machine.execLinkTrainingDone p dom pkg peerPort s
  | .put t => Sys2Proof.Machine.execPut t s
  | .get t => Sys2Proof.Machine.execGet t s
  | .mcast t => Sys2Proof.Machine.execMcast t s
  | .acc t => Sys2Proof.Machine.execAcc t s
  | .dispatch t => Sys2Proof.Machine.execDispatch t s
  | .combine t => Sys2Proof.Machine.execCombine t s
  | .msgPut p m => Sys2Proof.Machine.execMsgPut p m s
  | .msgGetReq p m => Sys2Proof.Machine.execMsgGetReq p m s
  | .msgGetResp p m => Sys2Proof.Machine.execMsgGetResp p m s
  | .msgAcc p m => Sys2Proof.Machine.execMsgAcc p m s
  | .msgSignal p m => Sys2Proof.Machine.execMsgSignal p m s
  | .msgMcastPut p m => Sys2Proof.Machine.execMsgMcastPut p m s
  | .msgDispatch p m => Sys2Proof.Machine.execMsgDispatch p m s
  | .msgCombine p m => Sys2Proof.Machine.execMsgCombine p m s
  | .msgAck p m => Sys2Proof.Machine.execMsgAck p m s
  | .msgNack p m => Sys2Proof.Machine.execMsgNack p m s
  | .msgReply p m => Sys2Proof.Machine.execMsgReply p m s
  | .msgDetach p m => Sys2Proof.Machine.execMsgDetach p m s
  | .msgUnknown p m => Sys2Proof.Machine.execMsgUnknown p m s
  | .messageForward p m => Sys2Proof.Machine.execMessageForward p m s
  | .ackTimeout xfer => Sys2Proof.Machine.execAckTimeout xfer s
  | .convoyStallLimit convoy child => Sys2Proof.Machine.execConvoyStallLimit convoy child s
  | .bucketDeadline entry round bucket => Sys2Proof.Machine.execBucketDeadline entry round bucket s
  | .bucketCloseAcked entry round bucket => Sys2Proof.Machine.execBucketCloseAcked entry round bucket s
  | .lowrankProject t => Sys2Proof.Machine.execLowrankProject t s
  | .orthoGram t => Sys2Proof.Machine.execOrthoGram t s
  | .orthoFactor t => Sys2Proof.Machine.execOrthoFactor t s
  | .orthoApply t => Sys2Proof.Machine.execOrthoApply t s
  | .reconstructOwner t => Sys2Proof.Machine.execReconstructOwner t s
  | .reconstructResidual t => Sys2Proof.Machine.execReconstructResidual t s
  | .optStepSgd t => Sys2Proof.Machine.execOptStepSgd t s
  | .optStepAdamw t => Sys2Proof.Machine.execOptStepAdamw t s
  | .requestTarget src value => Sys2Proof.Machine.execRequestTarget src value s
  | .secureCopy t units => Sys2Proof.Machine.execSecureCopy t units s
  | .secureCommit => Sys2Proof.Machine.execSecureCommit s
  | .swapDone => Sys2Proof.Machine.execSwapDone s
  | .secureTimeout => Sys2Proof.Machine.execSecureTimeout s
  | .restoreLoad src remote => Sys2Proof.Machine.execRestoreLoad src remote s
  | .restoreLoadDone remote => Sys2Proof.Machine.execRestoreLoadDone remote s
  | .restoreVerify src => Sys2Proof.Machine.execRestoreVerify src s
  | .restoreVerifyDone replicas => Sys2Proof.Machine.execRestoreVerifyDone replicas s
  | .sequencerRound => Sys2Proof.Machine.execSequencerRound s
  | .adcConversionDone conv code => Sys2Proof.Machine.execAdcConversionDone conv code s
  | .adcDataRead src conv => Sys2Proof.Machine.execAdcDataRead src conv s
  | .filterWrite src ch member value => Sys2Proof.Machine.execFilterWrite src ch member value s
  | .ruleWrite src rule value => Sys2Proof.Machine.execRuleWrite src rule value s
  | .oscRecalibration => Sys2Proof.Machine.execOscRecalibration s
  | .riskUpdate => Sys2Proof.Machine.execRiskUpdate s
  | .ageingSample slow drift corrected => Sys2Proof.Machine.execAgeingSample slow drift corrected s
  | .ageingDayEnd => Sys2Proof.Machine.execAgeingDayEnd s
  | .hlPerstAssert port => Sys2Proof.Machine.execHlPerstAssert port s
  | .hlPerstRelease port => Sys2Proof.Machine.execHlPerstRelease port s
  | .cxlLinkUp port rate width => Sys2Proof.Machine.execCxlLinkUp port rate width s
  | .cxlLinkDown port => Sys2Proof.Machine.execCxlLinkDown port s
  | .cxlConfigRequest port req => Sys2Proof.Machine.execCxlConfigRequest port req s
  | .hdmAccess port pa op => Sys2Proof.Machine.execHdmAccess port pa op s
  | .biSnoopResponse port line data => Sys2Proof.Machine.execBiSnoopResponse port line data s
  | .wakeNTimeout port => Sys2Proof.Machine.execWakeNTimeout port s
  | .noticeWriteDone => Sys2Proof.Machine.execNoticeWriteDone s
  | .noticeConsumerWrite port value => Sys2Proof.Machine.execNoticeConsumerWrite port value s
  | .ringEnable port => Sys2Proof.Machine.execRingEnable port s
  | .ringDisable port => Sys2Proof.Machine.execRingDisable port s
  | .doeDiscovery port index => Sys2Proof.Machine.execDoeDiscovery port index s
  | .doeTableAccess port entry => Sys2Proof.Machine.execDoeTableAccess port entry s
  | .spdmGetVersion path => Sys2Proof.Machine.execSpdmGetVersion path s
  | .spdmGetCapabilities path => Sys2Proof.Machine.execSpdmGetCapabilities path s
  | .spdmNegotiateAlgorithms path offersP384 offersSha384 => Sys2Proof.Machine.execSpdmNegotiateAlgorithms path offersP384 offersSha384 s
  | .spdmGetDigests path => Sys2Proof.Machine.execSpdmGetDigests path s
  | .spdmGetCertificate path slot offset length => Sys2Proof.Machine.execSpdmGetCertificate path slot offset length s
  | .spdmChallenge path slot nonce => Sys2Proof.Machine.execSpdmChallenge path slot nonce s
  | .spdmGetMeasurements path index signed nonce => Sys2Proof.Machine.execSpdmGetMeasurements path index signed nonce s
  | .spdmUnsupported path request malformed => Sys2Proof.Machine.execSpdmUnsupported path request malformed s
  | .dadComplete duplicate => Sys2Proof.Machine.execDadComplete duplicate s
  | .neighbourSolicitation srcAddr target => Sys2Proof.Machine.execNeighbourSolicitation srcAddr target s
  | .echoRequest srcAddr data => Sys2Proof.Machine.execEchoRequest srcAddr data s
  | .plcaBeaconTimeout => Sys2Proof.Machine.execPlcaBeaconTimeout s
  | .testReset => Sys2Proof.Machine.execTestReset s
  | .extest bits => Sys2Proof.Machine.execExtest bits s
  | .idcode => Sys2Proof.Machine.execIdcode s
  | .samplePreload bits => Sys2Proof.Machine.execSamplePreload bits s
  | .highz => Sys2Proof.Machine.execHighz s
  | .clamp => Sys2Proof.Machine.execClamp s
  | .bypass => Sys2Proof.Machine.execBypass s
  | .privateInstruction opcode => Sys2Proof.Machine.execPrivateInstruction opcode s
  | .fwImageDownload src image => Sys2Proof.Machine.execFwImageDownload src image s
  | .fwWriteDone ok => Sys2Proof.Machine.execFwWriteDone ok s
  | .fwActivate src => Sys2Proof.Machine.execFwActivate src s
  | .svnCommit src => Sys2Proof.Machine.execSvnCommit src s
  | .debugKeyHashSet hash => Sys2Proof.Machine.execDebugKeyHashSet hash s
  | .debugToken token => Sys2Proof.Machine.execDebugToken token s
  | .debugEnd src => Sys2Proof.Machine.execDebugEnd src s
  | .debugExpiry => Sys2Proof.Machine.execDebugExpiry s
  | .powerLoss => Sys2Proof.Machine.execPowerLoss s
  | .managementReferenceLoss => Sys2Proof.Machine.execManagementReferenceLoss s
  | .managementReferenceReturn => Sys2Proof.Machine.execManagementReferenceReturn s
  | .plcaBeacon => Sys2Proof.Machine.execPlcaBeacon s
  | .creditReturn p vc n ack => Sys2Proof.Machine.execCreditReturn p vc n ack s

end Sys2Proof.Machine
end

