-- ==== Sys2Proof/Safety.lean ====
section
/-! DEFINITION. What a safe run is: the block never stops, and every step keeps what the manual never lets a command undo. -/

namespace Sys2Proof.Machine

/-- A state whose memory is in canonical form: addresses rise and no byte 0 is listed (log 1). -/
def State.Canonical (s : State) : Prop := Memory.wf s.mem = true

/-- What every command of the block keeps: the queue of waiting commands is not touched, memory stays canonical, a free value
is never drawn twice (log 7), event numbers never fall (R73), and what was sent stays sent (log 14). -/
structure State.Keeps (s t : State) : Prop where
  queue : t.pending = s.pending
  cells : s.Canonical → t.Canonical
  draws : s.draws ≤ t.draws
  seq : s.log.nextSeq ≤ t.log.nextSeq
  sent : s.out <+: t.out

/-- What a command's effect is measured from: at power-on, the state whose event numbers go on from the persisted log (R72); else the
state itself. -/
def State.before (s : State) (c : Instr) : State := if c = .powerOn ∧ s.power.pst = .off then s.resumed else s

/-- A step that answers a next state. -/
def State.Runs (s : State) : Prop := ∃ t, step s = .next t

end Sys2Proof.Machine
end

