-- ==== Sys2Proof/Certificates/Slice0/Obligations.lean ====
section
/-! DEFINITION. What is claimed of the model: statements about every command, every step and each family of commands. -/

namespace Sys2Proof.Claims

open Sys2Proof.Machine

/-- A path reaches the device: a window that is ready (R51), or ODP while the lighthouse runs. -/
def reaches (s : State) : Src → Prop
  | .win p => s.windowReady p.val = true
  | .odp => s.power.pst ≠ .off

/-- The commands that are the write of one object: path, index, subindex, bytes, effect once the write's checks pass. -/
def writeCommand : Instr → Option (Src × Nat × Nat × List Byte × (Nat → State → Except Nat State))
  | .powerStart src => some (src, 0xB000, 2, [1], fun _ u => u.cmdStart src)
  | .powerNap src => some (src, 0xB000, 2, [2], fun _ u => u.cmdNap)
  | .powerWake src => some (src, 0xB000, 2, [3], fun _ u => u.cmdWake)
  | .powerSleep src => some (src, 0xB000, 2, [4], fun _ u => u.cmdSleep)
  | .powerShutdown src => some (src, 0xB000, 2, [5], fun _ u => u.cmdShutdown)
  | .storeSave src => some (src, 0x1010, 1, [1], fun _ u => if u.store.saving.isSome then .error 0xA00A else .ok u.startSave)
  | .storeDefaults src =>
    some (src, 0x1010, 2, [1], fun _ u => if u.store.saving.isSome then .error 0xA00A else .ok u.savedDefaults.startSave)
  | .positionApply src value => some (src, 0x2200, 4, [BitVec.ofNat 8 value], fun v u => u.positionEff v)
  | .planLoad src => some (src, 0x2400, 3, [1], fun _ u => u.planLoadEff)
  | .planUnload src => some (src, 0x2400, 3, [2], fun _ u => u.unloadEff)
  | .selfTestRun src => some (src, 0x2500, 1, [1], fun _ u => .ok (u.put 0x2500 2 1))
  | .berthFlush src berth => some (src, 0x4021, 0, leBytes 2 berth, fun v u => u.flushEff v)
  | .ctxOpen src n => some (src, 0x3000, 1, leBytes (if n < 256 then 1 else 2) n, fun v u => u.ctxOpenEff v)
  | .ctxResume src c => some (src, ctxIdx c.val, 3, [1], fun _ u => u.resumeEff c.val)
  | .ctxHalt src c => some (src, ctxIdx c.val, 3, [2], fun _ u => u.haltEff c.val)
  | .ctxClose src c => some (src, ctxIdx c.val, 3, [3], fun _ u => u.closeEff c.val)
  | .tlbInvalidateRange src => some (src, 0x3001, 4, [1], fun _ u => u.invEff false)
  | .tlbInvalidateContext src => some (src, 0x3001, 4, [2], fun _ u => u.invEff true)
  | .requestTarget src value => some (src, 0x8201, 1, leBytes 8 value, fun v u => u.requestEff v)
  | .restoreLoad src remote => some (src, 0x8202, 4, [1], fun _ u => u.loadEff remote)
  | .restoreVerify src => some (src, 0x8202, 4, [2], fun _ u => u.verifyEff)
  | .filterWrite src ch member value =>
    some (src, 0x9100 + ch.val, member, leBytes (if member ≤ 2 then 1 else 2) value, fun v u => .ok (u.filterEff ch.val member v))
  | .ruleWrite src rule value => some (src, 0x9200 + rule.val, 0, leBytes 8 value, fun v u => .ok (u.ruleEff rule.val v))
  | .noticeConsumerWrite port value => some (.win port, 0x1310, 6, leBytes 4 value, fun v u => u.consumerEff v)
  | .ringEnable port => some (.win port, 0x1310, 4, [1], fun v u => .ok (u.ringApply v))
  | .ringDisable port => some (.win port, 0x1310, 4, [0], fun v u => .ok (u.ringApply v))
  | .fwActivate src => some (src, 0xC021, 0, [1], fun _ u => u.activateEff)
  | .svnCommit src => some (src, 0xC012, 0, [1], fun _ u => u.svnEff)
  | .debugEnd src => some (src, 0xC030, 4, [1], fun _ u => .ok u.debugStop)
  | _ => none

/-- The commands that are one task's work on its tile: tile, opcode, form, what the task reads, writes and computes, and into how many
parts it is split (R217, R258). -/
def taskRow : Instr → Option (Nat × Nat × (Task → Bool) × Body × (State → Task → Nat))
  | .gemm t => some (t.val, 0x10, fun _ => true, ⟨gemmReads, gemmWrites, State.gemmRun⟩, State.gemmParts)
  | .matvec t => some (t.val, 0x12, fun _ => true, ⟨gemmReads, gemmWrites, State.gemmRun⟩, State.gemmParts)
  | .gemmBwdPair t => some (t.val, 0x11, fun _ => true, ⟨pairReads, pairWrites, State.pairRun⟩, State.pairParts)
  | .attnFwdBlock t => some (t.val, 0x18, fun _ => true, ⟨attnReads false, attnWrites false, State.attnForward⟩, fun _ _ => 1)
  | .attnBwdBlock t => some (t.val, 0x19, fun _ => true, ⟨attnReads true, attnWrites true, State.attnBackward⟩, fun _ _ => 1)
  | .normForward t => some (t.val, 0x20, fun k => !k.normBack, ⟨normReads, normWrites, normForward⟩, fun _ _ => 1)
  | .normBackward t => some (t.val, 0x20, Task.normBack, ⟨normReads, normWrites, normBackward⟩, fun _ _ => 1)
  | .act t => some (t.val, 0x21, fun k => !k.actDeriv, ⟨actReads, actWrites, actForward⟩, fun _ _ => 1)
  | .actDerivative t => some (t.val, 0x21, Task.actDeriv, ⟨actReads, actWrites, actBackward⟩, fun _ _ => 1)
  | .softmaxForward t => some (t.val, 0x22, fun k => !k.smBack, ⟨smReads, smWrites, softmaxForward⟩, fun _ _ => 1)
  | .softmaxBackward t => some (t.val, 0x22, Task.smBack, ⟨smReads, smWrites, softmaxBackward⟩, fun _ _ => 1)
  | .convert t => some (t.val, 0x28, fun _ => true, ⟨convertReads, convertWrites, convert⟩, fun _ _ => 1)
  | .rngFill t => some (t.val, 0x80, fun _ => true, ⟨fun _ _ => [], rngWrites, rngFill⟩, fun _ _ => 1)
  | .signal t => some (t.val, 0x50, fun k => !k.worked, ⟨noReads, fun _ _ => [], signalRun⟩, fun _ _ => 1)
  | .wait t => some (t.val, 0x51, fun k => !k.worked, ⟨noReads, fun _ _ => [], noWork⟩, fun _ _ => 1)
  | .put t => some (t.val, 0x40, fun _ => true, ⟨readsA, noWrites, putRun⟩, fun _ _ => 1)
  | .get t => some (t.val, 0x41, fun _ => true, ⟨noReads, writesD, getRun⟩, fun _ _ => 1)
  | .mcast t => some (t.val, 0x43, fun _ => true, ⟨readsA, noWrites, mcastRun⟩, fun _ _ => 1)
  | .acc t => some (t.val, 0x42, fun _ => true, ⟨readsA, noWrites, State.accRun⟩, fun _ _ => 1)
  | .dispatch t => some (t.val, 0x78, fun _ => true, ⟨dispatchReads, dispatchWrites, dispatchRun⟩, fun _ _ => 1)
  | .combine t => some (t.val, 0x79, fun _ => true, ⟨combineReads, noWrites, combineRun⟩, fun _ _ => 1)
  | .lowrankProject t => some (t.val, 0x68, fun _ => true, ⟨projReads, projWrites, State.projRun⟩, fun _ _ => 1)
  | .orthoGram t => some (t.val, 0x69, fun k => k.orthoMode == 0, ⟨orthoReads, orthoWrites, State.gramRun⟩, fun _ _ => 1)
  | .orthoFactor t => some (t.val, 0x69, fun k => k.orthoMode == 1, ⟨orthoReads, orthoWrites, State.factorRun⟩, fun _ _ => 1)
  | .orthoApply t => some (t.val, 0x69, fun k => k.orthoMode == 2, ⟨orthoReads, orthoWrites, State.applyRun⟩, fun _ _ => 1)
  | .reconstructOwner t => some (t.val, 0x6A, fun k => !k.resid, ⟨reconReads, reconWrites, State.reconRun⟩, fun _ _ => 1)
  | .reconstructResidual t => some (t.val, 0x6A, fun k => k.resid, ⟨reconReads, reconWrites, State.reconRun⟩, fun _ _ => 1)
  | .optStepSgd t => some (t.val, 0x23, fun k => !k.adam, ⟨optReads, optWrites, State.optRun⟩, fun _ _ => 1)
  | .optStepAdamw t => some (t.val, 0x23, fun k => k.adam, ⟨optReads, optWrites, State.optRun⟩, fun _ _ => 1)
  | _ => none

/-- Task k is at the head of tile n, its row may run it, and emulated numerics do not refuse it. -/
def begins (s : State) (n op : Nat) (form : Task → Bool) (k : Task) : Prop :=
  (s.tile n).next = some (k, none) ∧ k.opcode = op ∧ form k = true ∧ s.mayStart k = true ∧ s.operating = true
    ∧ ¬(s.work.get 0x5000 1 = 1 ∧ k.emuRefused = true)

/-- The ferry slots that a task's operands touch admit it: those it reads and the chunk it fills (R299 to R303). -/
def admits (s : State) (n : Nat) (k : Task) (reads writes : List (Nat × Nat)) (slots : List (Nat × Nat)) (load : Option (Nat × Nat)) : Prop :=
  s.ferryRead n (s.placeOf (some n) k.ctx reads false) = .ok slots
    ∧ s.ferryWrite n k.chainLoad (s.placeOf (some n) k.ctx writes true) = .ok load

/-- What a finished task's row leaves of its task: the status, the slots it read and filled, the ranges it wrote and the transfers it
has issued. -/
def taskDone (n : Nat) (k : Task) (slots : List (Nat × Nat)) (load : Option (Nat × Nat)) (w : List (Nat × Nat)) (status : Nat)
    (s : State) : State :=
  let j := ((s.tile n).tasks.find? (fun x => x.id == k.id)).getD k
  let s := s.setTask n { j.issues (s.tile n).freeEntries status w with slotsRead := slots, chainLoad := load }
  (s.reissue n j w).regrant n

/-- Task k of tile n begins and its work answers u and a status: its row leaves t. -/
def runs (s : State) (n op : Nat) (form : Task → Bool) (body : Body) (k : Task) (t : State) : Prop :=
  begins s n op form k ∧ ∃ slots load status u, admits s.work n k (body.reads s.work k) (body.writes s.work k) slots load
    ∧ body.run (s.work.startedAs n k (body.reads s.work k ++ body.writes s.work k) (body.writes s.work k)) n k = .ok (u, status)
    ∧ t = taskDone n k slots load (body.writes s.work k) status u

/-- The commands that are one move of units of a task. -/
def unitRow : Instr → Option (Nat × Nat × Nat × Dma)
  | .copy t units => some (t.val, 0x29, units,
    ⟨copyReads, copyWrites, fun _ k => (copyUnits k).length, fun _ k n => ((copyUnits k).take n).map (fun u => (k.addrD + u.1, u.2)),
      fun s t k from_ n =>
        let us := ((copyUnits k).drop from_).take n
        aliasRun (copyGo s t k us) t k.ctx (copyReads s k) (us.map (fun u => (k.addrD + u.1, u.2)))⟩)
  | .transpose t units => some (t.val, 0x2A, units,
    ⟨transReads, transWrites, fun _ k => (transUnits k).length,
      fun _ k n => ((transUnits k).take n).map (fun u => (k.addrD + u.1 * k.dstStride + u.2.1, u.2.2)),
      fun s t k from_ n =>
        let us := ((transUnits k).drop from_).take n
        aliasRun (transGo s t k us) t k.ctx (transReads s k) (us.map (fun u => (k.addrD + u.1 * k.dstStride + u.2.1, u.2.2)))⟩)
  | .secureCopy t units => some (t.val, 0x70, units,
    ⟨fun _ _ => [], fun _ _ => [], fun _ k => secureUnits k, fun _ _ _ => [], secureMove⟩)
  | _ => none

/-- What a row that moved m of the units left of its task leaves of it, the head of its tile or a task that runs ahead of it. -/
def unitsDone (n : Nat) (d : Dma) (s : State) (k : Task) (head : Bool) (m : Nat) (left slots : List (Nat × Nat)) (load : Option (Nat × Nat))
    (s' : State) : State :=
  let j := (s'.findTask n k.id).getD k
  let u := j.units + m
  let done := decide (d.total s j ≤ u)
  let s' := s'.setTask n { j with st := if head then .running else j.st, units := u, worked := head && done, issued := done,
                                  slotsRead := slots, chainLoad := load, written := d.moved s j u, outstanding := j.outstanding + m }
  (s'.reissue n j (left.take m)).regrant n

/-- The commands of a BAR0 access through a port: each row that reads or writes the window. -/
def windowWrite (p : HostPort) (c : Instr) : Prop :=
  (∃ off size v, c = .dictWrite p off size v) ∨ (∃ off size v, c = .windowAccessRefused p off size true v)
    ∨ (∃ ch v, c = .dacSetTarget p ch v) ∨ (∃ ch reg v, c = .dacParamWrite p ch reg v) ∨ (∃ ch v, c = .dacOpen p ch v)
    ∨ (∃ ch v buf, c = .dacXfer p ch v buf) ∨ (∃ ch v, c = .dacClose p ch v) ∨ (∃ ch v, c = .dacAbort p ch v)
    ∨ ∃ idx sub bs eff, writeCommand c = some (.win p, idx, sub, bs, eff)

/-- A frame reaches the device: its address is in use, the frame is sent to it on ODP_PORT, and it is no repetition (R55, R59). -/
def hears (s : State) (f : OdpFrame) (typ : Nat) : Prop :=
  s.odpUp = true ∧ f.dst ≠ .other ∧ odpIgnored f typ = false ∧ f.dstPort = s.get 0x1100 1 ∧ (typ = 0x22 → s.rx.odpWriting f = false)
    ∧ s.rx.odpMemo f typ = none

/-- A frame's header passes its checks (R56). -/
def wellHeaded (f : OdpFrame) : Prop := f.version = 1 ∧ f.plen ≤ 1024 ∧ f.flags < 2

/-- The step of a queue: one command after another, as long as a step answers a next state. -/
def steps : Nat → State → Option State
  | 0, s => some s
  | n + 1, s => match step s with
    | .next t => steps n t
    | _ => none

/-- The ODP request rows: the frame, its TYPE, and the answer they compute. -/
def odpRow : Instr → Option (OdpFrame × Nat × (State → State × Option OdpResp))
  | .odpReadReq f => some (f, 0x01, odpRead f)
  | .odpWriteReq f => some (f, 0x03, odpWrite f)
  | .odpUploadInit f => some (f, 0x10, odpUpload f)
  | .odpUploadSegReq f => some (f, 0x12, odpUploadSeg f)
  | .odpDownloadInit f => some (f, 0x20, odpDownload f)
  | .odpDownloadSeg f => some (f, 0x22, odpDownloadSeg f)
  | .odpTransferAbort f => some (f, 0x30, odpAbort f)
  | .odpDiscover f => some (f, 0x50, fun s => (s, some (odpAnswer f 0x51 0 s.identityImage)))
  | _ => none

/-- The messages whose effect at their destination is one shared operation (R366, R311, R372). -/
def landRow : Instr → Option (HawserPort × Msg × (State → State))
  | .msgPut p m => some (p, m, fun s => s.landPut m)
  | .msgDispatch p m => some (p, m, fun s => s.landPut m)
  | .msgCombine p m => some (p, m, fun s => s.landPut m)
  | .msgSignal p m => some (p, m, fun s => (s.landSignal m.ctx m.bollard m.increment).ack m)
  | .msgMcastPut p m => some (p, m, fun s => s.relayPut p.val m)
  | .msgAcc p m => some (p, m, fun s => (s.contribute m.ctx m.srcPkg m.step m.dstAddr m.payload m.typeData).2.replyAcc m
      (s.contribute m.ctx m.srcPkg m.step m.dstAddr m.payload m.typeData).1)
  | .msgUnknown p m => some (p, m, fun s => s.dropMsg p.val)
  | _ => none

/-- The state in which a message that arrived on port p is counted with its flits (R362). -/
def received (s : State) (p : HawserPort) (m : Msg) : State :=
  (s.count 0x7040 2 64 1).setPort p.val { s.port p.val with rx := (s.port p.val).rx + msgFlits m }

/-- A message arrives on a link that is up, at the package it names and at a context the device has. -/
def arrives (s : State) (p : HawserPort) (m : Msg) : Prop :=
  (s.operating = true ∨ s.power.pst = .nap) ∧ s.linkState p.val = 2 ∧ s.ownDom = m.dstDom ∧ s.ownPkg = m.dstPkg ∧ m.ctx < 64

/-- The state in which a message takes its effect: received, and NAP left for work. -/
def landed (s : State) (p : HawserPort) (m : Msg) : State := (received s p m).napWake.work

/-- The flits of a message that has been consumed go back to the sender as credit (R362). -/
def credited (p : HawserPort) (m : Msg) (s : State) : State := s.returnCredit p.val m.vc (msgFlits m)

/-- The event e is the newest one in the log. -/
def newest (s : State) (code severity : Nat) : Prop :=
  ∃ e, s.log.ring.getLast? = some e ∧ e.code = code ∧ e.severity = severity

end Sys2Proof.Claims

section
open Sys2Proof Sys2Proof.Machine Sys2Proof.Claims

/-! ## The queue and the step -/

/-- Where commands wait, a step takes the front one and runs it with the queue's rest. With no command waiting only the timer
advances, by an amount the model leaves free (the model's choice, log 2). -/
def Obligations.StepRunsTheFrontCommandOrIdles : Prop :=
  (∀ (s : State) (c : Instr) (rest : List Instr), s.pending = c :: rest → step s = exec c { s with pending := rest })
    ∧ (∀ s : State, s.pending = [] → step s = .next { s with timer := s.timer + Config.tick s.timer })

/-- The machine of log 4 (the model's choice), before 48 V: OFF, nothing queued, nothing sent, no plan, no task, every object at its default,
the test port at IDCODE. -/
def Obligations.ResetIsOffWithEveryObjectAtItsDefault : Prop :=
  State.reset.power.pst = .off ∧ State.reset.pending = [] ∧ State.reset.out = [] ∧ State.reset.timer = 0
    ∧ State.reset.plan = none ∧ State.reset.tiles = [] ∧ State.reset.tap.ir = .idcode
    ∧ (∀ idx sub : Nat, State.reset.get idx sub = objDefault (key idx sub)) ∧ (∀ a : Nat, State.reset.byteAt a = 0)

/-- Every command of the block, in every state, answers a next state; it leaves the queue alone, keeps memory canonical, never
draws a free value twice, never reuses an event number, and takes back nothing that was sent. Power-on from OFF is measured from
the state whose numbers go on from the persisted log, since unpersisted entries are lost with the supply (R72). -/
def Obligations.EveryCommandCompletesAndKeeps : Prop :=
  ∀ (c : Instr) (s : State), ∃ t, exec c s = .next t ∧ (s.before c).Keeps t

/-- Every step answers a next state, keeps the canonical form of memory, leaves the queue without its front command, never draws a free
value twice and takes back nothing that was sent; event numbers never fall, but for a power-on, which goes on from the persisted
log (R72). -/
def Obligations.EveryStepKeepsMemoryCanonical : Prop :=
  ∀ s : State, ∃ t, step s = .next t ∧ (s.Canonical → t.Canonical) ∧ t.pending = s.pending.tail ∧ s.draws ≤ t.draws
    ∧ (s.pending.head? ≠ some .powerOn → s.log.nextSeq ≤ t.log.nextSeq) ∧ s.out <+: t.out

/-- The canonical form holds at reset. -/
def Obligations.ResetMemoryIsCanonical : Prop := State.reset.Canonical

/-- Commands are taken first in, first out: as many steps as there are commands in front of `rest` run exactly those, and leave
`rest` waiting. -/
def Obligations.CommandsRunFirstInFirstOut : Prop :=
  ∀ (s : State) (cs rest : List Instr), ∃ t, steps cs.length { s with pending := cs ++ rest } = some t ∧ t.pending = rest
    ∧ (s.Canonical → t.Canonical) ∧ s.draws ≤ t.draws ∧ (.powerOn ∉ cs → s.log.nextSeq ≤ t.log.nextSeq) ∧ s.out <+: t.out

/-! ## Accesses -/

/-- A command that writes one object takes its effect once the write's checks pass (R43, R44); over ODP it is answered. -/
def Obligations.WriteCommandsTakeEffect : Prop :=
  ∀ c src idx sub bs eff (s t : State) (v : Nat), writeCommand c = some (src, idx, sub, bs, eff) → reaches s src →
    s.checkWrite src idx sub bs = .ok v → eff v s = .ok t → exec c s = .next (t.accept src idx sub)

/-- A refused write changes nothing but the record of its abort code (R44, R52, R60). -/
def Obligations.RefusedWriteCommandsOnlyRecordTheCode : Prop :=
  ∀ c src idx sub bs eff (s : State) (code : Nat), writeCommand c = some (src, idx, sub, bs, eff) → reaches s src →
    (s.checkWrite src idx sub bs = .error code ∨ ∃ v, s.checkWrite src idx sub bs = .ok v ∧ eff v s = .error code) →
    exec c s = .next (s.refuse src idx sub code)

/-- R52: a refused window access leaves its code in LAST_ABORT, its index and subindex in LAST_TARGET, and adds 1 to ABORT_COUNT,
which saturates at 2^32 − 1; every other object and every byte of memory stays. A read of LAST_ABORT returns the code and
then clears it (R52); nothing else of the device changes. -/
def Obligations.RefusalsAreRecordedAndReadOnce : Prop :=
  (∀ (s : State) (p : HostPort) (idx sub code : Nat), s.windowReady p.val = true →
    (s.refuse (.win p) idx sub code).get (0x1200 + p.val) 2 = code
      ∧ (s.refuse (.win p) idx sub code).get (0x1200 + p.val) 3 = key idx sub
      ∧ (s.refuse (.win p) idx sub code).get (0x1200 + p.val) 4 = min (2 ^ 32 - 1) (s.get (0x1200 + p.val) 4 + 1)
      ∧ (∀ i a, a < 256 → ¬(i = 0x1200 + p.val ∧ (a = 2 ∨ a = 3 ∨ a = 4)) → (s.refuse (.win p) idx sub code).get i a = s.get i a)
      ∧ (s.refuse (.win p) idx sub code).mem = s.mem)
    ∧ (∀ (s : State) (p : HostPort), s.windowReady p.val = true →
    exec (.lastAbortRead p) s = .next ((s.put (0x1200 + p.val) 2 0).emit (.winData p.val (leBytes 2 (s.get (0x1200 + p.val) 2)))))

/-- R51: until WINDOW_READY of a port reads 1, every command that writes the port's BAR0 changes nothing, not even the record of
refusals, and every command that reads it answers all ones and changes nothing else. -/
def Obligations.UnreadyWindowsDropWritesAndReadOnes : Prop :=
  ∀ (s : State) (p : HostPort), s.get (0x1200 + p.val) 1 ≠ 1 →
    (∀ c, windowWrite p c → exec c s = .next s)
      ∧ (∀ offset size value, offset < barEnd → exec (.windowAccessRefused p offset size false value) s =
          .next (s.emit (.winData p.val (List.replicate size 0xFF))))
      ∧ exec (.lastAbortRead p) s = .next (s.emit (.winData p.val [0xFF, 0xFF]))
      ∧ (∀ conv, exec (.adcDataRead (.win p) conv) s = .next (s.emit (.winData p.val [0xFF, 0xFF, 0xFF, 0xFF])))

/-- At a ready window a direct write of an object is judged by its form first, then made by the shared write of the dictionary or
refused with its code (R44, R50); a read of good form returns the object's bytes of the slot's image, another is refused with
0xA011 and returns all ones (R50, R52). -/
def Obligations.DirectWritesAreMadeOrRefused : Prop :=
  ∀ (s : State) (p : HostPort) (idx sub size value : Nat), s.windowReady p.val = true → sub < 256 → idx < 65536 →
    let at_ := idx * 2048 + sub * 8
    (∀ o bs, size = 4 ∨ size = 8 → s.writeAccess (.win p) idx sub = .ok o → slotBytes o size value = some bs →
      (∀ t, s.writeScalar (.win p) idx sub bs = .ok t → exec (.dictWrite p at_ size value) s = .next t)
        ∧ (∀ code, s.writeScalar (.win p) idx sub bs = .error code →
            exec (.dictWrite p at_ size value) s = .next (s.refuse (.win p) idx sub code)))
      ∧ (∀ o, objDef idx sub = some o → slotBytes o size value = none →
          exec (.dictWrite p at_ size value) s = .next (s.refuse (.win p) idx sub 0xA011))
      ∧ (∀ code, size = 4 ∨ size = 8 → (∀ o, objDef idx sub = some o → slotBytes o size value ≠ none) →
          s.writeAccess (.win p) idx sub = .error code →
          exec (.dictWrite p at_ size value) s = .next (s.refuse (.win p) idx sub code))
      ∧ (∀ k, k < 8 → ¬(k = 0 ∧ (size = 4 ∨ size = 8)) →
          exec (.windowAccessRefused p (at_ + k) size true value) s = .next (s.refuse (.win p) idx sub 0xA011))
      ∧ (∀ k, k < 8 → readForm (at_ + k) size = false → exec (.windowAccessRefused p (at_ + k) size false value) s =
          .next ((s.refuse (.win p) idx sub 0xA011).emit (.winData p.val (List.replicate size 0xFF))))
      ∧ (∀ k o, k < 8 → readForm (at_ + k) size = true → s.readAccess (.win p) idx sub = .ok (some o) → o.type.scalar = true →
          exec (.windowAccessRefused p (at_ + k) size false value) s =
            .next ((s.afterRead idx sub).emit (.winData p.val (((leBytes 8 (slotImage o.type (s.scalarVal idx sub))).drop k).take size))))

/-- R54: what each command of a channel does where it is allowed. OPEN judges the object and takes an upload's snapshot, XFER moves
its segment through BUSY, CLOSE ends the transfer and applies a download whole, ABORT ends it with 0xA00D, and a channel left
alone for 10 s is aborted with 0xA00C; a firmware image keeps the channel BUSY until it is written (R524). -/
def Obligations.DacCommandsActAndSegmentsEnd : Prop :=
  ∀ (s : State) (p : HostPort) (ch : DacCh) (c : Nat),
    let d := s.dac p.val ch.val
    let became (s : State) (d : Dac) := Host.Outcome.next (s.setDac p.val ch.val d)
    (s.windowReady p.val = true → ctrlReserved c = false →
      (d.idle = true → exec (.dacSetTarget p ch c) s = became s { d with index := bits c 39 24, sub := bits c 23 16, download := bit c 7 })
        ∧ (d.idle = true →
          let u := s.setDac p.val ch.val { d with index := bits c 39 24, sub := bits c 23 16, download := bit c 7 }
          let a := u.dac p.val ch.val
          (a.download = true → u.downloadCheck (.win p) a.index a.sub a.size = 0 →
            exec (.dacOpen p ch c) s = became u { a with state := 1, data := [], busy := none })
            ∧ (a.download = true → u.downloadCheck (.win p) a.index a.sub a.size ≠ 0 →
              exec (.dacOpen p ch c) s =
                became u { a with state := 4, abort := u.downloadCheck (.win p) a.index a.sub a.size, data := [], busy := none })
            ∧ (∀ bs w, a.download = false → u.uploadCheck (.win p) a.index a.sub = .ok (bs, w) →
              exec (.dacOpen p ch c) s = became w { w.dac p.val ch.val with state := 1, size := bs.length, data := bs, busy := none })
            ∧ (∀ code, a.download = false → u.uploadCheck (.win p) a.index a.sub = .error code →
              exec (.dacOpen p ch c) s = became u { a with state := 4, abort := code, data := [], busy := none }))
        ∧ (∀ buf, d.ready = true → d.length = 0 ∨ (d.offset + d.length ≤ d.size ∧ (d.download = true → d.offset = d.data.length)) →
          exec (.dacXfer p ch c buf) s =
            became s { d with state := 2, busy := some (d.offset, d.length), buf := if d.download then buf.take 65536 else d.buf })
        ∧ (d.ready = true → d.download = false → exec (.dacClose p ch c) s = became s { d with state := 5, data := [] })
        ∧ (d.ready = true → d.download = true → d.data.length = d.size →
          let u := s.setDac p.val ch.val { d with state := 5, data := [] }
          let e := u.downloadEnd (.win p) d.index d.sub d.data
          (e.2 = 0 → d.index ≠ 0xC020 → exec (.dacClose p ch c) s = .next e.1)
            ∧ (e.2 ≠ 0 → exec (.dacClose p ch c) s =
                became e.1 { e.1.dac p.val ch.val with state := 4, abort := e.2, data := [], busy := none })
            ∧ (e.2 = 0 → d.index = 0xC020 → exec (.dacClose p ch c) s =
                became { e.1 with fw := { e.1.fw with writer := some (.dac p.val ch.val) } } { d with state := 2, data := [], busy := none }))
        ∧ (d.isOpen = true → s.fw.writer = none →
          exec (.dacAbort p ch c) s = became s { d with state := 4, abort := 0xA00D, data := [], busy := none }))
      ∧ (∀ off n, d.state = 2 → d.busy = some (off, n) → d.download = true →
        exec (.dacSegmentDone p ch) s = became s { d with state := 3, busy := none, data := d.data ++ (d.buf ++ zeros (n - d.buf.length)).take n })
      ∧ (∀ off n, d.state = 2 → d.busy = some (off, n) → d.download = false →
        exec (.dacSegmentDone p ch) s = became s { d with state := 3, busy := none, buf := s.uploadRange d.index d.sub d.data off n ++ d.buf.drop n })
      ∧ (d.state = 1 ∨ d.state = 3 →
        exec (.dacTimeout p ch) s = became s { d with state := 4, abort := 0xA00C, data := [], busy := none })

/-- R534: DAC_SIZE may be written while the channel is idle, DAC_OFFSET and DAC_LENGTH in every state but BUSY; a length above 65,536,
a command that is not allowed in its state, a DAC_CTRL write with a reserved bit and a segment out of order or out of range are
refused, recorded in DAC_ABORT, and leave the transfer as it was (R54, R534; 0xA008 for a download segment past DAC_SIZE is the
model's choice, log 70). -/
def Obligations.DacParametersFollowTheChannelState : Prop :=
  ∀ (s : State) (p : HostPort) (ch : DacCh) (v : Nat), s.windowReady p.val = true → v < 2 ^ 64 →
    let d := s.dac p.val ch.val
    let became (d : Dac) := Host.Outcome.next (s.setDac p.val ch.val d)
    (d.idle = true → exec (.dacParamWrite p ch 8 v) s = became { d with size := v })
      ∧ (d.idle = false → exec (.dacParamWrite p ch 8 v) s = became { d with abort := 0xA00B })
      ∧ (d.state ≠ 2 → exec (.dacParamWrite p ch 16 v) s = became { d with offset := v })
      ∧ (d.state ≠ 2 → v ≤ 65536 → exec (.dacParamWrite p ch 24 v) s = became { d with length := v })
      ∧ (d.state ≠ 2 → 65536 < v → exec (.dacParamWrite p ch 24 v) s = became { d with abort := 0xA008 })
      ∧ (d.state = 2 → exec (.dacParamWrite p ch 16 v) s = became { d with abort := 0xA00B }
          ∧ exec (.dacParamWrite p ch 24 v) s = became { d with abort := 0xA00B })
      ∧ (∀ buf, ctrlReserved v = true → ∀ c : Instr, c = .dacSetTarget p ch v ∨ c = .dacOpen p ch v ∨ c = .dacXfer p ch v buf
          ∨ c = .dacClose p ch v ∨ c = .dacAbort p ch v → exec c s = became { d with abort := 0xA007 })
      ∧ (ctrlReserved v = false →
        (d.idle = false → exec (.dacSetTarget p ch v) s = became { d with abort := 0xA00B }
            ∧ exec (.dacOpen p ch v) s = became { d with abort := 0xA00B })
          ∧ (d.ready = false → (∀ buf, exec (.dacXfer p ch v buf) s = became { d with abort := 0xA00B })
            ∧ exec (.dacClose p ch v) s = became { d with abort := 0xA00B })
          ∧ (d.isOpen = false → exec (.dacAbort p ch v) s = became { d with abort := 0xA00B })
          ∧ (∀ buf, d.ready = true → d.length ≠ 0 → d.download = true → d.offset ≠ d.data.length →
            exec (.dacXfer p ch v buf) s = became { d with abort := 0xA00B })
          ∧ (∀ buf, d.ready = true → d.length ≠ 0 → (d.download = true → d.offset = d.data.length) → d.size < d.offset + d.length →
            exec (.dacXfer p ch v buf) s = became { d with abort := 0xA008 })
          ∧ (d.ready = true → d.download = true → d.data.length ≠ d.size →
            exec (.dacClose p ch v) s = became { d with abort := 0xA00B }))

/-- A frame that reaches the device and whose header is good is worked off and its answer sent back to where it came from (R55 to R60):
a scalar's value, the result of a write, the size and the segments of an upload, the steps of a download, the end of an aborted
transfer (answered with 0xA00D, the model's choice, log 70), and the identity record; a refusal is an ABORT with its code. -/
def Obligations.OdpRequestsAreAnswered : Prop :=
  ∀ (s : State) (f : OdpFrame), wellHeaded f →
    let u := s.rx
    let answers (c : Instr) (typ : Nat) (t : State) (r : OdpResp) : Prop := hears s f typ → exec c s = .next (t.odpReply f typ r)
    (∀ o, u.readAccess .odp f.index f.sub = .ok o → (∀ d, o = some d → d.type.isDomain = false) → (u.valueOf o f.index f.sub).length ≤ 1024 →
      answers (.odpReadReq f) 0x01 (u.afterRead f.index f.sub) (odpAnswer f 0x02 0 (u.valueOf o f.index f.sub)))
      ∧ (∀ c, u.readAccess .odp f.index f.sub = .error c → answers (.odpReadReq f) 0x01 u (odpAbortResp f c))
      ∧ (∀ t, f.plen ≤ f.payload.length → f.index ≠ 0x1400 → u.writeScalar .odp f.index f.sub (f.payload.take f.plen) = .ok t →
        answers (.odpWriteReq f) 0x03 t (odpAnswer f 0x04))
      ∧ (∀ t, f.plen ≤ f.payload.length → f.index = 0x1400 → u.writeScalar .odp f.index f.sub (f.payload.take f.plen) = .ok t →
        hears s f 0x03 → exec (.odpWriteReq f) s = .next (t.odpReply f 0x03 (odpAnswer f 0x04)).plcaRefresh)
      ∧ (∀ c, c ≠ 0 → f.plen ≤ f.payload.length → u.writeScalar .odp f.index f.sub (f.payload.take f.plen) = .error c →
        answers (.odpWriteReq f) 0x03 u (odpAbortResp f c))
      ∧ (∀ bs t, u.uploadCheck .odp f.index f.sub = .ok (bs, t) → u.odpFull f = false →
        answers (.odpUploadInit f) 0x10 (t.odpOpen ⟨f.srcAddr, f.tid, f.index, f.sub, false, bs.length, bs⟩)
          (odpAnswer f 0x11 0 [] 0 (some bs.length)))
      ∧ (∀ x, u.odpXfer f = some x → x.download = false → f.offset + f.plen ≤ x.total →
        answers (.odpUploadSegReq f) 0x12 u (odpAnswer f 0x13 0 (u.uploadRange x.index x.sub x.data f.offset f.plen)
          (if f.offset + f.plen = x.total then 1 else 0)))
      ∧ (u.downloadCheck .odp f.index f.sub f.offset = 0 → u.odpFull f = false →
        answers (.odpDownloadInit f) 0x20 (u.odpOpen ⟨f.srcAddr, f.tid, f.index, f.sub, true, f.offset, []⟩) (odpAnswer f 0x21))
      ∧ (∀ x, u.odpXfer f = some x → x.download = true → f.plen ≤ f.payload.length → f.offset = x.data.length →
        let bs := f.payload.take f.plen
        (bs ≠ [] → bit f.flags 0 = false → f.index ≠ 0x1400 → f.offset + bs.length ≤ x.total →
          answers (.odpDownloadSeg f) 0x22 (u.odpSet f { x with data := x.data ++ bs }) (odpAnswer f 0x23))
          ∧ (let e := (u.odpDrop f).downloadEnd .odp x.index x.sub (x.data ++ bs)
            bit f.flags 0 = true → x.data.length + bs.length = x.total → f.index ≠ 0x1400 →
              (e.2 = 0 → x.index ≠ 0xC020 → answers (.odpDownloadSeg f) 0x22 e.1 (odpAnswer f 0x23))
                ∧ (e.2 ≠ 0 → answers (.odpDownloadSeg f) 0x22 e.1 (odpAbortResp f e.2))
                ∧ (e.2 = 0 → x.index = 0xC020 → hears s f 0x22 → exec (.odpDownloadSeg f) s =
                  .next { e.1 with fw := { e.1.fw with writer := some (.odp f.srcAddr f.srcPort f.tid f.index f.sub f.offset) } })))
      ∧ (∀ x, u.odpXfer f = some x → answers (.odpTransferAbort f) 0x30 (u.odpDrop f) (odpAbortResp f 0xA00D))
      ∧ answers (.odpDiscover f) 0x50 u (odpAnswer f 0x51 0 u.identityImage)

/-- R55 to R59: a frame of another version is answered with ABORT 0xA015, one of an unknown type with 0xA00B; a repeated frame is
answered again from memory and not executed; a datagram for another address or port changes nothing. A transfer that times out
is dropped with 0xA00C and nothing is sent (R58). -/
def Obligations.OdpStrangersAreAbortedAndTransfersTimeOut : Prop :=
  ∀ (s : State) (f : OdpFrame),
    (hears s f f.typ → f.version ≠ 1 → exec (.odpUnknownFrame f) s = .next (s.rx.odpReply f f.typ (odpAbortResp f 0xA015)))
      ∧ (hears s f f.typ → wellHeaded f → odpTypes.contains f.typ = false →
          exec (.odpUnknownFrame f) s = .next (s.rx.odpReply f f.typ (odpAbortResp f 0xA00B)))
      ∧ (∀ c typ act, odpRow c = some (f, typ, act) → s.odpUp = true → f.dst ≠ .other →
        (odpIgnored f typ = true ∨ f.dstPort ≠ s.get 0x1100 1 → exec c s = .next s.rx)
          ∧ (∀ m, odpIgnored f typ = false → f.dstPort = s.get 0x1100 1 → (typ = 0x22 → s.rx.odpWriting f = false) →
            s.rx.odpMemo f typ = some m → exec c s = .next (s.rx.tx (.odp f.srcAddr f.srcPort m.resp))))
      ∧ (∀ c typ act, odpRow c = some (f, typ, act) → f.dst = .other → exec c s = .next s)
      ∧ (∀ n x, s.odp.xfers[n]? = some x → exec (.odpTransferTimeout n) s =
          .next { s with odp := { s.odp with xfers := s.odp.xfers.eraseIdx n, dead := s.odp.dead ++ [(x.addr, x.tid, 0xA00C)] } })

/-! ## Power -/

/-- Undervoltage, a regulator fault, overvoltage and the loss of the supply take the device down from every state that has one to
leave (R5, R479, R487, R490): the state and the cause read back, and the two faults are the newest event. -/
def Obligations.SupplyFaultsTakeTheDeviceDown : Prop :=
  ∀ s : State, s.power.pst ≠ .off →
    (s.power.pst ≠ .aux →
      (∃ t, exec .inputUndervoltage s = .next t ∧ t.power.pst = .aux ∧ t.get 0xB000 6 = 0x8001 ∧ newest t 0x8001 deviceFault)
        ∧ (∃ t, exec .regulatorFault s = .next t ∧ t.power.pst = .aux ∧ t.get 0xB000 6 = 0x8009 ∧ newest t 0x8009 deviceFault))
      ∧ (∃ t, exec .inputOvervoltage s = .next t ∧ t.power.pst = .off ∧ t.get 0xB000 6 = 0x8002 ∧ t.power.ovLatch = true
          ∧ t.mgmt.running = false ∧ t.plan = none ∧ t.tiles = [])
      ∧ (∃ t, exec .powerLoss s = .next t ∧ t.power.pst = .off ∧ t.mgmt.running = false ∧ t.plan = none ∧ t.tiles = [])

/-- 48 V takes an OFF device to AUX with the lighthouse started afresh: its timer at 0, the management port running where it has its
reference, event numbers going on from the persisted log, and a start pending if AUTO_START asks for one (R72, R487, R499). The
clamp check stands between AUX and BOOT (R33; that it stands there at every start out of AUX is the model's reading, log 69).
PKG_RESET_N takes the device to AUX with its volatile objects at their defaults, the timer at 0 and LAST_DOWN_CAUSE 0x800C, and
holds it there; its release starts the lighthouse and, with AUTO_START 1, asks for the start (R487, R491). -/
def Obligations.PowerOnAndPackageResetStartTheLighthouse : Prop :=
  (∀ s : State, s.power.pst = .off → ∃ t, exec .powerOn s = .next t ∧ t.power.pst = .aux ∧ t.timer = 0 ∧ t.staged = []
      ∧ t.mgmt.running = (s.mgmt.running || s.power.mref) ∧ t.power.clampGood = false ∧ t.power.startPending = t.autoStart
      ∧ t.log.bootCount = (s.log.bootCount + 1) % 65536 ∧ s.log.resumeSeq ≤ t.log.nextSeq)
    ∧ (∀ s : State, s.power.pst ≠ .off → ∃ t, exec .pkgResetAssert s = .next t ∧ t.power.pst = .aux ∧ t.power.resetLow = true
      ∧ t.timer = 0 ∧ t.get 0xB000 6 = 0x800C ∧ t.get 0xB000 1 = PState.aux.code ∧ t.staged = [] ∧ t.power.clampGood = false
      ∧ t.power.hmRunning = false ∧ t.plan = none ∧ t.store.orderly = false)
    ∧ (∀ s : State, s.power.pst = .off → exec .pkgResetAssert s = .next { s with power := { s.power with resetLow := true } })
    ∧ (∀ s : State, s.power.resetLow = true →
      (s.power.pst = .aux → s.power.clampGood = false → s.power.startPending = false →
        ∃ t, exec .pkgResetRelease s = .next t ∧ t.power.resetLow = false ∧ t.power.pst = .aux ∧ t.power.startPending = t.autoStart
          ∧ t.mgmt.running = (s.mgmt.running || s.power.mref) ∧ t.log.bootCount = (s.log.bootCount + 1) % 65536)
        ∧ (s.power.pst = .off → exec .pkgResetRelease s = .next { s with power := { s.power with resetLow := false } }))

/-- Start-up, step by step, each from the phase before it and no other: the clamp check holds the device in AUX until the two clamps
lie within 0.5 V, and logs 0x8003 while they do not (R33); then the firmware, of which a slot that fails is passed over and no slot
left means AUX with 0x9001 (R523); the regulators, the harbourmaster, DRAM training, self-test, the restore window and the default
objects, with the device fault of a step that fails (R109, R162, R169, R175, R497, R498, R500). -/
def Obligations.StartUpRunsInOrder : Prop :=
  ∀ s : State,
    (∀ ne sw, s.power.pst = .aux → s.power.resetLow = false → s.power.clampGood = false →
      (ne ≤ sw + 500 → sw ≤ ne + 500 →
        (s.power.startPending = false → exec (.clampCheck ne sw) s = .next { s with power := { s.power with clampGood := true } })
          ∧ (s.power.startPending = true → ∃ t, exec (.clampCheck ne sw) s = .next t ∧ t.power.pst = .boot ∧ t.power.phase = .firmware
            ∧ t.power.clampGood = true ∧ t.power.startPending = false ∧ t.power.convertersOn = s.power.convertersOn ∧ t.mem = s.mem))
        ∧ (sw + 500 < ne ∨ ne + 500 < sw → ∃ t, exec (.clampCheck ne sw) s = .next t ∧ t.power = s.power ∧ newest t 0x8003 warning
          ∧ t.mem = s.mem ∧ t.docks = s.docks))
      ∧ (s.power.pst = .boot → s.power.phase = .firmware →
        (s.slotValid s.fw.running = true → exec (.firmwareVerifyDone true) s =
            .next { s with fw := { s.fw with hmVerified := true }, power := { s.power with phase := .regulators } })
          ∧ (let v := { s with fw := { s.fw with passedOver := s.fw.running :: s.fw.passedOver } }
            (∀ n rest, v.fw.order.filter (fun n => v.slotValid n && !v.fw.passedOver.contains n) = n :: rest →
              ∃ t, exec (.firmwareVerifyDone false) s = .next t ∧ t.power.pst = .boot ∧ t.power.phase = .firmware ∧ t.fw.running = n
                ∧ t.get 0xC022 1 = n ∧ (n ≠ v.fw.order.headD 0 → newest t 0x9002 warning))
              ∧ (v.fw.order.filter (fun n => v.slotValid n && !v.fw.passedOver.contains n) = [] →
              ∃ t, exec (.firmwareVerifyDone false) s = .next t ∧ t.power.pst = .aux ∧ t.get 0xB000 6 = 0x9001 ∧ t.fw.bothFailed = true)))
      ∧ (s.power.pst = .boot → s.power.phase = .regulators → exec .startupRegulatorsUp s =
          .next (({ s with power := { s.power with convertersOn := true, pwrGood := true, phase := .harbourmaster } }.portTrains 0).portTrains 1))
      ∧ (s.power.pst = .boot → s.power.phase = .harbourmaster →
        (∃ t, exec .harbourmasterStart s = .next t ∧ t.power.hmRunning = true ∧ t.power.phase = .dram ∧ t.power.pst = .boot
            ∧ t.store.orderly = false ∧ (s.store.orderly = false → t.get 0x6200 7 = 1) ∧ t.mem = s.mem)
          ∧ (∃ t, exec .harbourmasterStartTimeout s = .next t ∧ t.power.pst = .aux ∧ t.get 0xB000 6 = 0x800B ∧ newest t 0x800B deviceFault))
      ∧ (s.power.pst = .boot → s.power.phase = .dram →
        (∀ bad, ∃ t, exec (.dramTrainingDone [] bad) s = .next t ∧ t.power = { s.power with phase := .selfTest } ∧ t.get 0x2500 2 = 1
            ∧ t.mem = s.mem ∧ (∀ d ∈ bad, d < dockCount → newest t 0x4006 warning))
          ∧ (∀ n rest bad, ∃ t, exec (.dramTrainingDone (n :: rest) bad) s = .next t ∧ t.power.pst = .aux ∧ t.get 0xB000 6 = 0x800A
            ∧ newest t 0x800A deviceFault)
          ∧ (∃ t, exec .dramTrainingTimeout s = .next t ∧ t.power.pst = .aux ∧ t.get 0xB000 6 = 0x800A ∧ newest t 0x800A deviceFault))
      ∧ (∀ failed, s.power.pst = .boot → s.power.phase = .selfTest → s.get 0x2500 2 = 1 →
        (s.selfTestEnd failed).get 0x2500 2 ≠ 1
          ∧ ((s.selfTestEnd failed).get 0x6100 5 = 1 → ∃ t, exec (.selfTestComplete failed) s = .next t ∧ t.power.phase = .restoreWindow
            ∧ t.power.restoreOpen = true ∧ t.get 0x1200 1 = 1 ∧ t.get 0x1201 1 = 1 ∧ t.get 0x2500 2 = (s.selfTestEnd failed).get 0x2500 2)
          ∧ ((s.selfTestEnd failed).get 0x6100 5 ≠ 1 → exec (.selfTestComplete failed) s = .next ((s.selfTestEnd failed).startColds (fun _ => true))))
      ∧ (∀ failed, s.power.pst ≠ .boot → s.get 0x2500 2 = 1 →
        exec (.selfTestComplete failed) s = .next ((s.selfTestEnd failed).queueColds (fun x => x.calTemp == 0xFF)))
      ∧ (s.power.restoreOpen = true →
        let u := { s with power := { s.power with restoreOpen := false } }.windowsDown
        u.get 0x1200 1 = 0 ∧ u.get 0x1201 1 = 0 ∧ exec .restoreWindowTimeout s = .next (u.sweepTransfers.startColds (fun x => x.trims == .none)))
      ∧ (s.power.pst = .boot → s.power.phase = .selfTest ∨ s.power.phase = .restoreWindow → s.power.settled = false →
        exec .settleCapTimeout s = .next ({ s with power := { s.power with settled := true } }.logEv (pkgEv 0x800D note)))
      ∧ (s.power.pst = .boot → s.power.phase = .calibration → s.power.settled = false →
        let u := { s with power := { s.power with settled := true } }
        let waits := s.cals.any (fun e => e.2.any (fun r => r.kind == .cold && !r.running && !s.dieSettled (e.1 / 144)))
        exec .settleCapTimeout s = .next (if waits then u.logEv (pkgEv 0x800D note) else u))
      ∧ (s.power.pst = .boot → s.power.phase = .defaults → ∃ t, exec .defaultObjectsLoaded s = .next t ∧ t.power.pst = .ready
          ∧ t.get 0x1200 1 = 1 ∧ t.get 0x1201 1 = 1 ∧ t.power.phase = .done ∧ t.mem = s.mem)

/-- R484: a falling input takes every die to 0.9 GHz at once and logs 0x8005; the cap lifts when the input has recovered. R482: a
die moves one step of 100 MHz towards its goal, and never past it. -/
def Obligations.DieClocksFollowDroopAndSteps : Prop :=
  (∀ s : State,
    (s.power.pst ≠ .off → s.power.pst ≠ .aux → s.power.pst ≠ .sleep → s.power.droop = false →
      ∃ t, exec .inputDroop s = .next t ∧ t.power.droop = true ∧ (∀ d : DieId, t.get 0xB011 (d.val + 1) = 900) ∧ newest t 0x8005 note
        ∧ t.mem = s.mem)
      ∧ (s.power.droop = true → exec .droopRecovery s =
          .next { s with power := { s.power with droop := false, underPeriods := 0 } }))
    ∧ (∀ (s : State) (d : DieId), s.power.hmRunning = true →
    ∃ t, exec (.dvfsStepDone d) s = .next t
      ∧ (s.get 0xB011 (d.val + 1) ≤ s.goalPoint d.val →
          t.get 0xB011 (d.val + 1) = min (s.goalPoint d.val) (s.get 0xB011 (d.val + 1) + 100))
      ∧ (s.goalPoint d.val ≤ s.get 0xB011 (d.val + 1) →
          t.get 0xB011 (d.val + 1) = max (s.goalPoint d.val) (s.get 0xB011 (d.val + 1) - 100))
      ∧ (∀ e : DieId, e ≠ d → t.get 0xB011 (e.val + 1) = s.get 0xB011 (e.val + 1)) ∧ t.mem = s.mem ∧ t.power = s.power)

/-- The power loop's period while the harbourmaster runs leaves the clamp voltages and currents of the period (R483, R502), a
converter's failure clears its bit and is logged as 0x8004 in every state but OFF (R26), the entry into NAP (R488), IDLE after work
has ended (R487), and the end of an orderly shutdown (R490). Loss of the 25 MHz reference stops the management port and the
oscillator's trim and is logged; its return starts the port (R455, R494, R518). -/
def Obligations.PowerStatesChangeOnTheirConditions : Prop :=
  (∀ s : State,
    (∀ ne sw neDa swDa, s.power.hmRunning = true → ∃ t, exec (.powerLoopTick ne sw neDa swDa) s = .next t ∧ t.get 0xB020 2 = min ne sw
        ∧ t.get 0xB020 3 = neDa ∧ t.get 0xB020 4 = swDa ∧ t.power.hist = ((ne * neDa + sw * swDa) :: s.power.hist).take 100
        ∧ t.get 0xB020 1 = meanPower t.power.hist / 10000 ∧ t.power.pst = s.power.pst ∧ t.mem = s.mem)
      ∧ (∀ n : Fin 24, s.power.pst ≠ .off → ∃ t, exec (.converterFailure n) s = .next t
          ∧ t.get 0xB020 5 = setBit (s.get 0xB020 5) n.val false ∧ newest t 0x8004 warning ∧ t.mem = s.mem ∧ t.power = s.power)
      ∧ (s.napReady = true → ∃ t, exec .napEntry s = .next t ∧ t.power.pst = .nap ∧ t.power.napHeld = false ∧ t.power.napFrom = s.power.pst
          ∧ t.mem = s.mem ∧ t.tiles = s.tiles)
      ∧ (s.power.pst = .run → s.atWork = false → ∃ t, exec .idleTimeout s = .next t ∧ t.power.pst = .idle ∧ t.get 0xB000 1 = PState.idle.code
          ∧ t.mem = s.mem ∧ t.tiles = s.tiles)
      ∧ (s.power.shutdownBusy = true → s.power.pst = .ready → ∃ t, exec .shutdownDone s = .next t ∧ t.power.pst = .aux
          ∧ t.get 0xB000 6 = 0 ∧ t.store.orderly = !s.docks.any (fun e => e.2.pass.isSome)))
    ∧ (∀ s : State,
    (s.power.mref = true → s.power.pst ≠ .off → ∃ t, exec .managementReferenceLoss s = .next t ∧ t.power.mref = false
      ∧ t.mgmt.running = false ∧ t.lh.trimmed = false
      ∧ (mget? s.log.lastAt 0x810A = none → newest t 0x810A note))
      ∧ (s.power.mref = false → ∃ t, exec .managementReferenceReturn s = .next t ∧ t.power.mref = true ∧ t.power.pst = s.power.pst
        ∧ (s.power.pst ≠ .off → t.mgmt.running = true) ∧ t.mem = s.mem)
      ∧ (s.power.mref = true → s.power.pst ≠ .off → exec .oscRecalibration s = .next { s with lh := { s.lh with trimmed := true } }))

/-! ## Store, event log, plan -/

/-- A save that verified makes the other bank the newest, with the next generation; one that failed leaves both and logs 0xA00E (R62). -/
def Obligations.SaveEndsWithTheCommitFlag : Prop :=
  ∀ (s : State) (img : AMap Nat), s.store.saving = some img →
    (∃ t, exec (.storeSaveDone true) s = .next t ∧ t.store.saving = none
      ∧ (s.store.inBank1 = true → t.store.bank0 = ⟨true, true, (s.get 0x1011 2 + 1) % 2 ^ 32, img⟩ ∧ t.store.bank1 = s.store.bank1)
      ∧ (s.store.inBank1 = false → t.store.bank1 = ⟨true, true, (s.get 0x1011 2 + 1) % 2 ^ 32, img⟩ ∧ t.store.bank0 = s.store.bank0)
      ∧ t.get 0x1011 1 = 0 ∧ t.get 0x1011 2 = (s.get 0x1011 2 + 1) % 2 ^ 32 ∧ t.get 0x1011 3 = 0)
      ∧ (∃ t, exec (.storeSaveDone false) s = .next t ∧ t.store = { s.store with saving := none } ∧ t.get 0x1011 1 = 2
          ∧ t.get 0x1011 3 = 0xA00E ∧ newest t 0xA00E warning)

/-- R73: every event takes the next sequence number, whatever else is logged; the ring never holds more than its capacity. A ring
entry of the severity that PERSIST_LEVEL asks for reaches the flash log while the lighthouse runs (R73, R74); one older than the
newest in flash stays out of it, which keeps the flash in SEQ order (the model's reading, log 26). -/
def Obligations.EventsTakeRisingNumbersAndPersist : Prop :=
  (∀ (s : State) (e : Ev), (s.logEv e).log.nextSeq = s.log.nextSeq + 1
    ∧ (∃ x, (s.logEv e).log.ring.getLast? = some x ∧ x.seq = s.log.nextSeq ∧ x.time = s.timer ∧ x.code = e.code ∧ x.severity = e.severity
        ∧ x.boot = s.log.bootCount ∧ x.detail = e.detail.take 20)
    ∧ (0 < s.ringCap → s.log.ring.length ≤ s.ringCap → (s.logEv e).log.ring.length ≤ s.ringCap)
    ∧ (s.logEv e).get 0xA001 4 = s.log.nextSeq ∧ (s.logEv e).mem = s.mem ∧ (s.logEv e).tiles = s.tiles)
    ∧ (∀ s : State, s.power.pst ≠ .off → ∃ t, exec .eventLogPersist s = .next t ∧ t.log.ring.length = s.log.ring.length
      ∧ (∀ e ∈ t.log.ring, e.persisted = true ∨ e.severity < s.get 0xA002 1 ∨ e.seq ≤ s.log.kept.foldl (fun m e => max m e.seq) 0)
      ∧ s.out <+: t.out ∧ t.mem = s.mem ∧ t.log.nextSeq = s.log.nextSeq)

/-- A plan's configuration completes: PLAN_STATE reads LOADED, PLAN_ID_LOADED the plan's id, and a READY device is IDLE (R85); a
failed write rolls back with 0x1114 (R86); an unload returns everything, PLAN_STATE reads NONE and the device is READY (R87). A
SLEEP that was held for the load or the unload is then taken (R88). -/
def Obligations.PlanLoadsAndUnloads : Prop :=
  ∀ s : State,
    (∀ p, s.plan = some p → s.get 0x2400 4 = 2 →
      let u := (s.configure p).put 0x2400 4 3
      u.get 0x2400 8 = p.planId ∧ u.mem = s.mem
        ∧ (s.power.sleepHeld = false → ∃ t, exec .planLoadComplete s = .next t ∧ t.get 0x2400 4 = 3 ∧ t.get 0x2400 8 = p.planId ∧ t.plan = some p
          ∧ (s.power.pst = .ready → t.power.pst = .idle) ∧ (s.power.pst ≠ .ready → t.power.pst = s.power.pst) ∧ t.mem = s.mem)
        ∧ (s.power.sleepHeld = true → exec .planLoadComplete s = .next (if s.power.pst = .ready then u.setPst .idle else u).heldSleep))
      ∧ (s.get 0x2400 4 = 2 → s.power.sleepHeld = false → ∃ t, exec .planConfigWriteFail s = .next t ∧ t.plan = none ∧ t.get 0x2400 4 = 0
        ∧ t.get 0x2400 5 = 0x1114 ∧ t.get 0x2400 6 = 0xFFFF ∧ t.get 0x2400 7 = 0xFFFFFFFF ∧ newest t 0x1114 warning ∧ t.mem = s.mem)
      ∧ (s.get 0x2400 4 = 2 → s.power.sleepHeld = true → exec .planConfigWriteFail s = .next (s.planFail ⟨0x1114, 0xFFFF, 0xFFFFFFFF⟩))
      ∧ (s.get 0x2400 4 = 4 →
        let u := s.swapOut.discardAllHolds.unconfigure.put 0x2400 4 0
        let v := if u.power.pst = .idle ∨ u.power.pst = .run then u.setPst .ready else u
        v.plan = none ∧ v.tiles = [] ∧ v.berths = [] ∧ v.get 0x2400 4 = 0 ∧ v.power.pst ≠ .idle ∧ v.power.pst ≠ .run
          ∧ exec .planUnloadComplete s = .next v.heldSleep)

/-! ## Streaming -/

/-- A doorbell write of a good form to a configured berth with room queues the manifest as the newest of the berth (R290), and wakes a
napping device (R488). A read of the doorbell returns the berth's STATE and how many manifests it holds (R508). -/
def Obligations.GoodDoorbellsQueueTheManifest : Prop :=
  ∀ (s : State) (p : HostPort) (d : BerthDef) (b : Nat), s.linkUp p.val = true → s.operating = true ∨ s.power.pst = .nap →
    b < 8192 → s.berthDef b = some d → d.berth = b →
    (∀ value, s.loaded = true → value < 2 ^ 48 → value % 4096 = 0 → (s.berth b).queue.length < d.depth →
      ∃ t, exec (.doorbell p (8 * b) 8 (some value)) s = .next t
        ∧ (t.berth b).queue = (s.berth b).queue ++ [⟨(s.berth b).nextNo, value, false⟩]
        ∧ (t.berth b).nextNo = (s.berth b).nextNo + 1 ∧ (∀ e, e ≠ b → t.berth e = s.berth e) ∧ t.mem = s.mem)
      ∧ exec (.doorbell p (8 * b) 8 none) s =
          .next (s.emit (.winData p.val (leBytes 1 (s.berthPhase d) ++ leBytes 1 (s.berth b).queue.length ++ zeros 6)))

/-- A doorbell write with a reserved bit set, to a berth that is full, of another form, or without a loaded plan is dropped,
counted and logged as 0x1301 (R290). -/
def Obligations.BadDoorbellsAreRefused : Prop :=
  ∀ (s : State) (p : HostPort) (b size value : Nat), s.linkUp p.val = true → s.operating = true ∨ s.power.pst = .nap → b < 8192 →
    (s.loaded = false ∨ s.berthDef b = none → exec (.doorbell p (8 * b) size (some value)) s = .next (s.refuseBell none))
      ∧ (∀ d, s.loaded = true → s.berthDef b = some d →
          size ≠ 8 ∨ 2 ^ 48 ≤ value ∨ value % 4096 ≠ 0 ∨ d.depth ≤ (s.berth d.berth).queue.length →
          exec (.doorbell p (8 * b) size (some value)) s = .next (s.refuseBell (some d)))
      ∧ (s.refuseBell none).get 0x4030 1 = satAdd 64 (s.get 0x4030 1) 1 ∧ newest (s.refuseBell none) 0x1301 warning
      ∧ (∀ d, (s.refuseBell d).berths = s.berths ∧ (s.refuseBell d).mem = s.mem)

/-- The fetch engine starts the berth of highest priority that has a manifest to read; an arriving burst fills a buffer; the
execute engine takes the next task in turn, validates it, and lets it wait or rejects it with the first code (R106, R291, R292, R295). -/
def Obligations.ManifestsAreFetchedAndTasksTaken : Prop :=
  ∀ (s : State) (n : TileId),
    (∀ pl d, s.plan = some pl → (s.tile n.val).fetching = none →
      (s.tile n.val).bufs.length < ((pl.tilePart n.val).map (·.mbufs)).getD 0 →
      topBerth ((s.tileBerths n.val).filter (fun d => s.takes d.ctx && decide ((((s.tile n.val).bufs).filter (fun m => m.berth == d.berth)).length < 2)
        && (s.nextMan n.val d.berth).isSome)) = some d →
      exec (.manifestFetch n) s = .next (s.work.setTile n.val { s.tile n.val with fetching := some d.berth }))
      ∧ (∀ b d m, (s.tile n.val).fetching = some b → s.berthDef b = some d → s.nextMan n.val b = some m →
        (∀ t, s.burstIn n.val d m = .ok t → exec (.manifestArrive n) s = .next t)
          ∧ (∀ code va level w, s.burstIn n.val d m = .error (.trans code va level w) → exec (.manifestArrive n) s =
            .next ((s.fetchFault n.val d.ctx (.trans code va level w)).setTile n.val
              { (s.fetchFault n.val d.ctx (.trans code va level w)).tile n.val with fetching := none })))
      ∧ (∀ d m, s.pickBerth n.val = some d → s.curBuf n.val d.berth = some m →
        let w := s.work
        let b := w.berth d.berth
        let k := Task.fresh w.nextTask (m.slots.getD b.curSlot []) d.berth m.man m.va b.curSlot
        let u := { w with nextTask := w.nextTask + 1 }.setBerth d.berth { b with curSlot := b.curSlot + 1 }
        m.poisoned.find? (fun p => p / 65536 == k.slot) = none →
        (u.validate d k = 0 → exec (.taskTake n) s =
            .next ((u.standBy d (u.withUses n.val { k with noop := k.zeroAmount || u.replayNoop k })).finish n.val d.berth))
          ∧ (u.validate d k ≠ 0 → exec (.taskTake n) s = .next ((u.tookTurn d).reject d k (u.validate d k))))

/-- A task whose work is done ends, in its sample or without one, and signals once its writes are acknowledged and its slot copy
is done (R293, R296, R308); an acknowledgement counts one transfer less and lets the fetch engine issue the next; a running move of
data stops for an urgent task (R346). -/
def Obligations.TasksEndAndThenSignal : Prop :=
  ∀ (s : State) (n : TileId) (k : Task),
    (∀ u, (s.tile n.val).tasks.find? (fun k => k.st != .handed) = some k → k.worked = true → k.gate ≠ 1 →
      k.express = true ∨ k.unanswered = [] → (if k.noop then .ok s else s.considerSample n.val k) = .ok u →
      exec (.taskEnd n) s = .next ((u.endTask n.val ((u.findTask n.val k.id).getD k)).endEffects k))
      ∧ (∀ rest, (s.tile n.val).ending = k :: rest → k.outstanding = 0 → k.unissued = 0 → k.express = true ∨ k.unanswered = [] →
        s.copyPending k = false →
        exec (.taskSignal n) s =
          .next ((k.signals.foldl (fun s g => s.raise g.1 g.2 false) (s.setTile n.val { s.tile n.val with ending := rest })).regrant n.val))
      ∧ (∀ id, s.findTask n.val id = some k → k.outstanding ≠ 0 →
        exec (.transferAck n id) s =
          .next (((s.modTask n.val id (fun k => { k with outstanding := k.outstanding - 1 })).issue n.val).settleLoad n.val id))
      ∧ (∀ b, (s.tile n.val).next = some (k, b) → k.st = .running → k.worked = false → k.prio ≠ 3 →
        k.opcode = 0x29 ∨ k.opcode = 0x2A ∨ k.opcode = 0x70 → k.outstanding = 0 → k.unanswered = [] → s.requestStands n.val = true →
        exec (.dmaSuspend n) s = .next (((s.setTask n.val { k with st := .suspended }).count 0x3020 4 64 1).regrant n.val))

/-- R307: a signal that would carry a count beyond 2^32 − 1 leaves it at 2^32 − 1, the excess is lost, and 0x1302 is logged as a job
fault. Excepted is the bollard that the securing takes its requests from, whose count the device consumes at once (R434). -/
def Obligations.BollardCountsSaturate : Prop :=
  ∀ (s : State) (b inc : Nat) (ext : Bool), b ≠ s.get 0x8200 13 → (∀ c, s.bollardOwner b = some c → c < 64) →
    ((s.bump b inc ext).bollard b).count = min (2 ^ 32 - 1) ((s.bollard b).count + inc)
      ∧ (∀ e, e ≠ b → (s.bump b inc ext).bollard e = s.bollard e)
      ∧ (s.bump b inc ext).mem = s.mem ∧ (s.bump b inc ext).tiles = s.tiles
      ∧ (∀ c, s.bollardOwner b = some c → s.secure.copy = none → 2 ^ 32 ≤ (s.bollard b).count + inc →
        newest (s.bump b inc ext) 0x1302 jobFault)
      ∧ ((s.bollard b).count + inc < 2 ^ 32 → (s.bump b inc ext).log = s.log)

/-- A task row runs the head task of its tile once it may start and its ferry slots admit it (R106, R296, R303, R346): its data effect
and its status are those of its opcode, and the tile then goes on. Where an operand cannot be read or written the task stops with
that fault, and where a host holds a line of it the row asks for the line and the task waits (R298, R340, R511). A product that is
split runs again, part by part, until the last part (R217, R258, R345). SIGNAL and WAIT touch no operand and always run. -/
def Obligations.TaskRowsRunTheHeadTask : Prop :=
  (∀ c n op form body parts (s : State) (k : Task) slots load, taskRow c = some (n, op, form, body, parts) → begins s n op form k →
    admits s.work n k (body.reads s.work k) (body.writes s.work k) slots load →
    let w := body.writes s.work k
    let v := s.work.startedAs n k (body.reads s.work k ++ w) w
    (∀ u status, body.run v n k = .ok (u, status) → parts s k ≤ k.units + 1 → exec c s = .next (taskDone n k slots load w status u))
      ∧ (∀ u status j, body.run v n k = .ok (u, status) → k.units + 1 < parts s k → k.worked = false →
        (taskDone n k slots load w status u).findTask n k.id = some j → j.worked = true →
        let held := k.prio != 3 && s.work.requestStands n
        exec c s = .next ((v.setTask n { k with units := k.units + 1, st := if held then .suspended else .running }).regrant n))
      ∧ (∀ lines, body.run v n k = .error (.stall lines) → parts s k ≤ k.units + 1 → exec c s = .next (s.work.snoopHeld lines))
      ∧ (∀ f, body.run v n k = .error f → f ≠ .wait → (∀ lines, f ≠ .stall lines) → parts s k ≤ k.units + 1 →
        exec c s = .next (v.stopTask n { k with written := w, uses := body.reads s.work k ++ w } f)))
    ∧ (∀ (t : TileId) (s : State) (k : Task), begins s t.val 0x51 (fun k => !k.worked) k →
      exec (.wait t) s = .next (taskDone t.val k [] none [] 0 (s.work.startedAs t.val k [] [])))
    ∧ (∀ (t : TileId) (s : State) (k : Task), begins s t.val 0x50 (fun k => !k.worked) k → k.sigTarget = 0xFFFF →
      exec (.signal t) s = .next (taskDone t.val k [] none [] 0 (s.work.startedAs t.val k [] [])))

/-- A row of COPY, TRANSPOSE or SECURE_COPY moves the units it stands for of the head task, or of a task that runs ahead of it, and keeps
its progress; it moves no more than the task has left, than a pre-emption request lets through, and than the fetch engine has
entries for (R296, R345, R346); a task with nothing to move is done at once. A unit whose operand cannot be read or written stops the
task with that fault (R298). -/
def Obligations.UnitRowsMoveUnitsOfTheHeadTask : Prop :=
  ∀ c n op units d (s : State) (k : Task) (head : Bool) slots load, unitRow c = some (n, op, units, d) → s.dmaTask n op = some (k, head) →
    admits s.work n k (d.reads s.work k) (d.writes s.work k) slots load →
    let left := (d.moved s k (d.total s k)).drop k.units
    let m := min (s.unitsNow n k units) (s.unitsFree n k left)
    let w := d.writes s.work k
    let v := if head then s.work.startedAs n k (d.reads s.work k ++ w) w else s.work
    (m = 0 → head = true → left = [] → k.worked = false →
      exec c s = .next (((s.work.startedAs n k (d.reads s.work k ++ w) w).setTask n { k with st := .running, worked := true }).regrant n))
      ∧ (m ≠ 0 →
      (∀ u, d.run v n k k.units m = .ok u → exec c s = .next (unitsDone n d s.work k head m left slots load u))
        ∧ (∀ lines, d.run v n k k.units m = .error (.stall lines) → exec c s = .next (s.work.snoopHeld lines))
        ∧ (∀ f, d.run v n k k.units m = .error f → f ≠ .wait → (∀ lines, f ≠ .stall lines) →
          exec c s = .next (v.stopTask n { k with written := d.moved s.work k k.units, uses := d.reads s.work k ++ w } f)))

/-- A FENCE is granted and is done when every earlier task of its berth has been acknowledged; a BARRIER that has been taken arrives
(R309, R312, R313); what is held for HANG_TIMEOUT ends the job with 0x1304 (R318). -/
def Obligations.SynchronisationTasksWaitForTheirCondition : Prop :=
  ∀ (s : State) (n : TileId) (k : Task),
    (s.headOf n.val 0x52 = some k → k.st = .taken → exec (.fence n) s =
        .next (((s.work.startedAs n.val k [] []).setTask n.val { k with st := .running }).regrant n.val))
      ∧ (s.headOf n.val 0x52 = some k → k.st = .running → s.fenceMet n.val k = true →
          exec (.fenceDone n) s = .next (s.setTask n.val { k with worked := true }))
      ∧ ((s.tile n.val).tasks.find? (fun k => k.opcode == 0x53 && k.st == .handed && !k.worked && s.takes k.ctx) = some k →
          exec (.barrier n) s = .next (s.barrierArrive n.val k)
            ∧ (∀ x, (s.ctx k.ctx).barrier = some x → x.seq ≠ k.barSeq → exec (.barrier n) s = .next
              ((s.work.setTask n.val { k with worked := true }).jobFault k.ctx 0x1305 9 k.ctx { tile := n.val, opcode := 0x53 } [])))
      ∧ (∀ b, s.loaded = true → s.heldWait n.val = some (k, b) → exec (.hangTimeout .wait n) s = .next (s.hang k.ctx 0 b 0 n.val k.opcode))
      ∧ (∀ x, s.loaded = true → s.heldSlot n.val = some (k, x) →
          exec (.hangTimeout .chainSlot n) s = .next (s.hang k.ctx 1 x.chain x.slot n.val k.opcode))
      ∧ (s.loaded = true → s.headOf n.val 0x52 = some k → k.st = .running → s.fenceMet n.val k = false →
          exec (.hangTimeout .fence n) s = .next (s.hang k.ctx 2 0 0 n.val 0x52))
      ∧ (s.loaded = true → (s.tile n.val).tasks.find? (fun k => k.opcode == 0x53 && k.st == .handed) = some k →
          exec (.hangTimeout .barrier n) s = .next (s.hang k.ctx 3 0 0 n.val 0x53))
      ∧ (∀ i, s.loaded = true → s.inval = some i → exec (.hangTimeout .invalidation n) s = .next (s.hang i.ctx 4 0 0 0xFFFF 0))

/-- R302: a chunk that is loaded at member i goes to the same slot at member i + 1, byte for byte, in ascending order of chunks,
and no forward starts while the slot downstream is not free. -/
def Obligations.FerryForwardsChunksInOrder : Prop :=
  ∀ (s : State) (chain member a b : Nat) (d : ChainDef), s.chainDef chain = some d → d.tiles[member]? = some a →
    d.tiles[member + 1]? = some b → member + 1 < d.tiles.length →
    let m := s.member chain member
    (s.operating = true → s.loaded = true → m.moving = false → m.forwarded < m.loaded →
      (s.slotFree chain (member + 1) m.forwarded = true →
        exec (.ferryForward chain member) s = .next (s.setMember chain member { m with moving := true }))
        ∧ (s.slotFree chain (member + 1) m.forwarded = false → exec (.ferryForward chain member) s = .next s))
      ∧ (m.moving = true → ∃ t, exec (.ferryForwardDone chain member) s = .next t
          ∧ t.mem = (s.moveBytes (s.slotAddr a chain (m.forwarded % max 1 d.credits)) (s.slotAddr b chain (m.forwarded % max 1 d.credits)) ferryBytes).mem
          ∧ t.member chain member = { m with forwarded := m.forwarded + 1, moving := false }
          ∧ t.member chain (member + 1) = { s.member chain (member + 1) with loaded := (s.member chain (member + 1)).loaded + 1 }
          ∧ t.tiles = s.tiles ∧ t.dict = s.dict)

/-! ## The tally and the gates -/

/-- A slot copy ends, a tally recomputes its sample, a tally that is too late is dropped, a gate with nothing outstanding passes, and
a replay goes back to the step mark, or, where the manifests since the mark were too many to keep, skips the update, or ends the job
with 0x7005 after a data error (R226, R228, R230, R231, R233, R354). -/
def Obligations.TalliesGatesAndReplaysEnd : Prop :=
  ∀ (s : State) (n : TileId) (c : CtxId) (slot : Nat), slot < 64 →
    (∀ e, s.tallyOf (c.val * 64 + slot) = some e →
      exec (.tallySampleCopyDone c slot) s = .next (s.setTally (c.val * 64 + slot) { e with copying := false })
        ∧ (s.tallyLate e = true →
          exec (.tallyTimeout c slot) s = .next ((s.dropSample c.val e.task.layerId).tallyEnd (c.val * 64 + slot) false))
        ∧ (s.tallyLate e = false → exec (.tallyTimeout c slot) s = .next s))
      ∧ (∀ key e js u, s.tallyDue n.val = some (key, e) → s.operating = true → s.loaded = true → s.ctxState (key / 64) = 2 →
        (s.tile n.val).busy = false → s.urgentFirst n.val = false → s.work.recompute n.val (key / 64) e.cap = .ok (js, u) →
        let v := (u.overtake n.val).count 0x4030 3 64 1
        exec (.tally n []) s = .next (if e.kind = 0
          then v.tallyFirst key e (js.zipIdx.map (fun p => p.1)) (numOfF32 (v.get 0x5400 2)).rat
          else v.tallyNext key e (js.zipIdx.map (fun p => p.1)) (numOfF32 (v.get 0x5400 2)).rat))
      ∧ (∀ k i l, (s.tile n.val).tasks.find? (fun k => k.gate == 1 && k.st == .taken) = some k → s.layerOf k = some (i, l) →
        s.takes k.ctx = true → (s.ctx k.ctx).tripReplay = false → s.gateReady k = true →
        ((s.layer i).gate ≠ none → exec (.gateEvaluate n) s = .next (s.gatePass n.val k i))
          ∧ ((s.layer i).gate = none → (s.troubled k.ctx = [] → (s.ctx k.ctx).errs = [] → exec (.gateEvaluate n) s = .next (s.gatePass n.val k i))
            ∧ (s.troubled k.ctx ≠ [] → exec (.gateEvaluate n) s = .next (s.trip k.ctx (s.troubled k.ctx)))))
      ∧ ((s.ctx c.val).replaying = true → s.ctxRuns c.val = false → s.diagnosing c.val = false → s.ctxState c.val = 2 →
        ((s.ctx c.val).manLog ≤ manLogMax → exec (.replayRewind c) s = .next (s.rewind c.val))
          ∧ (let u := s.setCtx c.val { s.ctx c.val with replaying := false, tripReplay := false, errs := [] }
            manLogMax < (s.ctx c.val).manLog →
              ((s.ctx c.val).errs = [] → exec (.replayRewind c) s = .next (u.skipUpdate c.val))
                ∧ ((s.ctx c.val).errs ≠ [] → exec (.replayRewind c) s = .next (u.jobFault c.val 0x7005 9 c.val {} []))))

/-! ## Docks -/

/-- R116: the zero detector's phases. The results of a vector's second phase are added to those of its first (R116, R123). -/
def Obligations.ZeroDetectorChoosesThePhases : Prop :=
  (∀ (m : MvmDock) (ph : List Sys2Proof.Num) (err : List Rat), m.raw ≠ [] →
    (m.phaseEnd ph err).raw = (m.raw.zip ph).map (fun p => ((fadd p.1 p.2).run {}).1))
  ∧ ∀ codes : List Int, codes.length = 512 →
    let rows := (List.range 512).filter (fun r => decide (codes.getD r 0 ≠ 0))
    (rows = [] → phasesOf codes = [])
      ∧ (1 ≤ rows.length → rows.length ≤ 256 → phasesOf codes = [rows])
      ∧ (257 ≤ rows.length → phasesOf codes = [rows.take 256, rows.drop 256])
      ∧ (∀ ph ∈ phasesOf codes, ph.length ≤ 256) ∧ (phasesOf codes).flatten = rows

/-- A DOCK_MVM that is not refused starts on its docks; in emulation, or on a dock that must not run it, it is refused with the
first code (R123, R131, R137, R147); for a layer at WIDE the product is digital and no dock is asked (R134; the model's reading,
log 71). A phase that ends with counts the analogue array can give is corrected and counted, and with a vector's last phase the
vector ends and the next one starts, or the task finishes (R119 to R124, R128, R145); a saturation at gain 1 is an error of the
dock (R121). -/
def Obligations.DockMvmStartsPhasesAndEnds : Prop :=
  (∀ (s : State) (n : TileId) (k : Task) (i : Nat) (l : LayerDef), s.headOf n.val 0x01 = some k → s.layerOf k = some (i, l) →
    s.mvm n.val = none →
    (s.emulating = true → exec (.dockMvm n) s = .next (s.work.refuseDock n.val k 0x4007 (k.firstDock n.val)))
      ∧ (s.emulating = false → s.isWide k = false → (k.maskDocks n.val).any (fun d => s.dockWaits k d) = false →
        (∀ d, (k.maskDocks n.val).find? (fun d => s.dockRefuses k i d != 0) = some d →
          exec (.dockMvm n) s = .next (s.work.refuseDock n.val k (s.dockRefuses k i d) d))
          ∧ ((k.maskDocks n.val).find? (fun d => s.dockRefuses k i d != 0) = none →
            (∀ u, s.work.mvmStart n.val k i l = .ok u → exec (.dockMvm n) s = .next u)
              ∧ (∀ f, s.work.mvmStart n.val k i l = .error f →
                exec (.dockMvm n) s = .next (s.work.stopTask n.val { k with written := mvmWrites s n.val k (s.mvmFmt k) } f))))
      ∧ (∀ t, s.emulating = false → s.isWide k = true → unitsFor wideVectors k.len0 ≤ k.units + 1 →
        runs s n.val 0x01 (fun _ => true) ⟨fun s k => mvmReads s n.val k, fun s k => mvmWrites s n.val k (s.mvmFmt k), State.mvmWide⟩ k t →
        exec (.dockMvm n) s = .next t))
    ∧ (∀ (s : State) (d : DockId) (n : TileId) (counts : List Nat) (r : MvmRun) (k : Task),
    (∀ m, s.mvm (d.val / 8) = some r → r.docks.find? (fun m => m.dock == d.val && !m.stale && decide (m.phases ≠ [])) = some m →
      s.findTask (d.val / 8) r.task = some k →
      (s.phaseFault counts m = false → s.phasePossible counts (m.codes k (r.ins.getD r.done.length [])) m = true →
        exec (.dockPhaseDone d counts) s = .next ((s.phaseCounted counts m).phaseGood counts r m)
          ∧ (s.phaseCounted counts m).get 0x6001 1 = satAdd 64 (s.get 0x6001 1) 1)
        ∧ (s.phaseFault counts m = true → exec (.dockPhaseDone d counts) s =
            .next ((s.phaseCounted counts m).stopTask (d.val / 8)
              { k with written := mvmWrites s (d.val / 8) k (fmtOf r.outFmt) } (.dataErr 0x4003 3 [d.val]))))
      ∧ (s.mvm n.val = some r → s.findTask n.val r.task = some k → r.docks.any (fun m => decide (m.phases ≠ [])) = false →
        let e := s.vectorEnd n.val r
        (e.2.done.length < e.2.ins.length → exec (.dockVectorDone n) s = .next (e.1.vectorBegin n.val k e.2))
          ∧ (∀ i l, e.2.ins.length ≤ e.2.done.length → s.layerOf k = some (i, l) →
            (∀ u, e.1.mvmFinish n.val k i l e.2 = .ok u → exec (.dockVectorDone n) s = .next u)
              ∧ (∀ code va level w, e.1.mvmFinish n.val k i l e.2 = .error (.trans code va level w) → exec (.dockVectorDone n) s =
                .next (e.1.stopTask n.val { k with written := mvmWrites s n.val k (fmtOf r.outFmt) } (.trans code va level w))))))

/-- A DOCK_REFIT in each of its modes, once its ferry slots admit it and its dock is free, hands its work to the dock; the dock's work
ends the task, and a closing pass closes (R150 to R160, R303). The end of a dock's refit work ends the task that was handed to it
and, for a pass's last row, lets the pass close (R155 to R158); a pass that closes without a fault is counted (R156). -/
def Obligations.RefitTasksRunAndPassesClose : Prop :=
  (∀ (s u : State) (n : TileId) (k : Task) (e : DockMap) (status : Nat) (slots : List (Nat × Nat)), s.headOf n.val 0x02 = some k →
    let d := k.refitDock n.val
    let w := refitWrites s k
    let v := (s.work.openPass k d).startedAs n.val k (refitReads s k ++ w) w
    ((s.dock d).held || s.calibrating d || s.dieCalibrating (dockDie d)) = false → s.refitRefuses k d = 0 → s.dockEntry k d = some e →
    s.ferryRead n.val (s.placeOf (some n.val) k.ctx (refitReads s k) false) = .ok slots →
    (∀ failing, k.refitMode = 0 → v.refitRun n.val k d e failing = .ok (u, some status) →
      exec (.dockRefit n failing) s = .next (u.handDock n.val k d status slots w))
      ∧ (k.refitMode = 1 → v.scanRun n.val k d e = .ok (u, status) →
        exec (.dockRefitScan n) s = .next (u.handDock n.val k d status slots w))
      ∧ (∀ bad, k.refitMode = 2 → v.readbackRun n.val k d bad = .ok (u, status) →
        exec (.dockRefitReadback n bad) s = .next (u.handDock n.val k d status slots w)))
    ∧ (∀ (s : State) (n : TileId) (k : Task), s.headOf n.val 0x02 = some k →
    let d := k.refitDock n.val
    ((s.dock d).held || s.calibrating d || s.dieCalibrating (dockDie d)) = false → s.refitRefuses k d ≠ 0 →
    ∀ c : Instr, (∃ failing, c = .dockRefit n failing ∧ k.refitMode = 0) ∨ (c = .dockRefitScan n ∧ k.refitMode = 1)
        ∨ (∃ bad, c = .dockRefitReadback n bad ∧ k.refitMode = 2) → exec c s = .next (s.work.refuseDock n.val k (s.refitRefuses k d) d))
    ∧ (∀ (s : State) (d : DockId),
    (∀ t id last, (s.dock d.val).job = some (t, id, last) →
      let u := s.setDock d.val { s.dock d.val with job := none }
      let u := if last then u.modPass d.val (fun p => { p with closing := true }) else u
      exec (.dockRefitDone d) s = .next (match u.findTask t id with | some k => u.endTask t k | none => u))
      ∧ (∀ p failing, (s.dock d.val).pass = some p → p.closing = true → (s.dock d.val).job = none →
        (∀ u, s.closeWork d.val p failing = .done u → exec (.refitPassClose d ⟨failing, false⟩) s =
            .next ((u.setDock d.val { u.dock d.val with pass := none, suspect := [] }).count 0x6200 4 64 1))
          ∧ (∀ u, s.closeWork d.val p failing = .spent u → exec (.refitPassClose d ⟨failing, false⟩) s = .next (u.closeSpent d.val p))
          ∧ (∀ u f, s.closeWork d.val p failing = .fault u f → exec (.refitPassClose d ⟨failing, false⟩) s = .next (u.closeStruck d.val p f))
          ∧ exec (.refitPassClose d ⟨failing, true⟩) s = .next (s.closeStruck d.val p (.data 0 0x7001))))

/-- A DOCK_CAL task of each kind queues its docks in ascending order and is done; the calibration at the front starts when its dock is
free and ends with its verdict; a die's calibration starts when the die is free and ends with every dock of it, a dock that fails
being repeated once (R164 to R171). -/
def Obligations.CalibrationsAreQueuedAndRun : Prop :=
  ∀ (s : State) (n : TileId) (d : DockId) (die : DieId),
    (∀ k kind, (s.interrupting = true → s.dieCalibrating (n.val / 144) = false) → begins s n.val 0x03 (fun _ => true) k →
      ∀ c : Instr, (c = .dockCalNative n ∧ bits (k.w 6) 55 54 = 0 ∧ kind = .native) ∨ (c = .dockCalCold n ∧ bits (k.w 6) 55 54 = 1 ∧ kind = .cold)
          ∨ (c = .dockCalQuickVerify n ∧ bits (k.w 6) 55 54 = 2 ∧ kind = .verify) →
        ((k.maskDocks n.val).find? s.dockRetired = none → exec c s = .next (taskDone n.val k [] none [] 0
            ((k.maskDocks n.val).foldl (fun (s : State) (d : Nat) => s.queueCal d kind k.calDones) (s.work.startedAs n.val k [] []))))
          ∧ (∀ d, (k.maskDocks n.val).find? s.dockRetired = some d → exec c s = .next (s.work.refuseDock n.val k 0x4002 d)))
      ∧ (∀ r rest, (s.calQueue n.val).filter (fun r => !s.dockRetired r.dock) = r :: rest → s.calReady r = true →
        exec (.calibrationStart n) s = .next (s.setCalQueue n.val ({ r with running := true } :: rest)))
      ∧ (∀ r, (s.calQueue (d.val / 8)).find? (fun r => r.running && r.dock == d.val) = some r →
        let rest := (s.calQueue (d.val / 8)).filter (fun x => x != r)
        (exec (.calibrationDone d true) s = .next ((((s.calComplete d.val r.kind r.restore).setCalQueue (d.val / 8) rest).raiseDones
            r.dones).calSettled.regrant (d.val / 8)))
          ∧ (r.kind ≠ .verify → r.fails = 0 → exec (.calibrationDone d false) s =
            .next (s.setCalQueue (d.val / 8) ({ r with fails := 1 } :: rest)))
          ∧ (r.kind ≠ .verify → r.fails ≠ 0 → exec (.calibrationDone d false) s = .next ((((s.calFault d.val).setCalQueue (d.val / 8)
            rest).raiseDones r.dones).calSettled.regrant (d.val / 8)))
          ∧ (r.kind = .verify → r.restore = none → exec (.calibrationDone d false) s =
            .next ((s.count 0x6100 10 32 1).setCalQueue (d.val / 8) ({ r with kind := .cold, running := false, restore := none } :: rest)))
          ∧ (r.kind = .verify → r.restore ≠ none → exec (.calibrationDone d false) s =
            .next (((s.count 0x6100 10 32 1).logEv
              { code := 0x4108, severity := note, kind := 3, id := d.val, detail := leBytes 2 ((s.count 0x6100 10 32 1).dockLayer d.val) }).setCalQueue
                (d.val / 8) ({ r with kind := .cold, running := false, restore := none } :: rest))))
      ∧ (∀ x, mget? s.dieCals die.val = some x → x.running = false → s.dieFree die.val = true →
        exec (.dieCalibration die) s = .next { s with dieCals := mset s.dieCals die.val { x with running := true } })
      ∧ (∀ x, mget? s.dieCals die.val = some x → x.running = true →
        exec (.dieCalibrationDone ⟨die, []⟩) s = .next (({ (s.dieDocks die.val x).foldl (fun (s : State) (d : Nat) => s.calComplete d .native none) s with
          dieCals := merase ((s.dieDocks die.val x).foldl (fun (s : State) (d : Nat) => s.calComplete d .native none) s).dieCals die.val }).raiseDones x.dones)
          ∧ (∀ failing, exec (.dieCalibrationDone ⟨die, failing⟩) s = .next (s.dieComplete die.val x (failing.map (fun d => d.val)))))

/-- The hold: a push stores its entry, a pop of an entry that is not a segment mark loads it, a spill, a prefetch and the end of a
move are the hold controller's (R272 to R283); a translation fault of a move is a fault of no task (R340). -/
def Obligations.HoldTasksAndMovesRun : Prop :=
  ∀ (s : State) (n : TileId) (k : Task),
    (∀ t j, s.headOf n.val 0x30 = some k → runs (s.pushPrep n.val k) n.val 0x30 (fun _ => true) ⟨pushReads, fun _ _ => [], State.pushRun⟩ j t →
      exec (.holdPush n) s = .next t)
      ∧ (∀ e rest t, (s.hold n.val).entries = e :: rest → s.popCheck n.val k = 0 → e.mark = false → e.size ≤ (s.hold n.val).t1 →
        runs s n.val 0x31 (fun _ => true) ⟨fun _ _ => [], fun s k => match (s.hold n.val).entries with
            | e :: _ => if e.mark then [] else popWrites s k
            | [] => [], State.popRun⟩ k t → exec (.holdPop n) s = .next t)
      ∧ (∀ c, s.mover n.val = some c →
        let h := s.hold n.val
        (∀ r2, 0 < h.t1 → s.holdFree n.val < s.get 0x2600 1 * 1024 → s.reserveLow n.val c (min segmentBytes h.t1) = some (r2, []) →
          exec (.holdSpill n) s = .next (s.setHold n.val
            { h with res2 := withMore h.res2 r2, res3 := withMore h.res3 [], move := some (.spill, min segmentBytes h.t1) }))
          ∧ (s.canFetch n.val = true → s.get 0x2600 2 * 1024 ≤ s.holdFree n.val → exec (.holdPrefetch n) s = .next (s.setHold n.val
            { h with move := some (.fetch, min segmentBytes (min h.t2 (s.holdFree n.val))) }))
          ∧ exec (.holdSpill n) s = .next (s.spillStart n.val c) ∧ exec (.holdPrefetch n) s = .next (s.fetchStart n.val c))
      ∧ (∀ m c, (s.hold n.val).move = some m → s.tileCtx n.val = some c →
        (∀ x u, s.moveHaul n.val c m = some x → s.haul n.val c .both x = .ok u → exec (.holdMoveDone n) s = .next u)
          ∧ (s.moveHaul n.val c m = none → exec (.holdMoveDone n) s = .next (s.setHold n.val (s.hold n.val).still))
          ∧ (∀ x code va level w, s.moveHaul n.val c m = some x → s.haul n.val c .both x = .error (.trans code va level w) →
            exec (.holdMoveDone n) s = .next (((s.setHold n.val (s.hold n.val).still).noteFault n.val c x.uses (.trans code va level w)).transFault c code
              { va := va, level := level, write := w, tile := n.val, noTask := true })))


/-! ## Contexts and memory -/

/-- A byte outside the bytes written reads as before, and a byte written reads as it was written. R350: bytes that are written
are no longer poisoned, and no other byte's poison changes. -/
def Obligations.WrittenBytesReadBackUnpoisoned : Prop :=
  (∀ (s : State) (a : Nat) (bs : List Byte), s.Canonical →
    (∀ (i : Nat) (h : i < bs.length), (s.writeAt a bs).byteAt (a + i) = bs[i])
      ∧ (∀ b, b < a ∨ a + bs.length ≤ b → (s.writeAt a bs).byteAt b = s.byteAt b)
      ∧ (s.writeAt a bs).bytesAt a bs.length = bs ∧ (s.writeAt a bs).Canonical)
    ∧ (∀ (s : State) (a : Nat) (bs : List Byte) (b : Nat),
    (a ≤ b → b < a + bs.length → mget? (s.writeAt a bs).poison b = none)
      ∧ (b < a ∨ a + bs.length ≤ b → mget? (s.writeAt a bs).poison b = mget? s.poison b))

/-- A walk that ends in a translation fills the tile's TLB, one that ends in a fault faults the context, and an address that the TLB
covers needs no walk; a finished invalidation drops the entries of its range, once nothing in it is in use, and reads done (R336,
R338, R339, R340). -/
def Obligations.TlbWalksAndInvalidationsEnd : Prop :=
  ∀ (s : State) (n : TileId) (c : CtxId) (va : Nat) (write : Bool), s.tileCtx n.val = some c.val → s.operating = true →
    ((s.tlb n.val).any (fun e => e.covers (va % 2 ^ 48)) = false →
      (∀ pa u, s.translate (some n.val) c.val (va % 2 ^ 48) (if write then .write else .read) = .ok (pa, u) →
        exec (.tlbWalkDone n c va write) s = .next u)
        ∧ (∀ f, s.translate (some n.val) c.val (va % 2 ^ 48) (if write then .write else .read) = .error f →
          exec (.tlbWalkDone n c va write) s = .next (s.walkStruck n.val c.val (va % 2 ^ 48) f)))
      ∧ ((s.tlb n.val).any (fun e => e.covers (va % 2 ^ 48)) = true → exec (.tlbWalkDone n c va write) s = .next s)
      ∧ (∀ i, s.inval = some i →
        (s.rangeBusy i.ctx i.va i.bytes = false → ∃ t, exec .tlbInvalidateDone s = .next t ∧ t.get 0x3001 5 = 2 ∧ t.inval = none
            ∧ t = ({ s with inval := none }.dropEntries i.ctx i.va i.bytes).put 0x3001 5 2)
          ∧ (s.rangeBusy i.ctx i.va i.bytes = true → exec .tlbInvalidateDone s = .next s))

/-- Errors of data (R349, R350): an SRAM parity error of a running task's read is counted and aborts it, one of another read is
counted and logged, and poisons the line when its second read fails too; mesh mismatches are counted and logged, and poison the line
beyond four retries; a DRAM error is counted, the uncorrected ones are logged and poison the line; poison from a host aborts the task
it strikes, and is a fault of the tile's context where it strikes none. -/
def Obligations.DataErrorsAreCountedAndPoison : Prop :=
  ∀ (s : State) (n : TileId) (offset pa : Nat), s.operating = true →
    (offset < 16777216 →
      (∀ k, s.struckTask n.val = some k → exec (.sramParityError n offset .task) s =
          .next ((s.count 0x3020 5 64 1).stopTask n.val k (.dataErr 0x7001 2 [n.val])))
        ∧ (∃ t, exec (.sramParityError n offset (.other false)) s = .next t ∧ t.get 0x3020 5 = satAdd 64 (s.get 0x3020 5) 1
          ∧ newest t 0x7001 warning ∧ t.poison = s.poison ∧ t.mem = s.mem ∧ t.tiles = s.tiles)
        ∧ (∃ t, exec (.sramParityError n offset (.other true)) s = .next t ∧ t.get 0x3020 5 = satAdd 64 (s.get 0x3020 5) 2
          ∧ newest t 0x7001 warning ∧ t.poison = (s.poisonLine (tileAddr n.val offset) 0x7001).poison ∧ t.mem = s.mem ∧ t.tiles = s.tiles))
      ∧ (∀ r, s.plan.isSome = true → s.tileState n.val ≠ 2 → 0 < r → ∃ t, exec (.meshFlitError n pa r) s = .next t
        ∧ t.get 0x3020 6 = satAdd 64 (s.get 0x3020 6) (min 4 r) ∧ newest t 0x7004 warning ∧ t.mem = s.mem ∧ t.tiles = s.tiles
        ∧ (r ≤ 4 → t.poison = s.poison) ∧ (4 < r → t.poison = (s.poisonLine pa 0x7004).poison))
      ∧ (pa < sramBase →
        (∃ t, exec (.dramReadError pa .corrected) s = .next t ∧ t.get 0x3020 7 = satAdd 64 (s.get 0x3020 7) 1 ∧ t.poison = s.poison
            ∧ t.mem = s.mem ∧ t.log = s.log)
          ∧ (∃ t, exec (.dramReadError pa .parity) s = .next t ∧ t.get 0x3020 8 = satAdd 64 (s.get 0x3020 8) 1 ∧ newest t 0x7002 warning
            ∧ t.poison = (s.poisonLine pa 0x7002).poison ∧ t.mem = s.mem)
          ∧ (∃ t, exec (.dramReadError pa .uncorrectable) s = .next t ∧ t.get 0x3020 9 = satAdd 64 (s.get 0x3020 9) 1
            ∧ newest t 0x7003 jobFault ∧ t.poison = (s.poisonLine pa 0x7003).poison ∧ t.mem = s.mem))
      ∧ (∀ (p : HostPort) c, s.linkUp p.val = true → hostWindowBase p.val ≤ pa → pa < hostWindowBase p.val + hostWindowBytes →
        s.tileCtx n.val = some c →
        let u := s.count 0x3020 9 64 1
        (∀ k, u.struckTask n.val = some k → exec (.hostPoisonReceived p pa n) s = .next (u.stopTask n.val k (.job 0x7003 7 p.val [])))
          ∧ (u.struckTask n.val = none →
            exec (.hostPoisonReceived p pa n) s = .next (u.jobFault c 0x7003 7 p.val { tile := n.val, noTask := true } [])))

/-! ## The fabric -/

/-- A message that reaches its package on a port that is up is counted, takes the effect of its type, and gives its flits back as
credit (R362, R366). Data that can be written is written, its signal applied and the message answered with ACK; where the write
faults, the context takes the fault and the message is answered with a NACK of its code (R367); a signal to a bollard in no range is
dropped with 0x1308 and answered with ACK (R311, R367). A message for another package is counted and sent on (R369). -/
def Obligations.MessagesTakeEffectOrGoInTransit : Prop :=
  (∀ c p m f (s : State), landRow c = some (p, m, f) → arrives s p m → exec c s = .next (credited p m (f (landed s p m))))
    ∧ (∀ (c : Instr) (p : HawserPort) (m : Msg) (s : State), c = .msgPut p m ∨ c = .msgDispatch p m ∨ c = .msgCombine p m → arrives s p m →
      (∀ rs v, (landed s p m).writeNow none m.ctx m.dstAddr m.payload = .ok (rs, v) →
        exec c s = .next (credited p m ((if m.last then v.landSignal m.ctx m.bollard m.increment else v).ack m)))
        ∧ (∀ code va lv w, (landed s p m).writeNow none m.ctx m.dstAddr m.payload = .error (.trans code va lv w) →
          exec c s = .next (credited p m (((landed s p m).transFault m.ctx code { va := va, level := lv, write := w, noTask := true }).nack m code))))
    ∧ (∀ (p : HawserPort) (m : Msg) (s : State), arrives s p m → m.increment ≠ 0 → (landed s p m).bollardOwner m.bollard = none →
      exec (.msgSignal p m) s = .next (credited p m
        (((landed s p m).logEv ((landed s p m).ctxEv m.ctx 0x1308 warning 9 m.ctx)).ack m)))
    ∧ (∀ (s : State) (p : HawserPort) (m : Msg), s.operating = true ∨ s.power.pst = .nap → s.linkState p.val = 2 →
      ¬(s.ownDom = m.dstDom ∧ s.ownPkg = m.dstPkg) → exec (.messageForward p m) s = .next ((received s p m).transit p.val m))

/-- The answers, the reads and the detach message (R360, R366, R367, R372 to R374, R404): a read of plain data is answered, or refused
with the code of its fault; the answer of a read is written and counted; ACK and NACK complete or fail the transfer they name;
a REPLY re-admits a child or settles a contribution; a DETACH of a convoy the plan does not have is dropped, and one of a convoy the
package is a node of detaches its children and starts the recovery of what is missing, once (R373; that an unknown transfer is
handed down with F = 0 is the model's reading, log 33). -/
def Obligations.AnswersCompleteTheirTransfers : Prop :=
  ∀ (s : State) (p : HawserPort) (m : Msg), arrives s p m →
    let u := landed s p m
    (m.convoy = 0xFFFF →
      (∀ bs v, u.readNow none m.ctx m.srcAddr m.plen = .ok (bs, v) → exec (.msgGetReq p m) s = .next (credited p m (v.getResp m bs m.last 0 0)))
        ∧ (∀ code va lv w, u.readNow none m.ctx m.srcAddr m.plen = .error (.trans code va lv w) → exec (.msgGetReq p m) s =
          .next (credited p m ((u.transFault m.ctx code { va := va, level := lv, write := w, noTask := true }).nack m code))))
      ∧ (∀ x n id k, u.xfer? m.transfer = some x → x.owner = .task n id → (u.tile n).tasks.find? (fun k => k.id == id) = some k →
        (∀ rs v, u.writeNow (some n) k.ctx m.dstAddr m.payload = .ok (rs, v) →
          exec (.msgGetResp p m) s = .next (credited p m (if x.left ≤ 1 then (v.dropXfer m.transfer).answered n id m.transfer
            else v.setXfer m.transfer { x with left := x.left - 1 })))
          ∧ (∀ f, u.writeNow (some n) k.ctx m.dstAddr m.payload = .error f → exec (.msgGetResp p m) s =
            .next (credited p m ((u.dropXfer m.transfer).stopTask n { k with written := [(k.addrD, k.len0)] } f))))
      ∧ (∀ x i r, u.xfer? m.transfer = some x → x.owner = .recovery i → u.fabric.recovs.find? (fun r => r.xfer == m.transfer) = some r →
        exec (.msgGetResp p m) s = .next (credited p m (u.recovered r m)))
      ∧ (∀ r, u.relay? m.transfer = some r → exec (.msgAck p m) s = .next (credited p m (u.childAck r m.srcPkg))
          ∧ exec (.msgNack p m) s = .next (credited p m ((u.count 0x7040 5 64 1).relayFails r 0x5005 m.typeData)))
      ∧ (∀ x, u.relay? m.transfer = none → u.xfer? m.transfer = some x →
        exec (.msgAck p m) s = .next (credited p m
            (if x.left ≤ 1 then u.xferDone m.transfer x else u.setXfer m.transfer { x with left := x.left - 1 }))
          ∧ (∀ n id, x.owner = .task n id → exec (.msgNack p m) s = .next (credited p m ((u.count 0x7040 5 64 1).xferFails m.transfer x
            (if [0x5007, 0x7001, 0x7002, 0x7004].contains (field m.typeData 0 2) then field m.typeData 0 2 else 0x5005)))))
      ∧ (field m.typeData 0 1 = 0x10 → (u.convoyKids m.convoy).contains m.srcPkg = true →
        exec (.msgReply p m) s = .next (credited p m (u.readmit m.convoy m.srcPkg)))
      ∧ (field m.typeData 0 1 ≠ 0x10 → exec (.msgReply p m) s = .next (credited p m (u.accReply m)))
      ∧ (u.convoyDef m.convoy = none → exec (.msgDetach p m) s = .next (credited p m (u.dropMsg p.val)))
      ∧ (∀ cv, u.convoyDef m.convoy = some cv →
        (u.fabric.recovs.any (fun r => r.tid == m.transfer) = true → exec (.msgDetach p m) s = .next (credited p m u))
          ∧ (u.fabric.recovs.any (fun r => r.tid == m.transfer) = false →
            let v := (u.count 0x7040 8 64 1).logEv (u.ctxEv m.ctx 0x500B note 9 m.ctx)
            let w := (v.convoyKids m.convoy).foldl
              (fun (s : State) (k : Nat) => if (s.edge m.convoy k).detached then s else s.detachChild m.convoy k) v
            let r : Recov := ⟨m.convoy, m.transfer, m.ctx, field m.payload 8 8, m.dstAddr, field m.payload 0 8, m.bollard, m.increment, m.step, 0, false⟩
            let below : Relay :=
              ⟨m.transfer, m.convoy, m.ctx, none, field m.payload 8 8, m.dstAddr, 0, m.bollard, m.increment, m.step, false, 0, false, 0, []⟩
            let x := if (v.relay? m.transfer).isSome then w.dropRelay m.transfer
              else (w.convoyKids m.convoy).foldl (fun (s : State) (k : Nat) => s.sendDetach below k 0) w
            exec (.msgDetach p m) s =
              .next (credited p m (({ x with fabric := { x.fabric with recovs := x.fabric.recovs ++ [r] } }).fetchMore r))))

/-- R361: a credit that stays away, or a lane whose error ratio is above the limit, retrains an active link; with no credit missing, or
a ratio within the limit, nothing happens. A retrain that succeeds resends what is unacknowledged and goes on; one that fails fails
the link (R359, R361). R371: a fairway port comes up with the peer its plan entry names and with no other; a wrong peer holds it
down with 0x5004; a port of another mode comes up with any peer. -/
def Obligations.LinksTrainRetrainAndRecover : Prop :=
  (∀ (s : State) (p : HawserPort),
    (∀ vc, vc < 8 →
      ((s.port p.val).credits.getD vc 0 < s.get 0x7030 (vc + 1) → exec (.creditTimeout p vc) s = .next (s.retrain p.val))
        ∧ (s.get 0x7030 (vc + 1) ≤ (s.port p.val).credits.getD vc 0 → exec (.creditTimeout p vc) s = .next s))
      ∧ (∀ lane ber, lane < 8 → 2400 < ber → exec (.laneBerCheck p lane ber) s = .next (s.retrain p.val))
      ∧ (∀ lane ber, ber ≤ 2400 → exec (.laneBerCheck p lane ber) s = .next s)
      ∧ (s.linkState p.val = 3 →
        let x := s.port p.val
        let v := s.put (portIdx p.val) 2 2
        (x.tx = x.acked → exec (.linkRetrainDone p true) s = .next (v.pump p.val))
          ∧ (x.tx ≠ x.acked → exec (.linkRetrainDone p true) s = .next ((v.emit (.linkResend p.val (x.acked % 4096))).pump p.val))
          ∧ exec (.linkRetrainDone p false) s = .next (s.failLink p.val))
      ∧ (∀ f dom pkg port, s.fabricDef p.val = some f → s.linkState p.val = 1 → f.mode ≠ 2 →
        exec (.linkTrainingDone p dom pkg port) s = .next ((s.put (portIdx p.val) 2 2).pump p.val)))
    ∧ (∀ (s : State) (p : HawserPort) (f : FabricDef) (dom pkg port : Nat), s.fabricDef p.val = some f → s.linkState p.val = 1 → f.mode = 2 →
    let u := (s.put (portIdx p.val) 3 (dom % 256 * 65536 + port % 256 * 256)).put (portIdx p.val) 4 (pkg % 65536)
    (dom = f.peerDom → pkg = f.peerPkg → port = f.peerPort →
      exec (.linkTrainingDone p dom pkg port) s = .next ((u.put (portIdx p.val) 2 2).pump p.val))
      ∧ (¬(dom = f.peerDom ∧ pkg = f.peerPkg ∧ port = f.peerPort) →
        ∃ t, exec (.linkTrainingDone p dom pkg port) s = .next t ∧ t.linkState p.val = 5 ∧ newest t 0x5004 warning
          ∧ (∀ q : HawserPort, q ≠ p → t.linkState q.val = s.linkState q.val) ∧ t.mem = s.mem))

/-- A resend is counted in flits and asked for; the eighth in a row of one flit retrains the link (R359, R361). R362: returned credits
never exceed the port's configured credits, and no returned credit touches another channel; the acknowledged flits leave the replay
buffer, and the credit of a convoy's edges goes back to the edges it names (R372; log 16). -/
def Obligations.FlitsAreResentAndCreditsBounded : Prop :=
  (∀ (s : State) (p : HawserPort),
    (∀ seq, s.linkState p.val = 2 →
      let x := s.port p.val
      let d := (x.tx + 4096 - seq % 4096) % 4096
      d ≠ 0 → d ≤ x.tx - x.acked → x.retry.1 ≠ x.tx - d →
        exec (.flitResendRequest p seq) s =
          .next (((s.setPort p.val { x with retry := (x.tx - d, 1) }).count (portIdx p.val) 6 64 d).emit (.linkResend p.val (seq % 4096))))
      ∧ (∀ seq n, s.linkState p.val = 2 →
        let x := s.port p.val
        let d := (x.tx + 4096 - seq % 4096) % 4096
        let u := ((s.setPort p.val { x with retry := (x.tx - d, n + 1) }).count (portIdx p.val) 6 64 d).emit (.linkResend p.val (seq % 4096))
        d ≠ 0 → d ≤ x.tx - x.acked → x.retry = (x.tx - d, n) → 0 < n →
          (n < 7 → exec (.flitResendRequest p seq) s = .next u)
            ∧ (7 ≤ n → exec (.flitResendRequest p seq) s = .next ((u.setPort p.val { u.port p.val with retry := (0, 0) }).retrain p.val)))
      ∧ (∀ vc n ack edges, s.linkState p.val = 2 → vc < 8 →
        let x := s.port p.val
        let back := (x.tx + 4096 - ack % 4096) % 4096
        let acked := if x.tx - x.acked < back then x.acked else x.tx - back
        exec (.creditReturn p vc n ⟨ack, edges⟩) s =
          .next (edges.foldl State.edgeCredit ((s.setPort p.val { x with
            credits := x.credits.set vc (min (s.get 0x7030 (vc + 1)) (x.credits.getD vc 0 + n)), acked := acked,
            replay := x.replay.filter (fun e => decide (acked < e.1)),
            retry := if acked = x.acked then x.retry else (0, 0) }).pump p.val))))
    ∧ (∀ (s : State) (vc n v : Nat) (cs : List Nat), vc < cs.length →
    (cs.set vc (min (s.get 0x7030 (vc + 1)) (cs.getD vc 0 + n))).getD vc 0 ≤ s.get 0x7030 (vc + 1)
      ∧ (v ≠ vc → (cs.set vc (min (s.get 0x7030 (vc + 1)) (cs.getD vc 0 + n))).getD v 0 = cs.getD v 0))

/-- R361: a retrain is counted and logged; after more retrains within 10 s than allowed the link fails. -/
def Obligations.RetrainsAreCountedAndLimited : Prop :=
  ∀ (s : State) (p : HawserPort), s.linkState p.val = 2 →
    let recent := s.timer :: (s.port p.val).retrains.filter (fun t => decide (s.timer ≤ t + 10000000000))
    (recent.length ≤ s.get 0x7001 4 → (s.retrain p.val).linkState p.val = 3 ∧ newest (s.retrain p.val) 0x500C note
      ∧ (s.retrain p.val).get (portIdx p.val) 7 = satAdd 32 (s.get (portIdx p.val) 7) 1 ∧ (s.retrain p.val).mem = s.mem
      ∧ (∀ q : HawserPort, q ≠ p → (s.retrain p.val).linkState q.val = s.linkState q.val))
      ∧ (s.get 0x7001 4 < recent.length → ∃ u : State, s.retrain p.val = u.failLink p.val ∧ newest u 0x500C note
        ∧ u.get (portIdx p.val) 7 = satAdd 32 (s.get (portIdx p.val) 7) 1 ∧ u.mem = s.mem)

/-- A transfer or a convoy message without an answer is a lost peer; a convoy edge on which data waits without credit, and whose child
does not mark its returns as held, detaches the child (R366, R373). An open bucket whose deadline, taken when it opened, has passed
closes with what it has; before the deadline nothing happens (R402). -/
def Obligations.SilentPeersAndLateBucketsAreClosed : Prop :=
  (∀ (s : State) (xid : Nat),
    (∀ x, s.xfer? xid = some x → exec (.ackTimeout xid) s = .next (s.xferFails xid x 0x5008))
      ∧ (∀ r, s.xfer? xid = none → s.relay? xid = some r →
        (¬(r.last = true ∧ r.floor = r.count) → exec (.ackTimeout xid) s = .next (s.relayFails r 0x5008 (leBytes 2 0x5008 ++ zeros 14)))
          ∧ (r.last = true → r.floor = r.count → exec (.ackTimeout xid) s = .next s))
      ∧ (∀ cv child, (s.edge cv child).waiting ≠ [] → (s.edge cv child).detached = false →
        ((s.edge cv child).held = false → exec (.convoyStallLimit cv child) s = .next (s.detachChild cv child))
          ∧ ((s.edge cv child).held = true → exec (.convoyStallLimit cv child) s = .next s)))
    ∧ (∀ (s : State) (entry round bucket : Nat) (x : Inst) (t : Nat), s.inst? (instKey entry (round == 1) bucket) = some x →
    x.timer = some t → x.phase = 0 →
    (t + x.deadline * 1000 ≤ s.timer → exec (.bucketDeadline entry round bucket) s = .next (s.closeInst entry (round == 1) bucket true))
      ∧ (s.timer < t + x.deadline * 1000 → exec (.bucketDeadline entry round bucket) s = .next s))

/-- The end of a close raises CLOSE_BOLLARD by 1 and fixes the exponent of R397: the next instance of the same layer, round and bucket
opens with e + 4 clamped to −64 … +64, and with 0 when the close wrote only zeros. The same holds of a close that is still
acknowledged after the next step has opened the instance again. -/
def Obligations.CloseFixesTheNextExponent : Prop :=
  (∀ (s : State) (entry round bucket : Nat) (x : Inst),
    let k := instKey entry (round == 1) bucket
    s.inst? k = some x → x.phase = 1 → s.weigh.closing.find? (fun e => e.1 == k) = none →
    let m := maxFinite (closeValues x (round == 1))
    ∃ u : State, exec (.bucketCloseAcked entry round bucket) s = .next (u.raise (u.redBind entry).closeBol 1 false)
      ∧ u.baseExp k = (if m = 0 then 0 else clampInt (-64) 64 (ilogR m + 4))
      ∧ u.inst? k = some { x with phase := 2 } ∧ (∀ j, j ≠ k → u.baseExp j = s.baseExp j ∧ u.inst? j = s.inst? j)
      ∧ u.mem = s.mem ∧ u.bollards = s.bollards ∧ u.dict = s.dict)
    ∧ (∀ (s : State) (entry round bucket : Nat) (y : Nat × Inst),
    let k := instKey entry (round == 1) bucket
    s.weigh.closing.find? (fun e => e.1 == k) = some y →
    let m := maxFinite (closeValues y.2 (round == 1))
    ∃ u : State, exec (.bucketCloseAcked entry round bucket) s = .next (u.raise (u.redBind entry).closeBol 1 false)
      ∧ u.baseExp k = (if m = 0 then 0 else clampInt (-64) 64 (ilogR m + 4))
      ∧ (∀ j, j ≠ k → u.baseExp j = s.baseExp j) ∧ (∀ j, u.inst? j = s.inst? j)
      ∧ u.mem = s.mem ∧ u.bollards = s.bollards ∧ u.dict = s.dict)

/-! ## Securing and restart -/

/-- When every chunk is acknowledged the commit record is written and the swap begins; at its end the other half is live and, for a
commit, the books of R440 are kept; a copy that overruns its time is abandoned, and one that is within it goes on (R433, R438,
R440, R441; the deferred open is the model's reading, log 48). -/
def Obligations.CopiesCommitSwapOrTimeOut : Prop :=
  ∀ (s : State) (cp : CopySt), s.secure.copy = some cp →
    (cp.swapping = false → cp.stage = 2 → cp.left = 0 →
      let head := cp.header ++ cp.table ++ cp.history
      let u := s.modCopy (fun c => { c with stage := 3, committed := true, swapping := true })
      exec .secureCommit s = .next (({ u with secure := { u.secure with record := head } }.storeAt cp .commit 7
        ({ u with secure := { u.secure with record := head } }.get 0x8200 3 - 4096) (commitRecord cp.seq head)).put 0x8201 3 2))
      ∧ (cp.swapping = true → (cp.committed = true → cp.stage = 4) →
        let v := (s.swapCopy s.secureCtx cp.marks).flipLive
        let v := ({ v with secure := { v.secure with copy := none } }.put 0x8201 3 0).put 0x8201 7 0
        let w := ((v.put 0x8201 5 cp.step).put 0x8201 6 1).count 0x8220 5 64 1
        let w := w.logEv (w.secEv 0x700D note ([0, 0] ++ leBytes 8 cp.seq))
        let w := w.raise (w.get 0x8200 12) 1 false
        let z := if cp.committed then w else v
        (z.secure.deferred = none → exec .swapDone s = .next z)
          ∧ (z.secure.deferred ≠ none → exec .swapDone s =
              .next (({ z with secure := { z.secure with deferred := none } }).openCopy (z.stepOf s.secureCtx - 1))))
      ∧ (cp.swapping = false → cp.openedAt + s.get 0x8200 10 * 1000000 ≤ s.timer → exec .secureTimeout s = .next s.abandonCopy)
      ∧ (cp.swapping = true ∨ s.timer < cp.openedAt + s.get 0x8200 10 * 1000000 → exec .secureTimeout s = .next s)

/-- A LOAD finishes with the restored state or fails with its code; a VERIFY reaches VERIFIED when every replica's digests agree, and
fails with 0x7013 otherwise (R445, R447; what a failed LOAD leaves is the model's reading, log 48). -/
def Obligations.RestoresFinish : Prop :=
  ∀ (s : State),
    (∀ remote, s.get 0x8202 5 = 1 →
      let h := s.loadingHead
      let u := (s.loadData h remote).1
      (∀ code, (s.loadData h remote).2 = some code → exec (.restoreLoadDone remote) s = .next (u.restoreFail code)
          ∧ (u.restoreFail code).get 0x8202 5 = 5 ∧ (u.restoreFail code).get 0x8202 6 = code)
        ∧ ((s.loadData h remote).2 = none →
            (u.chunksGood h = true → exec (.restoreLoadDone remote) s = .next (u.loadFinish h)
                ∧ (u.loadFinish h).get 0x8202 5 = 2)
              ∧ (u.chunksGood h = false → exec (.restoreLoadDone remote) s = .next (u.restoreFail 0x7011))))
      ∧ (s.get 0x8202 1 = 2 → ∀ h remote, s.loadData h remote = (s.flipLive, none))
      ∧ (∀ replicas, s.get 0x8202 5 = 3 →
        let rs := s.regions.zipIdx.filter (fun p => p.1.replicaPkg != 0xFFFF)
        (rs.map (fun p => s.regionDigests p.2) = replicas → ∃ t, exec (.restoreVerifyDone replicas) s = .next t
          ∧ t.get 0x8202 5 = 4 ∧ t.get 0x8220 8 = satAdd 64 (s.get 0x8220 8) 1 ∧ t.mem = s.mem ∧ t.log = s.log)
          ∧ (rs.map (fun p => s.regionDigests p.2) ≠ replicas → exec (.restoreVerifyDone replicas) s = .next (s.restoreFail 0x7013)))

/-! ## The lighthouse -/

/-- A round starts when both converters are done with the last one; a result lands in its channel's filter; the risk estimate is
renewed, its sum in RISK; ageing is sampled and its day ends (R455, R459, R461, R468, R470, R471). R459: a read of a converter's data
register returns the register and clears VALID and OVR, its bits 31:30, on each path; nothing else changes. -/
def Obligations.LighthouseWorksItsRounds : Prop :=
  (∀ s : State, s.power.pst ≠ .off →
    (s.lh.conv0.todo = [] → s.lh.conv1.todo = [] → exec .sequencerRound s = .next s.startRound)
      ∧ (s.lh.conv0.todo ≠ [] ∨ s.lh.conv1.todo ≠ [] → exec .sequencerRound s = .next s)
      ∧ (∀ (conv : Fin 2) code ch rest, (s.conv conv.val).todo = ch :: rest →
        let u := s.conversion conv.val code
        exec (.adcConversionDone conv code) s =
          .next (if ch < 16 ∧ u.power.hmRunning then (if (u.noteSettle ch).operating then (u.noteSettle ch).tempTrigger ch else u.noteSettle ch)
            else u))
      ∧ (s.power.pst ≠ .aux → s.power.pst ≠ .sleep → exec .riskUpdate s = .next s.riskCompute.riskRequest
          ∧ s.riskCompute.get 0x9500 1 = min 65535 (s.riskCompute.get 0x9500 2 + s.riskCompute.get 0x9500 3 + s.riskCompute.get 0x9500 4
            + s.riskCompute.get 0x9500 5 + s.riskCompute.get 0x9500 6))
      ∧ (∀ slow drift corrected, s.power.hmRunning = true →
        let u := iter 32 (fun i s => s.put 0x9301 (i + 1) (ofSigned 16 (clampInt (-32768) 32767 (slow.getD i 0)))) s.measureMargins
        exec (.ageingSample slow drift corrected) s =
          .next { u with lh := { u.lh with ageing := (u.ageValues slow drift corrected).foldl addSample u.lh.ageing } }.refreshEol)
      ∧ (∃ t, exec .ageingDayEnd s = .next t ∧ t.lh = { s.lh with ageing := s.lh.ageing.map (fun (e : Nat × AgeInd) => (e.1, e.2.dayEnd)) }
          ∧ t.store.ageing = some (t.lh.ageing.map (fun e => (e.1, e.2.days))) ∧ t.mem = s.mem ∧ t.dict = s.dict))
    ∧ (∀ (s : State) (conv : Fin 2) (o : Option ObjDef),
      let v := s.get (0x9001 + conv.val) 0
      (∀ p : HostPort, s.windowReady p.val = true → s.readAccess (.win p) (0x9001 + conv.val) 0 = .ok o →
        ∃ t, exec (.adcDataRead (.win p) conv) s = .next t ∧ t.get (0x9001 + conv.val) 0 = v % 2 ^ 30
          ∧ t.out = s.out ++ [.winData p.val (leBytes 4 v)] ∧ t.mem = s.mem ∧ t.lh = s.lh)
        ∧ (∀ p : HostPort, s.windowReady p.val = false →
          exec (.adcDataRead (.win p) conv) s = .next (s.emit (.winData p.val [0xFF, 0xFF, 0xFF, 0xFF])))
        ∧ (s.power.pst ≠ .off → s.readAccess .odp (0x9001 + conv.val) 0 = .ok o →
          ∃ t, exec (.adcDataRead .odp conv) s = .next t ∧ t.get (0x9001 + conv.val) 0 = v % 2 ^ 30
            ∧ t.out = s.out ++ [.readData .odp (leBytes 4 v)] ∧ t.mem = s.mem ∧ t.lh = s.lh))

/-! ## The host link -/

/-- HLx_PERST_N resets its CXL port and no other; its release starts training where power is good; a link that comes up at a
supported rate and width ends the wake and, past start-up, opens the window; a link that goes down trains again; accesses of the other port that waited for a lost line go on (R507 to R511). -/
def Obligations.CxlPortsResetTrainAndComeUp : Prop :=
  ∀ (s : State) (p : HostPort),
    (∃ t : State, exec (.hlPerstAssert p) s = .next t.hdmWakeAll ∧ (t.hl p.val).perst = true ∧ (t.hl p.val).decoder = 0
      ∧ (t.hl p.val).filter = [] ∧ (t.hl p.val).waiting = [] ∧ t.get (0x1200 + p.val) 1 = 0
      ∧ (∀ q : HostPort, q ≠ p → (t.hl q.val).filter = (s.hl q.val).filter ∧ ((s.hl q.val).waiting = [] → t.hl q.val = s.hl q.val))
      ∧ t.tiles = s.tiles ∧ t.mem = s.mem)
      ∧ exec (.hlPerstRelease p) s = .next ((s.setHl p.val { s.hl p.val with perst := false }).portTrains p.val)
      ∧ (∀ rate width, (s.hl p.val).perst = false → s.power.pwrGood = true → s.get (0x1300 + p.val) 1 = 1 → linkSupported rate width = true →
        ∃ t, exec (.cxlLinkUp p rate width) s = .next t ∧ t.linkUp p.val = true ∧ t.get (0x1300 + p.val) 2 = rate
          ∧ t.get (0x1300 + p.val) 3 = width ∧ (t.hl p.val).wakeN = false ∧ (s.operating = true → t.windowReady p.val = true) ∧ t.mem = s.mem)
      ∧ (s.linkUp p.val = true → exec (.cxlLinkDown p) s = .next ((s.linkDown p.val).portTrains p.val).hdmWakeAll)
      ∧ (∃ t, exec (.wakeNTimeout p) s = .next t ∧ (t.hl p.val).wakeN = false ∧ t.dict = s.dict ∧ t.mem = s.mem ∧ t.out = s.out)

/-- A configuration request is served at a ready window and answered with RRS before it (R507). R511: a host access to a line
that no access waits for is served at once where nothing is to be snooped, and waits for the snoops it sends where something is; a
response releases the line it answers, and the data it carries is written. R516: the first notice that is acknowledged since the host
last looked sends MSI-X vector 0; while the host has not looked, a further one sends nothing. -/
def Obligations.HostRequestsAreServedAndNoticesSignalled : Prop :=
  (∀ (s : State) (p : HostPort) (req : CfgReq), (s.hl p.val).perst = false → s.power.pwrGood = true →
    (s.windowReady p.val = true → exec (.cxlConfigRequest p req) s = .next (s.cfgServe p.val req))
      ∧ (s.windowReady p.val = false → exec (.cxlConfigRequest p req) s = .next (s.emit (.rrs p.val))))
    ∧ (∀ (s : State) (p : HostPort),
    (∀ pa op, s.linkUp p.val = true → pa / 64 * 64 + 64 ≤ min (s.hl p.val).decoder reservedBase → s.operating = true ∨ s.power.pst = .nap →
      (((s.hl 0).waiting ++ (s.hl 1).waiting).any (fun w => w.pa == pa / 64 * 64) = false →
        (s.hdmSnoops p.val (pa / 64 * 64) op = [] → exec (.hdmAccess p pa op) s = .next (s.hdmServe p.val (pa / 64 * 64) op))
          ∧ (s.hdmSnoops p.val (pa / 64 * 64) op ≠ [] → exec (.hdmAccess p pa op) s =
            .next ((s.sendSnoops (s.hdmSnoops p.val (pa / 64 * 64) op)).hdmQueue p.val (pa / 64 * 64) op (s.hdmSnoops p.val (pa / 64 * 64) op))))
        ∧ (((s.hl 0).waiting ++ (s.hl 1).waiting).any (fun w => w.pa == pa / 64 * 64) = true →
          exec (.hdmAccess p pa op) s = .next (s.hdmQueue p.val (pa / 64 * 64) op [])))
      ∧ (∀ line data, mget? (s.hl p.val).filter (line / 64 * 64) ≠ none → s.hl0.waiting = [] → s.hl1.waiting = [] →
        ∃ t, exec (.biSnoopResponse p line data) s = .next t ∧ mget? (t.hl p.val).filter (line / 64 * 64) = none
          ∧ (∀ l, l ≠ line / 64 * 64 → mget? (t.hl p.val).filter l = mget? (s.hl p.val).filter l) ∧ t.dict = s.dict
          ∧ (data = none → t.mem = s.mem)
          ∧ (∀ d, data = some d → t.mem = (s.writeAt (line / 64 * 64) ((d ++ zeros 64).take 64)).mem)))
    ∧ (∀ s : State, s.notice.unacked ≠ 0 →
    (s.notice.outstanding = true → exec .noticeWriteDone s = .next { s with notice := { s.notice with unacked := s.notice.unacked - 1 } })
      ∧ (s.notice.outstanding = false → exec .noticeWriteDone s = .next
          ({ s with notice := { s.notice with unacked := s.notice.unacked - 1, outstanding := true } }.msix (s.get 0x1310 3) 0)))

/-! ## Management and security -/

/-- DOE and SPDM answers (R517, R527; the formats are the standards', log 15): each request of a step that its connection has reached
is answered, and one that comes too early or is malformed is rejected. -/
def Obligations.SpdmAndDoeRequestsAreAnswered : Prop :=
  ∀ (s : State) (port : HostPort) (path : SpdmPath),
    (∀ i, s.doeUp port.val = true → exec (.doeDiscovery port i) s = .next (s.emit (.doe port.val (if i < 3 then doeEntry i else [0xFF, 0xFF, 0, 0])))
        ∧ exec (.doeTableAccess port i) s = .next (s.emit (.doe port.val (cdat.getD i [0xFF, 0xFF]))))
      ∧ exec (.spdmGetVersion path) s = .next (s.spdmStep path true (fun s =>
          (s.setSpdm path ⟨true, false, false, []⟩).spdmSend path [0x10, 0x04, 0, 0, 0, 1, 0x00, 0x13]))
      ∧ ((s.spdmConn path).version = true → exec (.spdmGetCapabilities path) s = .next (s.spdmStep path true (fun s =>
          (s.setSpdm path { s.spdmConn path with capabilities := true }).spdmSend path ([0x13, 0x61, 0, 0, 0, 0, 0, 0] ++ leBytes 4 0x16))))
      ∧ ((s.spdmConn path).capabilities = true → exec (.spdmNegotiateAlgorithms path true true) s = .next (s.spdmStep path true (fun s =>
          (s.setSpdm path { s.spdmConn path with algorithms := true }).spdmSend path spdmAlgorithms))
          ∧ (∀ p h, (p && h) = false → exec (.spdmNegotiateAlgorithms path p h) s = .next (s.spdmStep path true (fun s => s.spdmReject path 0x01 0))))
      ∧ ((s.spdmConn path).version = false → exec (.spdmGetCapabilities path) s = .next (s.spdmStep path true (fun s => s.spdmReject path 0x04 0)))
      ∧ ((s.spdmConn path).capabilities = false → ∀ p h, exec (.spdmNegotiateAlgorithms path p h) s =
          .next (s.spdmStep path true (fun s => s.spdmReject path 0x04 0)))
      ∧ ((s.spdmConn path).algorithms = false → ∀ c : Instr, (c = .spdmGetDigests path ∨ (∃ slot off n, c = .spdmGetCertificate path slot off n)
            ∨ (∃ slot nonce, c = .spdmChallenge path slot nonce) ∨ (∃ i signed nonce, c = .spdmGetMeasurements path i signed nonce)) →
          exec c s = .next (s.spdmStep path true (fun s => s.spdmReject path 0x04 0)))
      ∧ ((s.spdmConn path).algorithms = true →
        exec (.spdmGetDigests path) s = .next (s.spdmStep path true (fun s => s.spdmSend path ([0x13, 0x01, 0, 1] ++ sha384 s.certChain)))
          ∧ (∀ slot off n, exec (.spdmGetCertificate path slot off n) s = .next (s.spdmStep path true (fun s =>
              if slot ≠ 0 ∨ s.certChain.length ≤ off then s.spdmReject path 0x01 0
              else s.spdmSend path ([0x13, 0x02, 0, 0] ++ leBytes 2 ((s.certChain.drop off).take n).length
                ++ leBytes 2 (s.certChain.length - off - ((s.certChain.drop off).take n).length) ++ (s.certChain.drop off).take n))))
          ∧ (∀ nonce, exec (.spdmChallenge path 0 nonce) s = .next (s.spdmStep path true (fun s =>
              let body := [0x13, 0x03, 0, 1] ++ sha384 s.certChain ++ leBytes 32 s.draw.1
              (s.draw.2.spdmSign (nonce ++ body)).2.spdmSend path (body ++ (s.draw.2.spdmSign (nonce ++ body)).1))))
          ∧ (∀ slot nonce, slot ≠ 0 → exec (.spdmChallenge path slot nonce) s =
              .next (s.spdmStep path true (fun s => s.spdmReject path 0x01 0)))
          ∧ (∀ signed nonce, exec (.spdmGetMeasurements path 0 signed nonce) s = .next (s.spdmStep path true (fun s =>
              s.spdmSend path [0x13, 0x60, 6, 0])))
          ∧ (∀ i signed nonce, i = 0xFF ∨ (1 ≤ i ∧ i ≤ 6) → exec (.spdmGetMeasurements path i signed nonce) s =
              .next (s.spdmStep path true (fun s =>
                let is := if i = 0xFF then [1, 2, 3, 4, 5, 6] else [i]
                let body := [0x13, 0x60, 0, 0, BitVec.ofNat 8 is.length]
                  ++ is.flatMap (fun i => [BitVec.ofNat 8 i, 1] ++ leBytes 2 48 ++ s.measurement i)
                if signed then (s.spdmSign (nonce ++ body)).2.spdmSend path (body ++ (s.spdmSign (nonce ++ body)).1)
                else s.spdmSend path body)))
          ∧ (∀ i signed nonce, 6 < i → i ≠ 0xFF → exec (.spdmGetMeasurements path i signed nonce) s =
              .next (s.spdmStep path true (fun s => s.spdmReject path 0x01 0))))
      ∧ (∀ req, exec (.spdmUnsupported path req true) s = .next (s.spdmStep path true (fun s => s.spdmReject path 0x01 0))
          ∧ exec (.spdmUnsupported path req false) s = .next (s.spdmStep path true (fun s => s.spdmReject path 0x07 req)))

/-- R519, R518: duplicate address detection ends with its verdict, a neighbour solicitation for the own address and an echo request
at a preferred address are answered, and a follower's beacon comes and goes. -/
def Obligations.ManagementPortAnswers : Prop :=
  ∀ s : State, s.mgmt.running = true →
    (∀ dup, s.get 0x1400 7 = 0 → ∃ t, exec (.dadComplete dup) s = .next t ∧ t.get 0x1400 7 = (if dup then 2 else 1)
        ∧ t.out = s.out ∧ t.mem = s.mem)
      ∧ (∀ a, s.get 0x1400 7 ≠ 0 → exec (.neighbourSolicitation a s.ownAddr) s = .next (s.rx.tx (.neighbourAdv a s.ownAddr)))
      ∧ (∀ a d, s.get 0x1400 7 = 1 → exec (.echoRequest a d) s = .next (s.rx.tx (.echoReply a d)))
      ∧ (s.follower = true → (∃ t, exec .plcaBeaconTimeout s = .next t ∧ t.mgmt.beacon = false ∧ t.get 0x1400 6 = 2 ∧ t.out = s.out)
          ∧ (∃ t, exec .plcaBeacon s = .next t ∧ t.mgmt.beacon = true ∧ t.get 0x1400 6 = 1 ∧ t.out = s.out))

/-- R520: what each TAP command leaves in the instruction register, and which instruction then acts. EXTEST, HIGHZ and CLAMP act in AUX
only and are BYPASS in any other state; a private opcode acts only while debug access is enabled; IDCODE is selected after test
reset. EXTEST loads the boundary cells in AUX only. No TAP command changes anything else. -/
def Obligations.TestAccessPortSelectsItsRegister : Prop :=
  (∀ s : State,
    let sel (c : Instr) (i : TapInstr) : Prop := exec c s = .next { s with tap := { s.tap with ir := i } }
    sel .testReset .idcode ∧ sel .idcode .idcode ∧ sel .bypass .bypass ∧ sel .highz .highz ∧ sel .clamp .clamp
      ∧ (∀ op, sel (.privateInstruction op) (.priv op))
      ∧ (∀ b, exec (.samplePreload b) s = .next { s with tap := ⟨.sample, b⟩ }
          ∧ (s.power.pst = .aux → exec (.extest b) s = .next { s with tap := ⟨.extest, b⟩ })
          ∧ (s.power.pst ≠ .aux → exec (.extest b) s = .next { s with tap := { s.tap with ir := .extest } })))
    ∧ (∀ s : State,
      (s.power.pst ≠ .aux → s.tap.ir = .extest ∨ s.tap.ir = .highz ∨ s.tap.ir = .clamp → s.tapActs = .bypass)
        ∧ (s.power.pst = .aux → s.tap.ir = .extest ∨ s.tap.ir = .highz ∨ s.tap.ir = .clamp → s.tapActs = s.tap.ir)
        ∧ (∀ op, s.tap.ir = .priv op → (s.dbg.on = true → s.tapActs = .priv op) ∧ (s.dbg.on = false → s.tapActs = .bypass))
        ∧ (s.tap.ir = .idcode ∨ s.tap.ir = .bypass ∨ s.tap.ir = .sample → s.tapActs = s.tap.ir))

/-- R524: an image that passes its checks begins to be written, one that fails is refused with its code and 0x9003 where its
signature or a digest is bad; while a transfer of the image is open it is refused with 0xA00A (R47). A write that verified is in
the slot that is not running, one that failed leaves the slots as they were. R525: a slot below the anti-rollback counter is not
valid. -/
def Obligations.FirmwareImagesAreWrittenOrRefused : Prop :=
  (∀ (s : State),
    (∀ src image, (s.transferOpen 0xC020 = false →
        (∀ u, s.fwImageClose image = .ok u → exec (.fwImageDownload src image) s = .next (u.accept src 0xC020 0)
            ∧ (∃ x, u.fw.writing = some x ∧ x.svn = field image 12 2) ∧ u.mem = s.mem)
          ∧ (∀ code, s.fwImageClose image = .error code → exec (.fwImageDownload src image) s =
            .next ((if code = 0xA013 then s.logEv (pkgEv 0x9003 warning) else s).refuse src 0xC020 0 code)))
        ∧ (s.transferOpen 0xC020 = true → exec (.fwImageDownload src image) s = .next (s.refuse src 0xC020 0 0xA00A)))
      ∧ (∀ x ok, s.fw.writing = some x → ∃ t, exec (.fwWriteDone ok) s = .next t ∧ t.mem = s.mem
          ∧ t.fw = (let f := { s.fw with writing := none, writer := none }
              if ok then f.setSlot f.target x else f))
      ∧ (∀ x, s.fw.writing = some x → s.fw.writer = none →
        exec (.fwWriteDone true) s =
            .next { s with fw := ({ s.fw with writing := none, writer := none } : Fw).setSlot ({ s.fw with writing := none, writer := none } : Fw).target x }.fwStatus
          ∧ exec (.fwWriteDone false) s = .next { s with fw := { s.fw with writing := none, writer := none } }.fwStatus))
    ∧ (∀ (s : State) (n : Nat), (s.fw.slot n).svn < s.arb → s.slotValid n = false)

/-- R529: a key hash that may be set is set, another is refused with its code; a token that verifies enables debug access for the time
it names and is logged as 0x9005, another is refused with 0xA013, changes nothing of the access and is logged as 0x9006; an open
transfer of either object refuses it (R47); debug access ends when its time is over and not before (the clock of the expiry is the
lighthouse's timer, log 63). -/
def Obligations.DebugAccessIsGrantedByTokenOnly : Prop :=
  ∀ (s : State),
    (s.power.pst ≠ .off →
      (∀ h, s.transferOpen 0xC031 = false →
        (∀ u, s.debugKeySet h = .ok u → exec (.debugKeyHashSet h) s = .next (u.accept .odp 0xC031 0)
            ∧ u = { s with blobs := mset s.blobs (key 0xC031 0) h } ∧ isZero s.debugKeyHash = true)
          ∧ (∀ code, s.debugKeySet h = .error code → exec (.debugKeyHashSet h) s = .next (s.refuse .odp 0xC031 0 code)))
        ∧ (∀ h, s.transferOpen 0xC031 = true → exec (.debugKeyHashSet h) s = .next (s.refuse .odp 0xC031 0 0xA00A))
        ∧ (∀ tok, s.transferOpen 0xC030 = false → tok.length = 224 →
          (debugTokenOk s tok = true → ∃ t : State, exec (.debugToken tok) s = .next (t.accept .odp 0xC030 2) ∧ t.dbg.on = true
              ∧ t.get 0xC030 3 = 1 ∧ t.dbg.until_ = s.timer + field tok 24 4 * 10 ^ 9 ∧ newest t 0x9005 warning ∧ t.mem = s.mem)
            ∧ (debugTokenOk s tok = false → ∃ t : State, exec (.debugToken tok) s = .next (t.refuse .odp 0xC030 2 0xA013)
              ∧ t.dbg.on = s.dbg.on ∧ t.dbg.until_ = s.dbg.until_ ∧ newest t 0x9006 warning ∧ t.mem = s.mem))
        ∧ (∀ tok, s.transferOpen 0xC030 = true → exec (.debugToken tok) s = .next (s.refuse .odp 0xC030 2 0xA00A))
        ∧ (∀ tok, s.transferOpen 0xC030 = false → tok.length ≠ 224 → exec (.debugToken tok) s = .next (s.refuse .odp 0xC030 2 0xA008)))
      ∧ (s.dbg.on = true →
        (s.dbg.until_ ≤ s.timer → ∃ t, exec .debugExpiry s = .next t ∧ t.dbg.on = false ∧ t.get 0xC030 3 = 0 ∧ newest t 0x9005 warning
            ∧ t.mem = s.mem ∧ t.tiles = s.tiles)
          ∧ (s.timer < s.dbg.until_ → exec .debugExpiry s = .next s))

/-! ## Numbers -/

/-- R151: a code has exactly one set of four levels Hp, Hn, Lp, Ln; a change of code reprograms the cells whose level changes, and
a change of sign every cell that is non-zero before or after. -/
def Obligations.CodesHaveOneSetOfLevels : Prop :=
  (∀ q : Int, -255 ≤ q → q ≤ 255 → ∃ h l : Nat, h < 16 ∧ l < 16 ∧ q.natAbs = 16 * h + l
    ∧ (0 ≤ q → levelsOf q = [h, 0, l, 0]) ∧ (q < 0 → levelsOf q = [0, h, 0, l]))
    ∧ (∀ q r : Int, levelsOf q = levelsOf r → q = r)
    ∧ (∀ a b : Int, pulses a b = ((List.range 4).filter (fun i => decide ((levelsOf a).getD i 0 ≠ (levelsOf b).getD i 0))).length)
    ∧ (∀ a b : Int, 0 < a → b < 0 → pulses a b = ((levelsOf a ++ levelsOf b).filter (fun x => decide (x ≠ 0))).length
        ∧ pulses b a = ((levelsOf a ++ levelsOf b).filter (fun x => decide (x ≠ 0))).length)

/-- R39: the bytes of a number are little-endian, and reading them back gives the number. -/
def Obligations.LittleEndianRoundTrip : Prop :=
  (∀ n v : Nat, ofLe (leBytes n v) = v % 256 ^ n ∧ (leBytes n v).length = n) ∧ (∀ bs : List Byte, leBytes bs.length (ofLe bs) = bs)

end
end

