-- ==== Sys2Proof/Laws/Keeps.lean ====
section
/-! SUPPORT. How State.Keeps composes: through updates of other fields, branches, folds, and results that may be errors. -/

namespace Sys2Proof.Machine

theorem keeps_refl (s : State) : s.Keeps s := ⟨rfl, id, le_refl _, le_refl _, List.prefix_refl _⟩

theorem keeps_trans {z s t : State} (h : z.Keeps s) (g : s.Keeps t) : z.Keeps t :=
  ⟨g.queue.trans h.queue, fun w => g.cells (h.cells w), h.draws.trans g.draws, h.seq.trans g.seq, h.sent.trans g.sent⟩

def Yields {ε α : Type} (P : α → Prop) (x : Except ε α) : Prop := ∀ a, x = .ok a → P a

theorem yields_ok {ε α : Type} {P : α → Prop} {a : α} (h : P a) : Yields (ε := ε) P (.ok a) := by
  intro b e; cases e; exact h
theorem yields_error {ε α : Type} {P : α → Prop} {e : ε} : Yields P (.error e : Except ε α) := by intro b e; cases e
theorem yields_bind {ε α β : Type} {P : α → Prop} {Q : β → Prop} {x : Except ε α} {f : α → Except ε β} (hx : Yields P x)
    (hf : ∀ a, P a → Yields Q (f a)) : Yields Q (x >>= f) := by
  intro b e
  cases x with
  | error c => cases e
  | ok a => exact hf a (hx a rfl) b e
theorem yields_map {ε α β : Type} {P : α → Prop} {Q : β → Prop} {x : Except ε α} {f : α → β} (hx : Yields P x)
    (hf : ∀ a, P a → Q (f a)) : Yields Q (x.map f) := by
  intro b e
  cases x with
  | error c => cases e
  | ok a => cases e; exact hf a (hx a rfl)
theorem yields_fmap {ε α β : Type} {P : α → Prop} {Q : β → Prop} {x : Except ε α} {f : α → β} (hx : Yields P x)
    (hf : ∀ a, P a → Q (f a)) : Yields Q (f <$> x) := yields_map hx hf
theorem yields_true {ε α : Type} (x : Except ε α) : Yields (fun _ => True) x := fun _ _ => trivial
theorem yields_ite {ε α : Type} {P : α → Prop} {c : Prop} [Decidable c] {x y : Except ε α} (hx : Yields P x) (hy : Yields P y) :
    Yields P (if c then x else y) := by split <;> assumption

theorem yields_foldl {ε α β : Type} {P : α → Prop} {f : Except ε α → β → Except ε α} {l : List β} {x : Except ε α}
    (hf : ∀ u b, Yields P u → Yields P (f u b)) (h : Yields P x) : Yields P (l.foldl f x) := by
  induction l generalizing x with
  | nil => exact h
  | cons b l ih => exact ih (hf x b h)

theorem keeps_drawn {z s : State} (h : z.Keeps s) (n : Nat) : z.Keeps { s with draws := s.draws + n } :=
  ⟨h.queue, h.cells, h.draws.trans (Nat.le_add_right _ _), h.seq, h.sent⟩

theorem keeps_ite {z s t : State} {c : Prop} [Decidable c] (hs : z.Keeps s) (ht : z.Keeps t) : z.Keeps (if c then s else t) := by
  split <;> assumption

theorem keeps_fst_ite {α : Type} {z : State} {c : Prop} [Decidable c] {x y : State × α} (hx : z.Keeps x.1) (hy : z.Keeps y.1) :
    z.Keeps (if c then x else y).1 := by split <;> assumption
theorem keeps_snd_ite {α : Type} {z : State} {c : Prop} [Decidable c] {x y : α × State} (hx : z.Keeps x.2) (hy : z.Keeps y.2) :
    z.Keeps (if c then x else y).2 := by split <;> assumption

theorem keeps_foldl {α : Type} {z s : State} {f : State → α → State} {l : List α}
    (hf : ∀ u x, z.Keeps u → z.Keeps (f u x)) (h : z.Keeps s) : z.Keeps (l.foldl f s) := by
  induction l generalizing s with
  | nil => exact h
  | cons x l ih => exact ih (hf s x h)
theorem keeps_iter {z s : State} {n : Nat} {f : Nat → State → State}
    (hf : ∀ i u, z.Keeps u → z.Keeps (f i u)) (h : z.Keeps s) : z.Keeps (iter n f s) := by
  induction n generalizing s with
  | zero => exact h
  | succ n ih => exact hf n _ (ih h)

theorem ok_self {ε : Type} {z t : State} {x : Except ε State} (e : x = .ok t) (h : Yields z.Keeps x) : z.Keeps t := h t e
theorem ok_snd {ε α : Type} {z t : State} {a : α} {x : Except ε (α × State)} (e : x = .ok (a, t))
    (h : Yields (fun p => z.Keeps p.2) x) : z.Keeps t := h _ e
theorem ok_fst {ε α : Type} {z t : State} {a : α} {x : Except ε (State × α)} (e : x = .ok (t, a))
    (h : Yields (fun p => z.Keeps p.1) x) : z.Keeps t := h _ e
theorem eq_snd {α : Type} {z t : State} {a : α} {x : α × State} (e : x = (a, t)) (h : z.Keeps x.2) : z.Keeps t := by
  subst e; exact h
theorem eq_fst {α : Type} {z t : State} {a : α} {x : State × α} (e : x = (t, a)) (h : z.Keeps x.1) : z.Keeps t := by
  subst e; exact h

/-- An update of fields that State.Keeps does not speak of. -/
theorem keeps_update {z t : State} (h : z.Keeps t) {timer : Nat} {dict : AMap Nat} {staged : AMap Nat} {blobs : AMap
    (List Byte)} {poison : AMap Nat} {power : Power} {store : Store} {log : EventLog} {hl0 : HostSt} {hl1 : HostSt}
    {notice : Notice} {odp : Odp} {mgmt : Mgmt} {lh : Lighthouse} {fw : Fw} {spdmHl0 : SpdmConn} {spdmHl1 : SpdmConn}
    {spdmOdp : SpdmConn} {tap : Tap} {dbg : Debug} {plan : Option Plan} {tiles : AMap Tile} {tlbs : AMap (List
    TlbEntry)} {berths : AMap Berth} {bollards : AMap Bollard} {chains : AMap (List ChainMember)} {inval : Option
    Inval} {nextTask : Nat} {ctxs : AMap CtxSt} {secure : Secure} {tallies : AMap TallySlot} {retiredDocks : AMap Nat}
    {failedPorts : AMap Nat} {outvoted : AMap Nat} {fabric : Fabric} {layers : AMap LayerSt} {stored : AMap Nat} {weigh
    : Weigh} {holds : AMap HoldSt} {docks : AMap Dock} {cals : AMap (List CalReq)} {dieCals : AMap DieCal} {mvms : AMap
    MvmRun}
    (hl : log.nextSeq = t.log.nextSeq) :
    z.Keeps (State.mk t.pending t.out t.draws timer dict staged blobs t.mem poison power store log hl0 hl1 notice odp mgmt lh fw spdmHl0 spdmHl1 spdmOdp tap dbg plan tiles tlbs berths bollards chains inval nextTask ctxs secure tallies retiredDocks failedPorts outvoted fabric layers stored weigh holds docks cals dieCals mvms) :=
  ⟨h.queue, h.cells, h.draws, hl ▸ h.seq, h.sent⟩

end Sys2Proof.Machine
end

