-- ==== Sys2Proof/Laws/KeepsOps.lean ====
section
/-! SUPPORT. What the operations of Machine/Ops.lean keep (State.Keeps). -/

namespace Sys2Proof.Machine

theorem State.putK_keeps {z s : State} (h : z.Keeps s) (k : Nat) (v : Nat) :
    z.Keeps (State.putK s k v) := by
  unfold State.putK
  with_reducible repeat' (first | assumption | refine keeps_update ?_ rfl)

theorem State.put_keeps {z s : State} (h : z.Keeps s) (idx : Nat) (sub : Nat) (v : Nat) :
    z.Keeps (State.put s idx sub v) := by
  unfold State.put
  with_reducible repeat' (first | assumption | apply State.putK_keeps)

theorem State.count_keeps {z s : State} (h : z.Keeps s) (idx : Nat) (sub : Nat) (w : Nat) (n : Nat) :
    z.Keeps (State.count s idx sub w n) := by
  unfold State.count
  with_reducible repeat' (first | assumption | apply State.put_keeps)

theorem State.countHard_keeps {z s : State} (h : z.Keeps s) : z.Keeps (State.countHard s) := by
  unfold State.countHard
  split
  · exact State.count_keeps h _ _ _ _
  · exact h

theorem State.applyStaged_keeps {z s : State} (h : z.Keeps s) (idx : Nat) (lo : Nat) (hi : Nat) :
    z.Keeps (State.applyStaged s idx lo hi) := by
  unfold State.applyStaged
  with_reducible repeat' (first
    | assumption | intro _ | apply keeps_iter | extract_lets | dsimp +zetaDelta only | refine keeps_update ?_ rfl)

theorem State.draw_keeps {z s : State} (h : z.Keeps s) : z.Keeps s.draw.2 :=
  ⟨h.queue, h.cells, h.draws.trans (Nat.le_succ _), h.seq, h.sent⟩

theorem State.drawBytes_keeps {z s : State} (h : z.Keeps s) (n : Nat) : z.Keeps (s.drawBytes n).2 :=
  ⟨h.queue, h.cells, h.draws.trans (Nat.le_add_right _ _), h.seq, h.sent⟩

theorem State.idle_keeps {z s : State} (h : z.Keeps s) :
    z.Keeps (State.idle s) := by
  unfold State.idle
  with_reducible repeat' (first | assumption | refine keeps_update ?_ rfl)

/-- The first cell of a list whose addresses rise lies above a bound. -/
def cellsAbove (a : Nat) : List Host.Cell → Prop
  | [] => True
  | (j, _) :: _ => a < j

theorem wf_cons {j : Nat} {v : Byte} {m : List Host.Cell} :
    Memory.wf ((j, v) :: m) = true ↔ v ≠ 0 ∧ cellsAbove j m ∧ Memory.wf m = true := by
  cases m with
  | nil => simp [Memory.wf, cellsAbove]
  | cons c m => obtain ⟨k, w⟩ := c; simp [Memory.wf, cellsAbove]; tauto

theorem cellsAbove_cellSet {a j : Nat} {v : Byte} {m : List Host.Cell} (hw : Memory.wf m = true) (hm : cellsAbove j m)
    (ha : j < a) : cellsAbove j (cellSet m a v) := by
  cases m with
  | nil => simp only [cellSet]; split <;> simp [cellsAbove, ha]
  | cons c m =>
    obtain ⟨k, w⟩ := c
    simp only [cellSet]
    split
    · split
      · exact hm
      · exact ha
    · split
      · split
        · rw [wf_cons] at hw
          obtain ⟨-, hk, -⟩ := hw
          cases m with
          | nil => trivial
          | cons d m => exact Nat.lt_trans hm hk
        · exact ha
      · exact hm

/-- Writing one byte keeps the canonical form. -/
theorem cellSet_wf {m : List Host.Cell} (hw : Memory.wf m = true) (a : Nat) (v : Byte) : Memory.wf (cellSet m a v) = true := by
  induction m with
  | nil =>
    simp only [cellSet]
    split
    · rfl
    · rename_i hv; exact decide_eq_true hv
  | cons c m ih =>
    obtain ⟨k, w⟩ := c
    have hw' := wf_cons.1 hw
    obtain ⟨h0, hk, hm⟩ := hw'
    simp only [cellSet]
    split
    · rename_i hlt
      split
      · exact hw
      · rename_i hv; exact wf_cons.2 ⟨hv, hlt, hw⟩
    · split
      · split
        · exact hm
        · rename_i he hv; subst he; exact wf_cons.2 ⟨hv, hk, hm⟩
      · exact wf_cons.2 ⟨h0, cellsAbove_cellSet hm hk (by omega), ih hm⟩

theorem cellsSet_wf {m : List Host.Cell} (hw : Memory.wf m = true) (a : Nat) (bs : List Byte) :
    Memory.wf (cellsSet m a bs) = true := by
  induction bs generalizing m a with
  | nil => exact hw
  | cons b bs ih => exact ih (cellSet_wf hw a b) (a + 1)

theorem cellsAbove_filter {j : Nat} {m : List Host.Cell} (p : Host.Cell → Bool) (hw : Memory.wf m = true) (h : cellsAbove j m) :
    cellsAbove j (m.filter p) := by
  induction m with
  | nil => trivial
  | cons c m ih =>
    obtain ⟨k, w⟩ := c
    obtain ⟨-, hk, hm⟩ := wf_cons.1 hw
    rw [List.filter_cons]
    split
    · exact h
    · apply ih hm
      cases m with
      | nil => trivial
      | cons d m => exact Nat.lt_trans h hk

/-- Forgetting bytes keeps the canonical form. -/
theorem filter_wf {m : List Host.Cell} (p : Host.Cell → Bool) (hw : Memory.wf m = true) : Memory.wf (m.filter p) = true := by
  induction m with
  | nil => rfl
  | cons c m ih =>
    obtain ⟨k, w⟩ := c
    obtain ⟨h0, hk, hm⟩ := wf_cons.1 hw
    rw [List.filter_cons]
    split
    · exact wf_cons.2 ⟨h0, cellsAbove_filter p hm hk, ih hm⟩
    · exact ih hm

theorem State.writeAt_keeps {z s : State} (h : z.Keeps s) (a : Nat) (bs : List Byte) : z.Keeps (s.writeAt a bs) :=
  ⟨h.queue, fun w => cellsSet_wf (h.cells w) a bs, h.draws, h.seq, h.sent⟩

theorem State.poisonAt_keeps {z s : State} (h : z.Keeps s) (a : Nat) (n : Nat) (code : Nat) :
    z.Keeps (State.poisonAt s a n code) := by
  unfold State.poisonAt
  with_reducible repeat' (first | assumption | refine keeps_update ?_ rfl)

theorem State.forget_keeps {z s : State} (h : z.Keeps s) (lo hi : Nat) : z.Keeps (s.forget lo hi) :=
  ⟨h.queue, fun w => filter_wf _ (h.cells w), h.draws, h.seq, h.sent⟩

theorem State.emit_keeps {z s : State} (h : z.Keeps s) (o : Output) : z.Keeps (s.emit o) :=
  ⟨h.queue, h.cells, h.draws, h.seq, h.sent.trans (List.prefix_append _ _)⟩

theorem State.setHl_keeps {z s : State} (h : z.Keeps s) (p : Nat) (h : HostSt) :
    z.Keeps (State.setHl s p h) := by
  unfold State.setHl
  with_reducible repeat' (first | assumption | apply keeps_ite | extract_lets | refine keeps_update ?_ rfl)

theorem State.msix_keeps {z s : State} (h : z.Keeps s) (p : Nat) (v : Nat) :
    z.Keeps (State.msix s p v) := by
  unfold State.msix
  with_reducible repeat' (first | assumption | apply State.setHl_keeps | apply State.emit_keeps | apply keeps_ite)

theorem keeps_log {z s : State} (h : z.Keeps s) (ring flash : List LogEntry) (b : Nat) (l : AMap Nat) :
    z.Keeps { s with log := ⟨ring, flash, s.log.nextSeq + 1, b, l⟩ } :=
  ⟨h.queue, h.cells, h.draws, h.seq.trans (Nat.le_succ _), h.sent⟩

theorem State.logEv_keeps {z s : State} (h : z.Keeps s) (e : Ev) :
    z.Keeps (State.logEv s e) := by
  unfold State.logEv
  with_reducible repeat' (first
    | assumption | apply State.msix_keeps | apply State.count_keeps | apply State.put_keeps | apply keeps_log
    | apply keeps_ite)

theorem State.logHard_keeps {z s : State} (h : z.Keeps s) (e : Ev) :
    z.Keeps (State.logHard s e) := by
  unfold State.logHard
  with_reducible repeat' (first
    | assumption | intro _ | apply State.logEv_keeps | apply State.countHard_keeps)

theorem State.logEvery_keeps {z s : State} (h : z.Keeps s) (period : Nat) (e : Ev) :
    z.Keeps (State.logEvery s period e) := by
  unfold State.logEvery
  with_reducible repeat' (first
    | assumption | apply State.logEv_keeps | apply keeps_ite | split | extract_lets | dsimp +zetaDelta only
    | refine keeps_update ?_ rfl)

theorem State.setPst_keeps {z s : State} (h : z.Keeps s) (p : PState) :
    z.Keeps (State.setPst s p) := by
  unfold State.setPst
  with_reducible repeat' (first
    | assumption | apply State.put_keeps | apply State.msix_keeps | apply keeps_ite | extract_lets | dsimp +zetaDelta only
    | refine keeps_update ?_ rfl)

theorem State.work_keeps {z s : State} (h : z.Keeps s) :
    z.Keeps (State.work s) := by
  unfold State.work
  with_reducible repeat' (first
    | assumption | apply State.idle_keeps | apply State.setPst_keeps | apply keeps_ite | extract_lets | dsimp +zetaDelta only
    | refine keeps_update ?_ rfl)

theorem State.napWake_keeps {z s : State} (h : z.Keeps s) :
    z.Keeps (State.napWake s) := by
  unfold State.napWake
  with_reducible repeat' (first | assumption | apply State.setPst_keeps | apply keeps_ite)

end Sys2Proof.Machine
end

