-- ==== Sys2Proof/Laws/KeepsOperands.lean ====
section
/-! SUPPORT. What the operations of Machine/Operands.lean keep (State.Keeps). -/

namespace Sys2Proof.Machine

theorem State.lookup_keeps {z s : State} (h : z.Keeps s) (tile : Option Nat) (c : Nat) (va : Nat) (write : Bool) :
    Yields (fun p => z.Keeps p.2) (State.lookup s tile c va write) := by
  unfold State.lookup
  with_reducible repeat' (first
    | assumption | apply State.count_keeps | split | apply yields_ok | apply yields_error | extract_lets | dsimp only
    | dsimp +zetaDelta only | refine keeps_update ?_ rfl)

theorem State.translate_keeps {z s : State} (h : z.Keeps s) (tile : Option Nat) (c : Nat) (va : Nat) (n : Need) :
    Yields (fun p => z.Keeps p.2) (State.translate s tile c va n) := by
  unfold State.translate
  with_reducible repeat' (first
    | assumption | apply State.lookup_keeps | split | apply yields_ok | apply yields_error | apply yields_ite
    | refine ok_snd (by assumption) ?_)

theorem State.mark_keeps {z s : State} (h : z.Keeps s) (k : Nat) :
    z.Keeps (State.mark s k) := by
  unfold State.mark
  with_reducible repeat' (first | assumption | extract_lets | dsimp +zetaDelta only | refine keeps_update ?_ rfl)

theorem State.openGranule_keeps {z s : State} (h : z.Keeps s) (tile : Option Nat) (c : Nat) (va : Nat) :
    Yields z.Keeps (State.openGranule s tile c va) := by
  unfold State.openGranule
  with_reducible repeat' (first
    | assumption | apply State.translate_keeps | apply State.writeAt_keeps | apply State.mark_keeps | split | apply yields_ok
    | apply yields_error | apply yields_ite | refine ok_snd (by assumption) ?_)

theorem State.readGo_keeps {z s : State} (h : z.Keeps s) (tile : Option Nat) (c : Nat) (x3 : Nat) (x4 : Nat) (x5 : Nat) :
    Yields (fun p => z.Keeps p.2) (State.readGo s tile c x3 x4 x5) := by
  induction x3 generalizing s x4 x5 with
  | zero =>
  unfold State.readGo
  with_reducible repeat' (first | assumption | apply yields_ok)
  | succ m ih =>
  unfold State.readGo
  with_reducible repeat' (first
    | assumption | apply State.translate_keeps | apply ih | split | apply yields_ok | apply yields_error | apply yields_ite
    | refine ok_snd (by assumption) ?_)

theorem State.readVa_keeps {z s : State} (h : z.Keeps s) (tile : Option Nat) (c : Nat) (va : Nat) (n : Nat) :
    Yields (fun p => z.Keeps p.2) (State.readVa s tile c va n) := by
  unfold State.readVa
  with_reducible repeat' (first | assumption | apply State.readGo_keeps)

theorem State.rangesGo_keeps {z s : State} (h : z.Keeps s) (tile : Option Nat) (c : Nat) (need : Need) (x4 : Nat) (x5 : Nat) (x6 : Nat) :
    Yields (fun p => z.Keeps p.2) (State.rangesGo s tile c need x4 x5 x6) := by
  induction x4 generalizing s x5 x6 with
  | zero =>
  unfold State.rangesGo
  with_reducible repeat' (first | assumption | apply yields_ok)
  | succ m ih =>
  unfold State.rangesGo
  with_reducible repeat' (first
    | assumption | apply State.translate_keeps | apply State.openGranule_keeps | apply ih | split | apply yields_ok
    | apply yields_error | apply yields_ite | refine ok_self (by assumption) ?_ | refine ok_snd (by assumption) ?_)

theorem State.ranges_keeps {z s : State} (h : z.Keeps s) (tile : Option Nat) (c : Nat) (va : Nat) (n : Nat) (need : Need) :
    Yields (fun p => z.Keeps p.2) (State.ranges s tile c va n need) := by
  unfold State.ranges
  with_reducible repeat' (first | assumption | apply State.rangesGo_keeps)

theorem State.storeRanges_keeps {z s : State} (h : z.Keeps s) (x1 : List (Nat × Nat)) (x2 : List Byte) :
    z.Keeps (State.storeRanges s x1 x2) := by
  induction x1 generalizing s x2 with
  | nil =>
  unfold State.storeRanges
  with_reducible repeat' (first | assumption)
  | cons y l ih =>
  unfold State.storeRanges
  with_reducible repeat' (first | assumption | apply State.writeAt_keeps | apply ih)

theorem State.writeVa_keeps {z s : State} (h : z.Keeps s) (tile : Option Nat) (c : Nat) (va : Nat) (bs : List Byte) :
    Yields (fun p => z.Keeps p.2) (State.writeVa s tile c va bs) := by
  unfold State.writeVa
  with_reducible repeat' (first
    | assumption | apply State.storeRanges_keeps | apply State.ranges_keeps | split | apply yields_ok | apply yields_error
    | refine ok_snd (by assumption) ?_)

end Sys2Proof.Machine
end

