-- ==== Sys2Proof/Laws/KeepsAccess.lean ====
section
/-! SUPPORT. What the operations of Machine/Access.lean keep (State.Keeps). -/

namespace Sys2Proof.Machine

theorem State.refuse_keeps {z s : State} (h : z.Keeps s) (src : Src) (idx : Nat) (sub : Nat) (code : Nat) :
    z.Keeps (State.refuse s src idx sub code) := by
  unfold State.refuse
  with_reducible repeat' (first
    | assumption | apply State.put_keeps | apply State.count_keeps | apply State.emit_keeps | apply keeps_ite | split)

theorem State.accept_keeps {z s : State} (h : z.Keeps s) (src : Src) (idx : Nat) (sub : Nat) :
    z.Keeps (State.accept s src idx sub) := by
  unfold State.accept
  with_reducible repeat' (first | assumption | apply State.emit_keeps | split)

theorem State.guarded_keeps {z s : State} (h : z.Keeps s) (src : Src) (idx : Nat) (sub : Nat) (bs : List Byte) (eff : Nat → State → Except Nat State) (heff : ∀ v u, z.Keeps u → Yields z.Keeps (eff v u)) :
    z.Keeps (State.guarded s src idx sub bs eff) := by
  unfold State.guarded
  with_reducible repeat' (first
    | assumption | apply State.refuse_keeps | apply State.accept_keeps | apply heff | apply keeps_ite | split
    | refine ok_self (by assumption) ?_)

end Sys2Proof.Machine
end

