-- ==== Sys2Proof/Laws/KeepsReset.lean ====
section
/-! SUPPORT. What the operations of Machine/Reset.lean keep (State.Keeps). -/

namespace Sys2Proof.Machine

theorem State.volatileDefaults_keeps {z s : State} (h : z.Keeps s) :
    z.Keeps (State.volatileDefaults s) := by
  unfold State.volatileDefaults
  with_reducible repeat' (first | assumption | refine keeps_update ?_ rfl)

theorem State.sweepTransfers_keeps {z s : State} (h : z.Keeps s) :
    z.Keeps (State.sweepTransfers s) := by
  unfold State.sweepTransfers
  with_reducible repeat' (first | assumption | extract_lets | dsimp +zetaDelta only | refine keeps_update ?_ rfl)

theorem State.linkDown_keeps {z s : State} (h : z.Keeps s) (p : Nat) :
    z.Keeps (State.linkDown s p) := by
  unfold State.linkDown
  with_reducible repeat' (first
    | assumption | apply State.setHl_keeps | apply State.put_keeps | apply State.count_keeps | apply keeps_ite)

theorem State.windowsDown_keeps {z s : State} (h : z.Keeps s) :
    z.Keeps (State.windowsDown s) := by
  unfold State.windowsDown
  with_reducible repeat' (first | assumption | apply State.put_keeps)

theorem State.dropGroups_keeps {z s : State} (h : z.Keeps s) :
    z.Keeps (State.dropGroups s) := by
  unfold State.dropGroups
  with_reducible repeat' (first | assumption | dsimp only | refine keeps_update ?_ rfl)

theorem State.dropHarbourmaster_keeps {z s : State} (h : z.Keeps s) :
    z.Keeps (State.dropHarbourmaster s) := by
  unfold State.dropHarbourmaster
  with_reducible repeat' (first
    | assumption | apply State.forget_keeps | extract_lets | dsimp +zetaDelta only | refine keeps_update ?_ rfl)

theorem State.dropDram_keeps {z s : State} (h : z.Keeps s) :
    z.Keeps (State.dropDram s) := by
  unfold State.dropDram
  with_reducible repeat' (first | assumption | apply State.forget_keeps)

theorem State.fallTo_keeps {z s : State} (h : z.Keeps s) (p : PState) (cause : Nat) :
    z.Keeps (State.fallTo s p cause) := by
  unfold State.fallTo
  with_reducible repeat' (first
    | assumption | apply State.windowsDown_keeps | apply State.linkDown_keeps | apply State.setPst_keeps
    | apply State.dropHarbourmaster_keeps | apply State.put_keeps | apply State.sweepTransfers_keeps
    | apply State.dropDram_keeps | apply State.dropGroups_keeps | extract_lets | dsimp +zetaDelta only
    | refine keeps_update ?_ rfl)

end Sys2Proof.Machine
end

