-- ==== Sys2Proof/Laws/KeepsFirmware.lean ====
section
/-! SUPPORT. What the operations of Machine/Firmware.lean keep (State.Keeps). -/

namespace Sys2Proof.Machine

theorem State.fwStatus_keeps {z s : State} (h : z.Keeps s) :
    z.Keeps (State.fwStatus s) := by
  unfold State.fwStatus
  with_reducible repeat' (first | assumption | apply State.put_keeps)

theorem State.bootSelect_keeps {z s : State} (h : z.Keeps s) :
    z.Keeps (State.bootSelect s) := by
  unfold State.bootSelect
  with_reducible repeat' (first
    | assumption | apply State.logHard_keeps | apply State.fwStatus_keeps | apply State.logEv_keeps | apply keeps_ite | split | extract_lets
    | dsimp +zetaDelta only | refine keeps_update ?_ rfl)

theorem State.fwCut_keeps {z s : State} (h : z.Keeps s) (w : FwWriter) :
    z.Keeps (State.fwCut s w) := by
  unfold State.fwCut
  with_reducible repeat' (first
    | assumption | intro _ | apply State.fwStatus_keeps | apply keeps_ite
    | split | refine keeps_update ?_ rfl)

theorem State.fwCutPort_keeps {z s : State} (h : z.Keeps s) (p : Nat) :
    z.Keeps (State.fwCutPort s p) := by
  unfold State.fwCutPort
  with_reducible repeat' (first
    | assumption | intro _ | apply State.fwCut_keeps | apply keeps_ite
    | split)

theorem State.fwImageClose_keeps {z s : State} (h : z.Keeps s) (m : List Byte) :
    Yields z.Keeps (State.fwImageClose s m) := by
  unfold State.fwImageClose
  with_reducible repeat' (first
    | assumption | apply State.fwStatus_keeps | split | apply yields_ok | apply yields_error | extract_lets
    | refine keeps_update ?_ rfl)

theorem execFwImageDownload_keeps {z s : State} (h : z.Keeps s) (src : Src) (image : List Byte) :
    ∃ u, execFwImageDownload src image s = .next u ∧ z.Keeps u := by
  refine ⟨_, rfl, ?_⟩
  with_reducible repeat' (first
    | assumption | apply State.refuse_keeps | apply State.fwImageClose_keeps | apply State.accept_keeps
    | apply State.logEv_keeps | apply keeps_ite | split | refine ok_self (by assumption) ?_
    | apply yields_error)

theorem State.activateEff_keeps {z s : State} (h : z.Keeps s) :
    Yields z.Keeps (State.activateEff s) := by
  unfold State.activateEff
  with_reducible repeat' (first
    | assumption | apply State.fwStatus_keeps | split | apply yields_ok | apply yields_error | extract_lets
    | refine keeps_update ?_ rfl)

theorem execFwActivate_keeps {z s : State} (h : z.Keeps s) (src : Src) :
    ∃ u, execFwActivate src s = .next u ∧ z.Keeps u := by
  refine ⟨_, rfl, ?_⟩
  with_reducible repeat' (first | assumption | intro _ | apply State.activateEff_keeps | apply State.guarded_keeps)

theorem State.svnEff_keeps {z s : State} (h : z.Keeps s) :
    Yields z.Keeps (State.svnEff s) := by
  unfold State.svnEff
  with_reducible repeat' (first
    | assumption | intro _ | apply State.fwStatus_keeps | apply State.put_keeps | apply State.logEv_keeps | apply keeps_iter
    | apply yields_ok | apply yields_error | apply yields_ite)

theorem execSvnCommit_keeps {z s : State} (h : z.Keeps s) (src : Src) :
    ∃ u, execSvnCommit src s = .next u ∧ z.Keeps u := by
  refine ⟨_, rfl, ?_⟩
  with_reducible repeat' (first | assumption | intro _ | apply State.svnEff_keeps | apply State.guarded_keeps)

theorem State.newNonce_keeps {z s : State} (h : z.Keeps s) :
    z.Keeps (State.newNonce s) := by
  unfold State.newNonce
  with_reducible repeat' (first
    | assumption | apply State.draw_keeps | apply State.put_keeps | split | refine eq_snd (by assumption) ?_ | extract_lets
    | dsimp +zetaDelta only | refine keeps_update ?_ rfl)

theorem State.debugKeySet_keeps {z s : State} (h : z.Keeps s) (h : List Byte) :
    Yields z.Keeps (State.debugKeySet s h) := by
  unfold State.debugKeySet
  with_reducible repeat' (first
    | assumption | split | apply yields_ok | apply yields_error | extract_lets | refine keeps_update ?_ rfl)

theorem execDebugKeyHashSet_keeps {z s : State} (h : z.Keeps s) (hash : List Byte) :
    ∃ u, execDebugKeyHashSet hash s = .next u ∧ z.Keeps u := by
  refine ⟨_, rfl, ?_⟩
  with_reducible repeat' (first
    | assumption | apply State.debugKeySet_keeps | apply State.refuse_keeps | apply State.accept_keeps | apply keeps_ite
    | split | refine ok_self (by assumption) ?_
    | apply yields_error)

theorem State.debugStop_keeps {z s : State} (h : z.Keeps s) :
    z.Keeps (State.debugStop s) := by
  unfold State.debugStop
  with_reducible repeat' (first
    | assumption | apply State.put_keeps | apply State.logEv_keeps | apply keeps_ite | extract_lets | dsimp +zetaDelta only
    | refine keeps_update ?_ rfl)

theorem State.debugTokenWrite_keeps {z s : State} (h : z.Keeps s) (t : List Byte) :
    z.Keeps (State.debugTokenWrite s t).1 := by
  unfold State.debugTokenWrite
  with_reducible repeat' (first
    | assumption | apply State.put_keeps | apply State.newNonce_keeps | apply State.logEv_keeps | split | extract_lets
    | dsimp +zetaDelta only | refine keeps_update ?_ rfl)

theorem execDebugToken_keeps {z s : State} (h : z.Keeps s) (token : List Byte) :
    ∃ u, execDebugToken token s = .next u ∧ z.Keeps u := by
  refine ⟨_, rfl, ?_⟩
  with_reducible repeat' (first
    | assumption | apply keeps_fst_ite | apply State.refuse_keeps | apply State.debugTokenWrite_keeps | apply State.accept_keeps | apply keeps_ite)

theorem execDebugEnd_keeps {z s : State} (h : z.Keeps s) (src : Src) :
    ∃ u, execDebugEnd src s = .next u ∧ z.Keeps u := by
  refine ⟨_, rfl, ?_⟩
  with_reducible repeat' (first
    | assumption | intro _ | apply State.debugStop_keeps | apply State.guarded_keeps | apply yields_ok)

theorem execDebugExpiry_keeps {z s : State} (h : z.Keeps s) :
    ∃ u, execDebugExpiry s = .next u ∧ z.Keeps u := by
  refine ⟨_, rfl, ?_⟩
  with_reducible repeat' (first
    | assumption | apply State.debugStop_keeps
    | apply keeps_ite)

end Sys2Proof.Machine
end

