-- ==== Sys2Proof/Laws/KeepsPower.lean ====
section
/-! SUPPORT. What the operations of Machine/Power.lean keep (State.Keeps). -/

namespace Sys2Proof.Machine

theorem State.applySaved_keeps {z s : State} (h : z.Keeps s) (k : Nat) :
    z.Keeps (State.applySaved s k) := by
  unfold State.applySaved
  with_reducible repeat' (first
    | assumption | apply State.putK_keeps | apply State.logEv_keeps | apply keeps_ite | split | extract_lets
    | refine keeps_update ?_ rfl)

theorem State.applySavedAll_keeps {z s : State} (h : z.Keeps s) (keep : Nat → Bool) :
    z.Keeps (State.applySavedAll s keep) := by
  unfold State.applySavedAll
  with_reducible repeat' (first
    | assumption | intro _ | apply State.applySaved_keeps | apply keeps_foldl)

theorem State.startEvents_keeps {z s : State} (h : z.Keeps s) :
    z.Keeps (State.startEvents s) := by
  unfold State.startEvents
  with_reducible repeat' (first
    | assumption | apply State.logHard_keeps | apply State.logEvery_keeps | apply State.logEv_keeps | apply keeps_ite | split | extract_lets
    | dsimp +zetaDelta only | refine keeps_update ?_ rfl)

theorem State.lighthouseStart_keeps {z s : State} (h : z.Keeps s) :
    z.Keeps (State.lighthouseStart s) := by
  unfold State.lighthouseStart
  with_reducible repeat' (first
    | assumption | apply State.startEvents_keeps | apply State.put_keeps | apply State.applySavedAll_keeps
    | apply State.bootSelect_keeps | apply State.newNonce_keeps | apply State.logEv_keeps | split | extract_lets | dsimp only
    | dsimp +zetaDelta only | refine keeps_update ?_ rfl)

theorem State.mgmtStart_keeps {z s : State} (h : z.Keeps s) :
    z.Keeps (State.mgmtStart s) := by
  unfold State.mgmtStart
  with_reducible repeat' (first
    | assumption | apply State.put_keeps | apply keeps_ite | extract_lets | refine keeps_update ?_ rfl)

theorem State.startBoot_keeps {z s : State} (h : z.Keeps s) (fromSleep : Bool) :
    z.Keeps (State.startBoot s fromSleep) := by
  unfold State.startBoot
  with_reducible repeat' (first
    | assumption | apply State.setPst_keeps | apply keeps_ite | extract_lets | dsimp only | dsimp +zetaDelta only
    | refine keeps_update ?_ rfl)

theorem State.wantStart_keeps {z s : State} (h : z.Keeps s) :
    z.Keeps (State.wantStart s) := by
  unfold State.wantStart
  with_reducible repeat' (first
    | assumption | apply State.startBoot_keeps | apply keeps_ite | refine keeps_update ?_ rfl)

theorem State.cmdStart_keeps {z s : State} (h : z.Keeps s) (src : Src) :
    Yields z.Keeps (State.cmdStart s src) := by
  unfold State.cmdStart
  with_reducible repeat' (first
    | assumption | apply State.wantStart_keeps | apply State.startBoot_keeps | split | apply yields_ok | apply yields_error | extract_lets
    | dsimp +zetaDelta only | refine keeps_update ?_ rfl)

theorem State.cmdNap_keeps {z s : State} (h : z.Keeps s) :
    Yields z.Keeps (State.cmdNap s) := by
  unfold State.cmdNap
  with_reducible repeat' (first
    | assumption | split | apply yields_ok | apply yields_error | extract_lets | dsimp +zetaDelta only
    | refine keeps_update ?_ rfl)

theorem State.cmdWake_keeps {z s : State} (h : z.Keeps s) :
    Yields z.Keeps (State.cmdWake s) := by
  unfold State.cmdWake
  with_reducible repeat' (first
    | assumption | apply State.startBoot_keeps | apply State.napWake_keeps | split | apply yields_ok | apply yields_error
    | extract_lets | dsimp +zetaDelta only | refine keeps_update ?_ rfl)

theorem State.saveAgeing_keeps {z s : State} (h : z.Keeps s) :
    z.Keeps (State.saveAgeing s) := by
  unfold State.saveAgeing
  with_reducible repeat' (first
    | assumption | extract_lets | dsimp +zetaDelta only | refine keeps_update ?_ rfl)

theorem State.enterSleep_keeps {z s : State} (h : z.Keeps s) :
    z.Keeps (State.enterSleep s) := by
  unfold State.enterSleep
  with_reducible repeat' (first
    | assumption | apply State.windowsDown_keeps | apply State.linkDown_keeps | apply State.setPst_keeps
    | apply State.dropHarbourmaster_keeps | apply State.sweepTransfers_keeps | apply State.saveAgeing_keeps | extract_lets
    | dsimp +zetaDelta only | refine keeps_update ?_ rfl)

theorem State.cmdSleep_keeps {z s : State} (h : z.Keeps s) :
    Yields z.Keeps (State.cmdSleep s) := by
  unfold State.cmdSleep
  with_reducible repeat' (first
    | assumption | apply State.enterSleep_keeps | split | apply yields_ok | apply yields_error | extract_lets
    | dsimp +zetaDelta only | refine keeps_update ?_ rfl)

theorem State.heldSleep_keeps {z s : State} (h : z.Keeps s) :
    z.Keeps (State.heldSleep s) := by
  unfold State.heldSleep
  with_reducible repeat' (first
    | assumption | apply State.enterSleep_keeps | apply keeps_ite)

theorem State.powerCommand_keeps {z s : State} (h : z.Keeps s) (src : Src) (v : Nat) (eff : State → Except Nat State) (heff : ∀ u, z.Keeps u → Yields z.Keeps (eff u)) :
    z.Keeps (State.powerCommand s src v eff) := by
  unfold State.powerCommand
  with_reducible repeat' (first
    | assumption | intro _ | apply State.guarded_keeps)

theorem execPowerStart_keeps {z s : State} (h : z.Keeps s) (src : Src) :
    ∃ u, execPowerStart src s = .next u ∧ z.Keeps u := by
  refine ⟨_, rfl, ?_⟩
  with_reducible repeat' (first
    | assumption | intro _ | apply State.powerCommand_keeps | apply State.cmdStart_keeps)

theorem execPowerNap_keeps {z s : State} (h : z.Keeps s) (src : Src) :
    ∃ u, execPowerNap src s = .next u ∧ z.Keeps u := by
  refine ⟨_, rfl, ?_⟩
  with_reducible repeat' (first
    | assumption | intro _ | apply State.powerCommand_keeps | apply State.cmdNap_keeps)

theorem execPowerWake_keeps {z s : State} (h : z.Keeps s) (src : Src) :
    ∃ u, execPowerWake src s = .next u ∧ z.Keeps u := by
  refine ⟨_, rfl, ?_⟩
  with_reducible repeat' (first
    | assumption | intro _ | apply State.powerCommand_keeps | apply State.cmdWake_keeps)

theorem execPowerSleep_keeps {z s : State} (h : z.Keeps s) (src : Src) :
    ∃ u, execPowerSleep src s = .next u ∧ z.Keeps u := by
  refine ⟨_, rfl, ?_⟩
  with_reducible repeat' (first
    | assumption | intro _ | apply State.powerCommand_keeps | apply State.cmdSleep_keeps)

theorem execInputUndervoltage_keeps {z s : State} (h : z.Keeps s) :
    ∃ u, execInputUndervoltage s = .next u ∧ z.Keeps u := by
  refine ⟨_, rfl, ?_⟩
  with_reducible repeat' (first
    | assumption | apply State.logHard_keeps | apply State.fallTo_keeps | apply State.logEv_keeps | apply keeps_ite)

theorem State.goDark_keeps {z s : State} (h : z.Keeps s) (ov : Bool) :
    z.Keeps (State.goDark s ov) := by
  unfold State.goDark
  with_reducible repeat' (first
    | assumption | extract_lets | dsimp +zetaDelta only | refine keeps_update ?_ rfl)

theorem State.tearLog_keeps {z s : State} (h : z.Keeps s) :
    z.Keeps (State.tearLog s) := by
  unfold State.tearLog
  with_reducible repeat' (first
    | assumption | intro _ | apply State.draw_keeps | apply keeps_ite
    | apply keeps_foldl | apply keeps_iter | split | refine ok_self (by assumption) ?_
    | refine ok_snd (by assumption) ?_ | refine ok_fst (by assumption) ?_ | refine eq_snd (by assumption) ?_ | refine eq_fst (by assumption) ?_
    | extract_lets | dsimp +zetaDelta only | refine keeps_update ?_ rfl)

theorem execInputOvervoltage_keeps {z s : State} (h : z.Keeps s) :
    ∃ u, execInputOvervoltage s = .next u ∧ z.Keeps u := by
  refine ⟨_, rfl, ?_⟩
  with_reducible repeat' (first
    | assumption | apply State.tearLog_keeps | apply State.fallTo_keeps | apply State.goDark_keeps)

theorem State.freshLighthouse_keeps {z s : State} (h : z.Keeps s) (trip : List Nat) :
    z.Keeps (State.freshLighthouse s trip) := by
  unfold State.freshLighthouse
  with_reducible repeat' (first
    | assumption | extract_lets | dsimp +zetaDelta only | refine keeps_update ?_ rfl)

theorem execPowerOn_keeps {z s : State} (h : z.Keeps s) (g : s.power.pst = .off → z.Keeps s.resumed) :
    ∃ u, execPowerOn s = .next u ∧ z.Keeps u := by
  refine ⟨_, rfl, ?_⟩
  by_cases off : s.power.pst = .off
  swap
  · rw [if_pos off]; exact h
  rw [if_neg (not_not.mpr off)]
  replace h := g off
  with_reducible repeat' (first
    | assumption | apply State.wantStart_keeps | apply State.mgmtStart_keeps | apply State.volatileDefaults_keeps
    | apply State.setPst_keeps | apply State.put_keeps | apply State.freshLighthouse_keeps | apply State.lighthouseStart_keeps
    | apply keeps_ite)

theorem execClampCheck_keeps {z s : State} (h : z.Keeps s) (neMv : Nat) (swMv : Nat) :
    ∃ u, execClampCheck neMv swMv s = .next u ∧ z.Keeps u := by
  refine ⟨_, rfl, ?_⟩
  with_reducible repeat' (first
    | assumption | apply State.startBoot_keeps | apply State.setPst_keeps | apply State.logEv_keeps | apply keeps_ite | extract_lets | dsimp +zetaDelta only
    | refine keeps_update ?_ rfl)

theorem execConverterFailure_keeps {z s : State} (h : z.Keeps s) (n : Fin 24) :
    ∃ u, execConverterFailure n s = .next u ∧ z.Keeps u := by
  refine ⟨_, rfl, ?_⟩
  with_reducible repeat' (first
    | assumption | apply State.put_keeps | apply State.logEv_keeps | apply keeps_ite)

theorem execRegulatorFault_keeps {z s : State} (h : z.Keeps s) :
    ∃ u, execRegulatorFault s = .next u ∧ z.Keeps u := by
  refine ⟨_, rfl, ?_⟩
  with_reducible repeat' (first
    | assumption | apply State.logHard_keeps | apply State.fallTo_keeps | apply State.logEv_keeps | apply keeps_ite)

theorem State.holdReset_keeps {z s : State} (h : z.Keeps s) :
    z.Keeps (State.holdReset s) := by
  unfold State.holdReset
  with_reducible repeat' (first
    | assumption | extract_lets | dsimp +zetaDelta only | refine keeps_update ?_ rfl)

theorem execPkgResetAssert_keeps {z s : State} (h : z.Keeps s) :
    ∃ u, execPkgResetAssert s = .next u ∧ z.Keeps u := by
  refine ⟨_, rfl, ?_⟩
  with_reducible repeat' (first
    | assumption | apply State.volatileDefaults_keeps | apply State.holdReset_keeps | apply State.fallTo_keeps
    | apply State.put_keeps | apply State.freshLighthouse_keeps | apply keeps_ite | extract_lets | dsimp +zetaDelta only
    | refine keeps_update ?_ rfl)

theorem execPkgResetRelease_keeps {z s : State} (h : z.Keeps s) :
    ∃ u, execPkgResetRelease s = .next u ∧ z.Keeps u := by
  refine ⟨_, rfl, ?_⟩
  with_reducible repeat' (first
    | assumption | apply State.wantStart_keeps | apply State.mgmtStart_keeps | apply State.startBoot_keeps | apply State.lighthouseStart_keeps
    | apply keeps_ite | extract_lets | dsimp +zetaDelta only | refine keeps_update ?_ rfl)

theorem execPowerLoss_keeps {z s : State} (h : z.Keeps s) :
    ∃ u, execPowerLoss s = .next u ∧ z.Keeps u := by
  refine ⟨_, rfl, ?_⟩
  with_reducible repeat' (first
    | assumption | apply State.tearLog_keeps | apply State.fallTo_keeps | apply State.goDark_keeps | apply keeps_ite)

theorem execInputDroop_keeps {z s : State} (h : z.Keeps s) :
    ∃ u, execInputDroop s = .next u ∧ z.Keeps u := by
  refine ⟨_, rfl, ?_⟩
  with_reducible repeat' (first
    | assumption | intro _ | apply State.put_keeps | apply State.logEv_keeps | apply keeps_ite | apply keeps_iter
    | extract_lets | dsimp +zetaDelta only | refine keeps_update ?_ rfl)

theorem execDroopRecovery_keeps {z s : State} (h : z.Keeps s) :
    ∃ u, execDroopRecovery s = .next u ∧ z.Keeps u := by
  refine ⟨_, rfl, ?_⟩
  with_reducible repeat' (first
    | assumption | apply keeps_ite | extract_lets | dsimp +zetaDelta only | refine keeps_update ?_ rfl)

theorem execManagementReferenceLoss_keeps {z s : State} (h : z.Keeps s) :
    ∃ u, execManagementReferenceLoss s = .next u ∧ z.Keeps u := by
  refine ⟨_, rfl, ?_⟩
  with_reducible repeat' (first
    | assumption | apply State.logEvery_keeps | apply keeps_ite | extract_lets | dsimp +zetaDelta only
    | refine keeps_update ?_ rfl)

theorem execManagementReferenceReturn_keeps {z s : State} (h : z.Keeps s) :
    ∃ u, execManagementReferenceReturn s = .next u ∧ z.Keeps u := by
  refine ⟨_, rfl, ?_⟩
  with_reducible repeat' (first
    | assumption | apply State.mgmtStart_keeps | apply keeps_ite | extract_lets | dsimp +zetaDelta only
    | refine keeps_update ?_ rfl)

theorem State.bootFail_keeps {z s : State} (h : z.Keeps s) (code : Nat) :
    z.Keeps (State.bootFail s code) := by
  unfold State.bootFail
  with_reducible repeat' (first
    | assumption | apply State.logHard_keeps | apply State.fallTo_keeps)

theorem execFirmwareVerifyDone_keeps {z s : State} (h : z.Keeps s) (pass : Bool) :
    ∃ u, execFirmwareVerifyDone pass s = .next u ∧ z.Keeps u := by
  refine ⟨_, rfl, ?_⟩
  with_reducible repeat' (first
    | assumption | apply State.fallTo_keeps | apply State.bootSelect_keeps | apply keeps_ite | extract_lets
    | dsimp +zetaDelta only | refine keeps_update ?_ rfl)

theorem State.portTrains_keeps {z s : State} (h : z.Keeps s) (p : Nat) :
    z.Keeps (State.portTrains s p) := by
  unfold State.portTrains
  with_reducible repeat' (first
    | assumption | apply State.put_keeps | apply keeps_ite)

theorem execStartupRegulatorsUp_keeps {z s : State} (h : z.Keeps s) :
    ∃ u, execStartupRegulatorsUp s = .next u ∧ z.Keeps u := by
  refine ⟨_, rfl, ?_⟩
  with_reducible repeat' (first
    | assumption | apply State.portTrains_keeps | apply keeps_ite | extract_lets | dsimp +zetaDelta only
    | refine keeps_update ?_ rfl)

theorem execHarbourmasterStart_keeps {z s : State} (h : z.Keeps s) :
    ∃ u, execHarbourmasterStart s = .next u ∧ z.Keeps u := by
  refine ⟨_, rfl, ?_⟩
  with_reducible repeat' (first
    | assumption | apply State.put_keeps | apply State.applySavedAll_keeps | apply keeps_ite | split | extract_lets
    | dsimp only | dsimp +zetaDelta only | refine keeps_update ?_ rfl)

theorem execHarbourmasterStartTimeout_keeps {z s : State} (h : z.Keeps s) :
    ∃ u, execHarbourmasterStartTimeout s = .next u ∧ z.Keeps u := by
  refine ⟨_, rfl, ?_⟩
  with_reducible repeat' (first
    | assumption | apply State.bootFail_keeps | apply keeps_ite)

theorem execDramTrainingTimeout_keeps {z s : State} (h : z.Keeps s) :
    ∃ u, execDramTrainingTimeout s = .next u ∧ z.Keeps u := by
  refine ⟨_, rfl, ?_⟩
  with_reducible repeat' (first
    | assumption | apply State.bootFail_keeps | apply keeps_ite)

theorem State.becomeReady_keeps {z s : State} (h : z.Keeps s) :
    z.Keeps (State.becomeReady s) := by
  unfold State.becomeReady
  with_reducible repeat' (first
    | assumption | apply State.setPst_keeps | apply State.put_keeps | apply State.applySavedAll_keeps | extract_lets
    | dsimp +zetaDelta only | refine keeps_update ?_ rfl)

end Sys2Proof.Machine
end

