-- ==== Sys2Proof/Laws/KeepsHost.lean ====
section
/-! SUPPORT. What the operations of Machine/Host.lean keep (State.Keeps). -/

namespace Sys2Proof.Machine

theorem execHlPerstRelease_keeps {z s : State} (h : z.Keeps s) (port : HostPort) :
    ∃ u, execHlPerstRelease port s = .next u ∧ z.Keeps u := by
  refine ⟨_, rfl, ?_⟩
  with_reducible repeat' (first | assumption | apply State.setHl_keeps | apply State.portTrains_keeps)

theorem execCxlLinkUp_keeps {z s : State} (h : z.Keeps s) (port : HostPort) (rate : Nat) (width : Nat) :
    ∃ u, execCxlLinkUp port rate width s = .next u ∧ z.Keeps u := by
  refine ⟨_, rfl, ?_⟩
  with_reducible repeat' (first | assumption | apply State.setHl_keeps | apply State.put_keeps | apply keeps_ite)

theorem execWakeNTimeout_keeps {z s : State} (h : z.Keeps s) (port : HostPort) :
    ∃ u, execWakeNTimeout port s = .next u ∧ z.Keeps u := by
  refine ⟨_, rfl, ?_⟩
  with_reducible repeat' (first | assumption | apply State.setHl_keeps)

theorem State.msixFlush_keeps {z s : State} (h : z.Keeps s) (p : Nat) (v : Nat) :
    z.Keeps (State.msixFlush s p v) := by
  unfold State.msixFlush
  with_reducible repeat' (first | assumption | apply State.setHl_keeps | apply State.msix_keeps | apply keeps_ite)

theorem State.cfgServe_keeps {z s : State} (h : z.Keeps s) (p : Nat) (req : CfgReq) :
    z.Keeps (State.cfgServe s p req) := by
  unfold State.cfgServe
  with_reducible repeat' (first
    | assumption | intro _ | apply State.setHl_keeps | apply State.msixFlush_keeps | apply State.emit_keeps | apply keeps_ite
    | apply keeps_iter | split)

theorem execCxlConfigRequest_keeps {z s : State} (h : z.Keeps s) (port : HostPort) (req : CfgReq) :
    ∃ u, execCxlConfigRequest port req s = .next u ∧ z.Keeps u := by
  refine ⟨_, rfl, ?_⟩
  with_reducible repeat' (first | assumption | apply State.cfgServe_keeps | apply State.emit_keeps | apply keeps_ite)

theorem State.hdmServe_keeps {z s : State} (h : z.Keeps s) (p : Nat) (line : Nat) (op : HdmOp) :
    z.Keeps (State.hdmServe s p line op) := by
  unfold State.hdmServe
  with_reducible repeat' (first
    | assumption | apply State.setHl_keeps | apply State.writeAt_keeps | apply State.emit_keeps | split)

theorem State.sendSnoops_keeps {z s : State} (h : z.Keeps s) (ls : List (Nat × Nat)) :
    z.Keeps (State.sendSnoops s ls) := by
  unfold State.sendSnoops
  with_reducible repeat' (first | assumption | intro _ | apply State.count_keeps | apply State.emit_keeps | apply keeps_foldl)

theorem State.hdmQueue_keeps {z s : State} (h : z.Keeps s) (p : Nat) (line : Nat) (op : HdmOp) (lines : List (Nat × Nat)) :
    z.Keeps (State.hdmQueue s p line op lines) := by
  unfold State.hdmQueue
  with_reducible repeat' (first | assumption | apply State.setHl_keeps)

theorem execHdmAccess_keeps {z s : State} (h : z.Keeps s) (port : HostPort) (pa : Nat) (op : HdmOp) :
    ∃ u, execHdmAccess port pa op s = .next u ∧ z.Keeps u := by
  refine ⟨_, rfl, ?_⟩
  with_reducible repeat' (first
    | assumption | apply State.hdmQueue_keeps | apply State.sendSnoops_keeps | apply State.hdmServe_keeps | apply keeps_ite)

theorem State.hdmWake_keeps {z s : State} (h : z.Keeps s) (p : Nat) (x2 : Nat) :
    z.Keeps (State.hdmWake s p x2) := by
  induction x2 generalizing s with
  | zero =>
  unfold State.hdmWake
  with_reducible repeat' (first | assumption)
  | succ m ih =>
  unfold State.hdmWake
  with_reducible repeat' (first
    | assumption | apply State.setHl_keeps | apply State.sendSnoops_keeps | apply State.hdmServe_keeps | apply ih | apply keeps_ite
    | split)

theorem State.hdmWakeAll_keeps {z s : State} (h : z.Keeps s) : z.Keeps (State.hdmWakeAll s) := by
  unfold State.hdmWakeAll
  with_reducible repeat' (first | assumption | intro _ | apply State.hdmWake_keeps | apply keeps_iter)

theorem execBiSnoopResponse_keeps {z s : State} (h : z.Keeps s) (port : HostPort) (line : Nat) (data : Option (List Byte)) :
    ∃ u, execBiSnoopResponse port line data s = .next u ∧ z.Keeps u := by
  refine ⟨_, rfl, ?_⟩
  with_reducible repeat' (first
    | assumption | apply State.setHl_keeps | apply State.hdmWakeAll_keeps | apply State.writeAt_keeps | split
    | extract_lets | dsimp only | dsimp +zetaDelta only | refine keeps_update ?_ rfl)

theorem execHlPerstAssert_keeps {z s : State} (h : z.Keeps s) (port : HostPort) :
    ∃ u, execHlPerstAssert port s = .next u ∧ z.Keeps u := by
  refine ⟨_, rfl, ?_⟩
  with_reducible repeat' (first
    | assumption | apply State.fwCutPort_keeps | intro _ | apply State.hdmWakeAll_keeps | apply State.linkDown_keeps | apply State.setHl_keeps | apply keeps_iter
    | extract_lets | refine keeps_update ?_ rfl)

theorem execCxlLinkDown_keeps {z s : State} (h : z.Keeps s) (port : HostPort) :
    ∃ u, execCxlLinkDown port s = .next u ∧ z.Keeps u := by
  refine ⟨_, rfl, ?_⟩
  with_reducible repeat' (first
    | assumption | apply State.hdmWakeAll_keeps | apply State.linkDown_keeps | apply State.portTrains_keeps | apply keeps_ite)

theorem execNoticeWriteDone_keeps {z s : State} (h : z.Keeps s) :
    ∃ u, execNoticeWriteDone s = .next u ∧ z.Keeps u := by
  refine ⟨_, rfl, ?_⟩
  with_reducible repeat' (first
    | assumption | apply State.msix_keeps | apply keeps_ite | extract_lets | dsimp only | dsimp +zetaDelta only
    | refine keeps_update ?_ rfl)

theorem State.consumerEff_keeps {z s : State} (h : z.Keeps s) (v : Nat) :
    Yields z.Keeps (State.consumerEff s v) := by
  unfold State.consumerEff
  with_reducible repeat' (first
    | assumption | apply State.put_keeps | apply yields_ok | apply yields_error | apply yields_ite | extract_lets
    | dsimp +zetaDelta only | refine keeps_update ?_ rfl)

theorem execNoticeConsumerWrite_keeps {z s : State} (h : z.Keeps s) (port : HostPort) (value : Nat) :
    ∃ u, execNoticeConsumerWrite port value s = .next u ∧ z.Keeps u := by
  refine ⟨_, rfl, ?_⟩
  with_reducible repeat' (first | assumption | intro _ | apply State.guarded_keeps | apply State.consumerEff_keeps)

theorem State.ringApply_keeps {z s : State} (h : z.Keeps s) (v : Nat) :
    z.Keeps (State.ringApply s v) := by
  unfold State.ringApply
  with_reducible repeat' (first
    | assumption | apply State.put_keeps | apply State.applyStaged_keeps | apply keeps_ite | extract_lets
    | dsimp +zetaDelta only | refine keeps_update ?_ rfl)

theorem execRingEnable_keeps {z s : State} (h : z.Keeps s) (port : HostPort) :
    ∃ u, execRingEnable port s = .next u ∧ z.Keeps u := by
  refine ⟨_, rfl, ?_⟩
  with_reducible repeat' (first
    | assumption | intro _ | apply State.ringApply_keeps | apply State.guarded_keeps | apply yields_ok)

theorem execRingDisable_keeps {z s : State} (h : z.Keeps s) (port : HostPort) :
    ∃ u, execRingDisable port s = .next u ∧ z.Keeps u := by
  refine ⟨_, rfl, ?_⟩
  with_reducible repeat' (first
    | assumption | intro _ | apply State.ringApply_keeps | apply State.guarded_keeps | apply yields_ok)

theorem State.notice16_keeps {z s : State} (h : z.Keeps s) (img : List Byte) :
    z.Keeps (State.notice16 s img) := by
  unfold State.notice16
  with_reducible repeat' (first
    | assumption | apply State.writeAt_keeps | apply State.put_keeps | apply State.count_keeps | apply keeps_ite | split
    | extract_lets | dsimp +zetaDelta only | refine keeps_update ?_ rfl)

theorem execDoeDiscovery_keeps {z s : State} (h : z.Keeps s) (port : HostPort) (index : Nat) :
    ∃ u, execDoeDiscovery port index s = .next u ∧ z.Keeps u := by
  refine ⟨_, rfl, ?_⟩
  with_reducible repeat' (first | assumption | apply State.emit_keeps | apply keeps_ite)

theorem execDoeTableAccess_keeps {z s : State} (h : z.Keeps s) (port : HostPort) (entry : Nat) :
    ∃ u, execDoeTableAccess port entry s = .next u ∧ z.Keeps u := by
  refine ⟨_, rfl, ?_⟩
  with_reducible repeat' (first | assumption | apply State.emit_keeps | apply keeps_ite)

end Sys2Proof.Machine
end

