-- ==== Sys2Proof/Laws/KeepsLighthouse.lean ====
section
/-! SUPPORT. What the operations of Machine/Lighthouse.lean keep (State.Keeps). -/

namespace Sys2Proof.Machine

theorem State.setConv_keeps {z s : State} (h : z.Keeps s) (conv : Nat) (c : Conv) :
    z.Keeps (State.setConv s conv c) := by
  unfold State.setConv
  with_reducible repeat' (first
    | assumption | apply keeps_ite | extract_lets | dsimp +zetaDelta only | refine keeps_update ?_ rfl)

theorem State.startRound_keeps {z s : State} (h : z.Keeps s) :
    z.Keeps (State.startRound s) := by
  unfold State.startRound
  with_reducible repeat' (first | assumption | split | extract_lets | dsimp +zetaDelta only | refine keeps_update ?_ rfl)

theorem execSequencerRound_keeps {z s : State} (h : z.Keeps s) :
    ∃ u, execSequencerRound s = .next u ∧ z.Keeps u := by
  refine ⟨_, rfl, ?_⟩
  with_reducible repeat' (first | assumption | apply State.startRound_keeps | apply keeps_ite)

theorem State.applyFilter_keeps {z s : State} (h : z.Keeps s) (c : Nat) (x : Int) :
    z.Keeps (State.applyFilter s c x) := by
  unfold State.applyFilter
  with_reducible repeat' (first | assumption | extract_lets | dsimp +zetaDelta only | refine keeps_update ?_ rfl)

theorem State.disableConv_keeps {z s : State} (h : z.Keeps s) (conv : Nat) :
    z.Keeps (State.disableConv s conv) := by
  unfold State.disableConv
  with_reducible repeat' (first | assumption | apply State.put_keeps | apply State.setConv_keeps)

theorem State.judgePlaus_keeps {z s : State} (h : z.Keeps s) (c0 : Int) (c1 : Int) :
    z.Keeps (State.judgePlaus s c0 c1) := by
  unfold State.judgePlaus
  with_reducible repeat' (first
    | assumption | apply State.disableConv_keeps | apply State.put_keeps | apply State.logEv_keeps | apply keeps_ite
    | extract_lets | dsimp only | dsimp +zetaDelta only | refine keeps_update ?_ rfl)

theorem State.landResult_keeps {z s : State} (h : z.Keeps s) (conv : Nat) (ch : Nat) (code : Int) :
    z.Keeps (State.landResult s conv ch code) := by
  unfold State.landResult
  with_reducible repeat' (first
    | assumption | apply State.logHard_keeps | apply State.countHard_keeps | apply State.disableConv_keeps | apply State.put_keeps | apply State.logEvery_keeps
    | apply State.count_keeps | apply State.applyFilter_keeps | apply State.logEv_keeps | apply keeps_ite | extract_lets
    | dsimp +zetaDelta only | refine keeps_update ?_ rfl)

theorem State.ruleWake_keeps {z s : State} (h : z.Keeps s) :
    z.Keeps (State.ruleWake s) := by
  unfold State.ruleWake
  with_reducible repeat' (first
    | assumption | apply State.setHl_keeps | apply State.startBoot_keeps | apply State.napWake_keeps | apply keeps_ite)

theorem State.ruleShutdown_keeps {z s : State} (h : z.Keeps s) (r : Nat) :
    z.Keeps (State.ruleShutdown s r) := by
  unfold State.ruleShutdown
  with_reducible repeat' (first
    | assumption | apply State.logHard_keeps | apply State.fallTo_keeps | apply State.logEv_keeps | apply keeps_ite | split | extract_lets
    | dsimp +zetaDelta only | refine keeps_update ?_ rfl)

theorem State.ruleAct_keeps {z s : State} (h : z.Keeps s) (shutting : Bool) (r : Nat) :
    z.Keeps (State.ruleAct s shutting r) := by
  unfold State.ruleAct
  with_reducible repeat' (first
    | assumption | apply State.ruleWake_keeps | apply State.ruleShutdown_keeps | apply State.logEv_keeps | split
    | extract_lets)

theorem State.evalRules_keeps {z s : State} (h : z.Keeps s) :
    z.Keeps (State.evalRules s) := by
  unfold State.evalRules
  with_reducible repeat' (first
    | assumption | intro _ | apply State.ruleAct_keeps | apply keeps_foldl | extract_lets | dsimp +zetaDelta only
    | refine keeps_update ?_ rfl)

theorem State.endRound_keeps {z s : State} (h : z.Keeps s) :
    z.Keeps (State.endRound s) := by
  unfold State.endRound
  with_reducible repeat' (first
    | assumption | apply State.evalRules_keeps | apply keeps_ite | extract_lets | dsimp +zetaDelta only
    | refine keeps_update ?_ rfl)

theorem State.plausTake_keeps {z s : State} (h : z.Keeps s) (conv : Nat) (ch : Nat) (code : Int) :
    z.Keeps (State.plausTake s conv ch code) := by
  unfold State.plausTake
  with_reducible repeat' (first
    | assumption | apply State.judgePlaus_keeps | apply keeps_ite | split | extract_lets | dsimp +zetaDelta only
    | refine keeps_update ?_ rfl)

theorem State.conversion_keeps {z s : State} (h : z.Keeps s) (conv : Nat) (code : Int) :
    z.Keeps (State.conversion s conv code) := by
  unfold State.conversion
  with_reducible repeat' (first
    | assumption | apply State.plausTake_keeps | apply State.endRound_keeps | apply State.landResult_keeps
    | apply State.setConv_keeps | split)

theorem execAdcDataRead_keeps {z s : State} (h : z.Keeps s) (src : Src) (conv : Fin 2) :
    ∃ u, execAdcDataRead src conv s = .next u ∧ z.Keeps u := by
  refine ⟨_, rfl, ?_⟩
  with_reducible repeat' (first
    | assumption | apply State.refuse_keeps | apply State.put_keeps | apply State.emit_keeps | apply keeps_ite | split)

theorem State.filterEff_keeps {z s : State} (h : z.Keeps s) (ch : Nat) (member : Nat) (v : Nat) :
    z.Keeps (State.filterEff s ch member v) := by
  unfold State.filterEff
  with_reducible repeat' (first
    | assumption | apply State.put_keeps | apply keeps_ite | extract_lets | dsimp +zetaDelta only | refine keeps_update ?_ rfl)

theorem execFilterWrite_keeps {z s : State} (h : z.Keeps s) (src : Src) (ch : Fin 64) (member : Nat) (value : Nat) :
    ∃ u, execFilterWrite src ch member value s = .next u ∧ z.Keeps u := by
  refine ⟨_, rfl, ?_⟩
  with_reducible repeat' (first
    | assumption | intro _ | apply State.filterEff_keeps | apply State.guarded_keeps | apply yields_ok)

theorem State.ruleEff_keeps {z s : State} (h : z.Keeps s) (r : Nat) (v : Nat) :
    z.Keeps (State.ruleEff s r v) := by
  unfold State.ruleEff
  with_reducible repeat' (first
    | assumption | apply State.put_keeps | extract_lets | dsimp +zetaDelta only | refine keeps_update ?_ rfl)

theorem execRuleWrite_keeps {z s : State} (h : z.Keeps s) (src : Src) (rule : Fin 64) (value : Nat) :
    ∃ u, execRuleWrite src rule value s = .next u ∧ z.Keeps u := by
  refine ⟨_, rfl, ?_⟩
  with_reducible repeat' (first
    | assumption | intro _ | apply State.guarded_keeps | apply State.ruleEff_keeps | apply yields_ok)

theorem execOscRecalibration_keeps {z s : State} (h : z.Keeps s) :
    ∃ u, execOscRecalibration s = .next u ∧ z.Keeps u := by
  refine ⟨_, rfl, ?_⟩
  with_reducible repeat' (first
    | assumption | apply keeps_ite | extract_lets | dsimp +zetaDelta only | refine keeps_update ?_ rfl)

theorem State.riskDecay_keeps {z s : State} (h : z.Keeps s) :
    z.Keeps (State.riskDecay s) := by
  unfold State.riskDecay
  with_reducible repeat' (first | assumption | extract_lets | dsimp +zetaDelta only | refine keeps_update ?_ rfl)

theorem State.riskAddE_keeps {z s : State} (h : z.Keeps s) (w : Nat) :
    z.Keeps (State.riskAddE s w) := by
  unfold State.riskAddE
  with_reducible repeat' (first
    | assumption | apply State.riskDecay_keeps | extract_lets | dsimp +zetaDelta only | refine keeps_update ?_ rfl)

theorem State.riskAddK_keeps {z s : State} (h : z.Keeps s) (w : Nat) :
    z.Keeps (State.riskAddK s w) := by
  unfold State.riskAddK
  with_reducible repeat' (first
    | assumption | apply State.riskDecay_keeps | extract_lets | dsimp +zetaDelta only | refine keeps_update ?_ rfl)

theorem State.riskCompute_keeps {z s : State} (h : z.Keeps s) :
    z.Keeps (State.riskCompute s) := by
  unfold State.riskCompute
  with_reducible repeat' (first | assumption | apply State.riskDecay_keeps | apply State.put_keeps)

end Sys2Proof.Machine
end

