-- ==== Sys2Proof/Laws/KeepsEngine.lean ====
section
/-! SUPPORT. What the operations of Machine/Engine.lean keep (State.Keeps). -/

namespace Sys2Proof.Machine

theorem State.setTile_keeps {z s : State} (h : z.Keeps s) (t : Nat) (x : Tile) :
    z.Keeps (State.setTile s t x) := by
  unfold State.setTile
  with_reducible repeat' (first | assumption | refine keeps_update ?_ rfl)

theorem State.setBerth_keeps {z s : State} (h : z.Keeps s) (b : Nat) (x : Berth) :
    z.Keeps (State.setBerth s b x) := by
  unfold State.setBerth
  with_reducible repeat' (first | assumption | refine keeps_update ?_ rfl)

theorem State.setCtx_keeps {z s : State} (h : z.Keeps s) (c : Nat) (x : CtxSt) :
    z.Keeps (State.setCtx s c x) := by
  unfold State.setCtx
  with_reducible repeat' (first | assumption | refine keeps_update ?_ rfl)

theorem State.setBollard_keeps {z s : State} (h : z.Keeps s) (b : Nat) (x : Bollard) :
    z.Keeps (State.setBollard s b x) := by
  unfold State.setBollard
  with_reducible repeat' (first | assumption | refine keeps_update ?_ rfl)

theorem State.setLayer_keeps {z s : State} (h : z.Keeps s) (i : Nat) (x : LayerSt) :
    z.Keeps (State.setLayer s i x) := by
  unfold State.setLayer
  with_reducible repeat' (first | assumption | refine keeps_update ?_ rfl)

theorem State.setDock_keeps {z s : State} (h : z.Keeps s) (d : Nat) (x : Dock) :
    z.Keeps (State.setDock s d x) := by
  unfold State.setDock
  with_reducible repeat' (first
    | assumption | intro _ | refine keeps_update ?_ rfl)

theorem State.openPass_keeps {z s : State} (h : z.Keeps s) (k : Task) (d : Nat) :
    z.Keeps (State.openPass s k d) := by
  unfold State.openPass
  with_reducible repeat' (first
    | assumption | intro _ | apply State.setDock_keeps | apply keeps_ite)

theorem State.refitStruck_keeps {z s : State} (h : z.Keeps s) (t : Nat) (k : Task) :
    z.Keeps (State.refitStruck s t k) := by
  unfold State.refitStruck
  with_reducible repeat' (first
    | assumption | intro _ | apply State.openPass_keeps | apply State.setDock_keeps
    | apply keeps_ite)

theorem State.recordFault_keeps {z s : State} (h : z.Keeps s) (c : Nat) (code : Nat) (f : FaultAt) :
    z.Keeps (State.recordFault s c code f) := by
  unfold State.recordFault
  with_reducible repeat' (first | assumption | apply State.put_keeps | apply State.count_keeps | apply keeps_ite)

theorem State.abandonCopy_keeps {z s : State} (h : z.Keeps s) :
    z.Keeps (State.abandonCopy s) := by
  unfold State.abandonCopy
  with_reducible repeat' (first
    | assumption | apply State.put_keeps | apply State.count_keeps | apply State.logEv_keeps | apply keeps_ite | split
    | extract_lets | dsimp +zetaDelta only | refine keeps_update ?_ rfl)

theorem State.jobFault_keeps {z s : State} (h : z.Keeps s) (c : Nat) (code : Nat) (kind : Nat) (id : Nat) (f : FaultAt) (detail : List Byte) :
    z.Keeps (State.jobFault s c code kind id f detail) := by
  unfold State.jobFault
  with_reducible repeat' (first
    | assumption | apply State.recordFault_keeps | apply State.abandonCopy_keeps | apply State.put_keeps
    | apply State.count_keeps | apply State.logEv_keeps | apply keeps_ite)

theorem State.transFault_keeps {z s : State} (h : z.Keeps s) (c : Nat) (code : Nat) (f : FaultAt) :
    z.Keeps (State.transFault s c code f) := by
  unfold State.transFault
  with_reducible repeat' (first
    | assumption | apply State.put_keeps | apply State.jobFault_keeps | apply State.count_keeps
    | extract_lets | apply State.put_keeps | apply keeps_ite)

theorem State.retireTile_keeps {z s : State} (h : z.Keeps s) (t : Nat) :
    z.Keeps (State.retireTile s t) := by
  unfold State.retireTile
  with_reducible repeat' (first | assumption | apply State.putK_keeps)

theorem State.retireDock_keeps {z s : State} (h : z.Keeps s) (d : Nat) :
    z.Keeps (State.retireDock s d) := by
  unfold State.retireDock
  with_reducible repeat' (first
    | assumption | apply State.put_keeps | apply keeps_ite | extract_lets | dsimp +zetaDelta only | refine keeps_update ?_ rfl)

theorem State.failPort_keeps {z s : State} (h : z.Keeps s) (p : Nat) :
    z.Keeps (State.failPort s p) := by
  unfold State.failPort
  with_reducible repeat' (first | assumption | refine keeps_update ?_ rfl)

theorem State.permanentFault_keeps {z s : State} (h : z.Keeps s) (c : Nat) (e : DataErr) (f : FaultAt) :
    z.Keeps (State.permanentFault s c e f) := by
  unfold State.permanentFault
  with_reducible repeat' (first
    | assumption | intro _ | apply State.failPort_keeps | apply State.recordFault_keeps | apply State.retireDock_keeps
    | apply State.jobFault_keeps | apply State.retireTile_keeps | apply State.abandonCopy_keeps | apply State.put_keeps
    | apply State.count_keeps | apply State.logEv_keeps | apply keeps_ite | apply keeps_foldl)

theorem State.maybeStop_keeps {z s : State} (h : z.Keeps s) (c : Nat) :
    z.Keeps (State.maybeStop s c) := by
  unfold State.maybeStop
  with_reducible repeat' (first | assumption | apply State.setCtx_keeps | apply keeps_ite)

theorem State.wantReplay_keeps {z s : State} (h : z.Keeps s) (c : Nat) (e : DataErr) (f : FaultAt) :
    z.Keeps (State.wantReplay s c e f) := by
  unfold State.wantReplay
  with_reducible repeat' (first
    | assumption | apply State.maybeStop_keeps | apply State.jobFault_keeps | apply State.permanentFault_keeps
    | apply State.setCtx_keeps | apply keeps_ite)

theorem State.countError_keeps {z s : State} (h : z.Keeps s) :
    z.Keeps (State.countError s) := by
  unfold State.countError
  with_reducible repeat' (first | assumption | apply State.count_keeps | apply State.riskAddE_keeps)

theorem State.dataError_keeps {z s : State} (h : z.Keeps s) (c : Nat) (e : DataErr) (f : FaultAt) (detail : optParam (List Byte) []) :
    z.Keeps (State.dataError s c e f detail) := by
  unfold State.dataError
  with_reducible repeat' (first
    | assumption | apply State.countError_keeps | apply State.wantReplay_keeps | apply State.logEv_keeps)

theorem State.judgeTransient_keeps {z s : State} (h : z.Keeps s) (c : Nat) (berth : Nat) (man : Nat) (slot : Nat) :
    z.Keeps (State.judgeTransient s c berth man slot) := by
  unfold State.judgeTransient
  with_reducible repeat' (first
    | assumption | intro _ | apply State.setCtx_keeps | apply State.count_keeps | apply State.logEv_keeps | apply keeps_foldl)

theorem State.snoopHeld_keeps {z s : State} (h : z.Keeps s) (ls : List (Nat × Nat)) :
    z.Keeps (State.snoopHeld s ls) := by
  unfold State.snoopHeld
  with_reducible repeat' (first
    | assumption | intro _ | apply State.sendSnoops_keeps | apply State.setHl_keeps | apply keeps_foldl)

theorem State.takeLines_keeps {z s : State} (h : z.Keeps s) (ls : List (Nat × Nat)) :
    z.Keeps (State.takeLines s ls) := by
  unfold State.takeLines
  with_reducible repeat' (first
    | assumption | intro _ | apply State.sendSnoops_keeps | apply State.setHl_keeps | apply keeps_foldl)

theorem State.writeNowGo_keeps {z s : State} (h : z.Keeps s) (tile : Option Nat) (c : Nat) (va : Nat) (bs : List Byte) (x5 : Nat) :
    Yields (fun p => z.Keeps p.2) (State.writeNowGo s tile c va bs x5) := by
  induction x5 generalizing s with
  | zero =>
  unfold State.writeNowGo
  with_reducible repeat' (first
    | assumption | intro _ | apply State.takeLines_keeps | apply State.writeVa_keeps)
  | succ m ih =>
  unfold State.writeNowGo
  with_reducible repeat' (first
    | assumption | intro _ | apply ih | apply State.takeLines_keeps
    | apply State.writeVa_keeps | apply yields_ok | apply yields_error | split)

theorem State.writeNow_keeps {z s : State} (h : z.Keeps s) (tile : Option Nat) (c : Nat) (va : Nat) (bs : List Byte) :
    Yields (fun p => z.Keeps p.2) (State.writeNow s tile c va bs) := by
  unfold State.writeNow
  with_reducible repeat' (first | assumption | apply State.writeNowGo_keeps)

theorem State.readNowGo_keeps {z s : State} (h : z.Keeps s) (tile : Option Nat) (c : Nat) (va : Nat) (n : Nat) (x5 : Nat) :
    Yields (fun p => z.Keeps p.2) (State.readNowGo s tile c va n x5) := by
  induction x5 generalizing s with
  | zero =>
  unfold State.readNowGo
  with_reducible repeat' (first
    | assumption | intro _ | apply State.takeLines_keeps | apply State.readVa_keeps)
  | succ m ih =>
  unfold State.readNowGo
  with_reducible repeat' (first
    | assumption | intro _ | apply ih | apply State.takeLines_keeps
    | apply State.readVa_keeps | apply yields_ok | apply yields_error | split)

theorem State.readNow_keeps {z s : State} (h : z.Keeps s) (tile : Option Nat) (c : Nat) (va : Nat) (n : Nat) :
    Yields (fun p => z.Keeps p.2) (State.readNow s tile c va n) := by
  unfold State.readNow
  with_reducible repeat' (first
    | assumption | intro _ | apply State.readNowGo_keeps)

theorem State.noteLeaf_keeps {z s : State} (h : z.Keeps s) (t : Nat) (c : Nat) (va : Nat) :
    z.Keeps (State.noteLeaf s t c va) := by
  unfold State.noteLeaf
  split
  · exact ok_snd ‹_› (State.lookup_keeps h _ _ _ _)
  · exact State.count_keeps h ..

theorem State.noteUses_keeps {z s : State} (h : z.Keeps s) (t : Nat) (c : Nat) (uses : List (Nat × Nat)) (stop : Nat → Bool) :
    z.Keeps (State.noteUses s t c uses stop) := by
  unfold State.noteUses
  with_reducible repeat' (first
    | assumption | intro _ | apply State.noteLeaf_keeps | apply keeps_ite
    | apply keeps_foldl)

theorem State.noteFault_keeps {z s : State} (h : z.Keeps s) (t : Nat) (c : Nat) (uses : List (Nat × Nat)) (f : AccFault) :
    z.Keeps (State.noteFault s t c uses f) := by
  unfold State.noteFault
  with_reducible repeat' (first
    | assumption | intro _ | apply State.noteUses_keeps | apply State.noteLeaf_keeps
    | split)

theorem State.writeStatus_keeps {z s : State} (h : z.Keeps s) (t : Nat) (k : Task) :
    z.Keeps (State.writeStatus s t k) := by
  unfold State.writeStatus
  with_reducible repeat' (first
    | assumption | apply State.transFault_keeps | apply State.writeNow_keeps | apply State.noteLeaf_keeps | split
    | refine ok_snd (by assumption) ?_)

theorem State.bookEnd_keeps {z s : State} (h : z.Keeps s) (t : Nat) (k : Task) :
    z.Keeps (State.bookEnd s t k) := by
  unfold State.bookEnd
  with_reducible repeat' (first
    | assumption | apply State.writeStatus_keeps | apply State.notice16_keeps | apply State.setBerth_keeps
    | apply State.count_keeps | apply keeps_ite)

theorem State.advanceGo_keeps {z s : State} (h : z.Keeps s) (t : Nat) (b : Nat) (x3 : Nat) :
    z.Keeps (State.advanceGo s t b x3) := by
  induction x3 generalizing s with
  | zero =>
  unfold State.advanceGo
  with_reducible repeat' (first
    | assumption)
  | succ m ih =>
  unfold State.advanceGo
  with_reducible repeat' (first
    | assumption | intro _ | apply ih | apply State.setBerth_keeps
    | apply keeps_ite | split | extract_lets)

theorem State.advance_keeps {z s : State} (h : z.Keeps s) (t : Nat) (b : Nat) :
    z.Keeps (State.advance s t b) := by
  unfold State.advance
  with_reducible repeat' (first | assumption | apply State.advanceGo_keeps)

theorem State.finish_keeps {z s : State} (h : z.Keeps s) (t : Nat) (b : Nat) :
    z.Keeps (State.finish s t b) := by
  unfold State.finish
  with_reducible repeat' (first
    | assumption | apply State.setTile_keeps | apply State.setBerth_keeps | apply State.advance_keeps)

theorem State.holdForget_keeps {z s : State} (h : z.Keeps s) (t : Nat) (id : Nat) :
    z.Keeps (State.holdForget s t id) := by
  unfold State.holdForget
  with_reducible repeat' (first
    | assumption | intro _ | apply State.forget_keeps | apply keeps_ite
    | split | refine keeps_update ?_ rfl)

theorem State.mvmForget_keeps {z s : State} (h : z.Keeps s) (t : Nat) (id : Nat) :
    z.Keeps (State.mvmForget s t id) := by
  unfold State.mvmForget
  with_reducible repeat' (first
    | assumption | intro _ | apply keeps_ite | split
    | refine keeps_update ?_ rfl)

theorem State.dropTask_keeps {z s : State} (h : z.Keeps s) (t : Nat) (k : Task) :
    z.Keeps (State.dropTask s t k) := by
  unfold State.dropTask
  with_reducible repeat' (first | assumption | apply State.mvmForget_keeps | apply State.holdForget_keeps | apply State.setTile_keeps)

theorem State.setTask_keeps {z s : State} (h : z.Keeps s) (t : Nat) (k : Task) :
    z.Keeps (State.setTask s t k) := by
  unfold State.setTask
  with_reducible repeat' (first | assumption | apply State.setTile_keeps)

theorem State.cancel_keeps {z s : State} (h : z.Keeps s) (t : Nat) (code : Nat) (k : Task) :
    z.Keeps (State.cancel s t code k) := by
  unfold State.cancel
  with_reducible repeat' (first
    | assumption | apply State.dropTask_keeps | apply State.finish_keeps | apply State.bookEnd_keeps)

theorem State.checkHalted_keeps {z s : State} (h : z.Keeps s) (c : Nat) :
    z.Keeps (State.checkHalted s c) := by
  unfold State.checkHalted
  with_reducible repeat' (first | assumption | apply State.put_keeps | apply keeps_ite)

theorem State.readMail_keeps {z s : State} (h : z.Keeps s) (c : Nat) (w : Nat) (x3 : Nat) (x4 : Nat) (x5 : List Nat) :
    z.Keeps (State.readMail s c w x3 x4 x5).2 := by
  induction x3 generalizing s x4 x5 with
  | zero =>
  unfold State.readMail
  with_reducible repeat' (first | assumption)
  | succ m ih =>
  unfold State.readMail
  with_reducible repeat' (first
    | assumption | apply State.readVa_keeps | apply State.writeNow_keeps | apply ih | split | refine ok_snd (by assumption) ?_
    | extract_lets)

theorem State.takeTarget_keeps {z s : State} (h : z.Keeps s) (c : Nat) (v : Nat) :
    z.Keeps (State.takeTarget s c v) := by
  unfold State.takeTarget
  with_reducible repeat' (first | assumption | apply State.put_keeps | apply State.logEv_keeps | apply keeps_ite)

theorem State.processRequests_keeps {z s : State} (h : z.Keeps s) :
    z.Keeps (State.processRequests s) := by
  unfold State.processRequests
  with_reducible repeat' (first
    | assumption | apply State.count_keeps | intro _ | apply State.readMail_keeps | apply State.setBollard_keeps | apply State.takeTarget_keeps
    | apply keeps_ite | apply keeps_foldl)

theorem State.gateTake_keeps {z s : State} (h : z.Keeps s) (k : Task) :
    z.Keeps (State.gateTake s k).2 := by
  unfold State.gateTake
  with_reducible repeat' (first | assumption | apply State.setLayer_keeps | split | extract_lets)

theorem State.countDenied_keeps {z s : State} (h : z.Keeps s) (t : Nat) (k : Task) (touched : List (Nat × Nat)) :
    z.Keeps (State.countDenied s t k touched) := by
  unfold State.countDenied
  with_reducible repeat' (first
    | assumption | intro _ | apply State.count_keeps | apply keeps_ite)

theorem State.startedAs_keeps {z s : State} (h : z.Keeps s) (t : Nat) (k : Task) (touched : List (Nat × Nat)) (writes : List (Nat × Nat)) :
    z.Keeps (State.startedAs s t k touched writes) := by
  unfold State.startedAs
  with_reducible repeat' (first
    | assumption | intro _ | apply State.countDenied_keeps | apply State.setTile_keeps
    | apply keeps_ite)

theorem State.placeOn_keeps {z s : State} (h : z.Keeps s) (t : Nat) (k : Task) :
    z.Keeps (State.placeOn s t k) := by
  unfold State.placeOn
  with_reducible repeat' (first
    | assumption | apply State.countDenied_keeps | apply State.gateTake_keeps | apply State.setTile_keeps | apply State.count_keeps | apply keeps_ite)

theorem State.grant_keeps {z s : State} (h : z.Keeps s) (b : Nat) :
    z.Keeps (State.grant s b) := by
  unfold State.grant
  with_reducible repeat' (first
    | assumption | apply State.count_keeps | intro _ | apply State.placeOn_keeps | apply State.setBollard_keeps | apply State.setBerth_keeps
    | apply keeps_foldl | split)

theorem State.bump_keeps {z s : State} (h : z.Keeps s) (b : Nat) (inc : Nat) (ext : Bool) :
    z.Keeps (State.bump s b inc ext) := by
  unfold State.bump
  with_reducible repeat' (first
    | assumption | apply State.count_keeps | apply State.jobFault_keeps | apply State.setBollard_keeps | apply State.processRequests_keeps
    | apply keeps_ite | split)

theorem State.drainNoops_keeps {z s : State} (h : z.Keeps s) (t : Nat) (x2 : Nat) (x3 : List Nat) :
    z.Keeps (State.drainNoops s t x2 x3).2 := by
  induction x2 generalizing s x3 with
  | zero =>
  unfold State.drainNoops
  with_reducible repeat' (first | assumption)
  | succ m ih =>
  unfold State.drainNoops
  with_reducible repeat' (first
    | assumption | apply State.countDenied_keeps | intro _ | apply State.bump_keeps | apply State.dropTask_keeps | apply State.finish_keeps
    | apply State.setTile_keeps | apply State.bookEnd_keeps | apply ih | apply keeps_foldl | split)

theorem State.settleGo_keeps {z s : State} (h : z.Keeps s) (x1 : Nat) (x2 : List Nat) :
    z.Keeps (State.settleGo s x1 x2) := by
  induction x1 generalizing s x2 with
  | zero => exact h
  | succ m ih =>
    cases x2 with
    | nil => exact h
    | cons b rest =>
      unfold State.settleGo
      split
      · split
        · extract_lets both s1 t
          have h1 : z.Keeps s1 := State.grant_keeps h _
          split
          exact ih (eq_snd ‹_› (State.drainNoops_keeps h1 _ _ _)) _
        · exact ih h _
      · exact ih h _

theorem State.grantGo_keeps {z s : State} (h : z.Keeps s) (x1 : Nat) (x2 : List Nat) :
    z.Keeps (State.grantGo s x1 x2) := by
  induction x1 generalizing s x2 with
  | zero => exact h
  | succ m ih =>
    cases x2 with
    | nil => exact h
    | cons b rest =>
      unfold State.grantGo
      split
      · split
        · exact ih (State.grant_keeps h _) _
        · exact ih h _
      · exact ih h _

theorem State.settle_keeps {z s : State} (h : z.Keeps s) (bs : List Nat) :
    z.Keeps (State.settle s bs) := by
  unfold State.settle
  with_reducible repeat' (first | assumption | apply State.settleGo_keeps)

theorem State.raise_keeps {z s : State} (h : z.Keeps s) (b : Nat) (inc : Nat) (ext : Bool) :
    z.Keeps (State.raise s b inc ext) := by
  unfold State.raise
  with_reducible repeat' (first | assumption | apply State.bump_keeps | apply State.settle_keeps)

theorem State.issue_keeps {z s : State} (h : z.Keeps s) (t : Nat) :
    z.Keeps (State.issue s t) := by
  unfold State.issue
  with_reducible repeat' (first
    | assumption | intro _ | apply State.setTile_keeps | apply keeps_ite)

theorem State.regrant_keeps {z s : State} (h : z.Keeps s) (t : Nat) :
    z.Keeps (State.regrant s t) := by
  unfold State.regrant
  with_reducible repeat' (first
    | assumption | apply State.issue_keeps | intro _ | apply State.drainNoops_keeps | apply State.grant_keeps | apply State.settle_keeps
    | apply keeps_ite | apply keeps_foldl)

theorem State.scramble_keeps {z s : State} (h : z.Keeps s) (t : Nat) (c : Nat) (ranges : List (Nat × Nat)) :
    z.Keeps (State.scramble s t c ranges) := by
  unfold State.scramble
  with_reducible repeat' (first
    | assumption | intro _ | apply State.storeRanges_keeps | apply State.drawBytes_keeps | apply State.ranges_keeps
    | apply keeps_foldl | split | refine ok_snd (by assumption) ?_)

theorem State.grantUrgent_keeps {z s : State} (h : z.Keeps s) (t : Nat) :
    z.Keeps (State.grantUrgent s t) := by
  unfold State.grantUrgent
  with_reducible repeat' (first
    | assumption | intro _ | apply State.grant_keeps | apply State.setTask_keeps
    | split | extract_lets)

theorem State.strikeDeferred_keeps {z s : State} (h : z.Keeps s) (t : Nat) :
    z.Keeps (State.strikeDeferred s t) := by
  unfold State.strikeDeferred
  with_reducible repeat' (first
    | assumption | intro _ | apply State.cancel_keeps | apply keeps_foldl)

theorem State.abortAs_keeps {z s : State} (h : z.Keeps s) (t : Nat) (k : Task) (w : Task) (f : AccFault) :
    z.Keeps (State.abortAs s t k w f) := by
  unfold State.abortAs
  with_reducible repeat' (first
    | assumption | intro _ | apply State.grantUrgent_keeps | apply State.scramble_keeps
    | apply State.regrant_keeps | apply State.checkHalted_keeps | apply State.cancel_keeps | apply State.dropTask_keeps
    | apply State.finish_keeps | apply State.bookEnd_keeps | apply State.noteFault_keeps | apply State.dataError_keeps
    | apply State.countError_keeps | apply State.maybeStop_keeps | apply State.transFault_keeps | apply State.jobFault_keeps
    | apply State.refitStruck_keeps | apply State.refuse_keeps | apply State.logEv_keeps | apply keeps_ite
    | apply keeps_foldl | split | extract_lets | dsimp +zetaDelta only
    | refine keeps_update ?_ rfl)

theorem State.abort_keeps {z s : State} (h : z.Keeps s) (t : Nat) (k : Task) (f : AccFault) :
    z.Keeps (State.abort s t k f) := by
  unfold State.abort
  with_reducible repeat' (first
    | assumption | apply State.abortAs_keeps

)

theorem State.refuseAs_keeps {z s : State} (h : z.Keeps s) (t : Nat) (k : Task) (code : Nat) (kind : Nat) (id : Nat) (detail : List Byte) :
    z.Keeps (State.refuseAs s t k code kind id detail) := by
  unfold State.refuseAs
  with_reducible repeat' (first
    | assumption | apply State.dropTask_keeps | apply State.jobFault_keeps | apply State.finish_keeps
    | apply State.bookEnd_keeps)

theorem State.refuseTask_keeps {z s : State} (h : z.Keeps s) (t : Nat) (k : Task) (w : Task) (code : Nat) :
    z.Keeps (State.refuseTask s t k w code) := by
  unfold State.refuseTask
  with_reducible repeat' (first | assumption | apply State.refuseAs_keeps)

theorem State.struck_keeps {z s : State} (h : z.Keeps s) (t : Nat) (k : Task) :
    z.Keeps (State.struck s t k).1 := by
  unfold State.struck
  with_reducible repeat' (first | assumption | apply State.dropTask_keeps | apply State.scramble_keeps | split)

theorem State.readStruck_keeps {z s : State} (h : z.Keeps s) (t : Nat) (k : Task) (code : Nat) (va : Nat) (level : Nat) (w : Bool) :
    z.Keeps (State.readStruck s t k code va level w) := by
  unfold State.readStruck
  with_reducible repeat' (first
    | assumption | intro _ | apply State.setTask_keeps | apply State.noteLeaf_keeps
    | apply State.transFault_keeps)

theorem State.stopTask_keeps {z s : State} (h : z.Keeps s) (t : Nat) (k : Task) (f : AccFault) :
    z.Keeps (State.stopTask s t k f) := by
  unfold State.stopTask
  with_reducible repeat' (first
    | assumption | apply State.readStruck_keeps | apply State.abortAs_keeps | apply State.refuse_keeps | apply State.refuseTask_keeps | apply State.struck_keeps | apply State.abort_keeps
    | apply State.snoopHeld_keeps | split)

theorem State.setMember_keeps {z s : State} (h : z.Keeps s) (id : Nat) (i : Nat) (m : ChainMember) :
    z.Keeps (State.setMember s id i m) := by
  unfold State.setMember
  with_reducible repeat' (first | assumption | refine keeps_update ?_ rfl)

theorem State.chunkLoaded_keeps {z s : State} (h : z.Keeps s) (id : Nat) :
    z.Keeps (State.chunkLoaded s id) := by
  unfold State.chunkLoaded
  with_reducible repeat' (first | assumption | apply State.count_keeps | apply State.setMember_keeps)

theorem State.releaseSlots_keeps {z s : State} (h : z.Keeps s) (t : Nat) (k : Task) :
    z.Keeps (State.releaseSlots s t k) := by
  unfold State.releaseSlots
  with_reducible repeat' (first | assumption | intro _ | apply State.setMember_keeps | apply keeps_foldl | split)

theorem State.readFrame_keeps {z s : State} (h : z.Keeps s) (t : Nat) (k : Task) :
    Yields (fun p => z.Keeps p.2) (State.readFrame s t k) := by
  unfold State.readFrame
  with_reducible repeat' (first
    | assumption | intro _ | apply State.readVa_keeps | apply yields_ok
    | apply yields_error | split)

theorem State.setCap_keeps {z s : State} (h : z.Keeps s) (t : Nat) (k : Task) (c : Cap) :
    z.Keeps (State.setCap s t k c) := by
  unfold State.setCap
  with_reducible repeat' (first | assumption | apply State.setTask_keeps)

theorem State.modTask_keeps {z s : State} (h : z.Keeps s) (t : Nat) (id : Nat) (f : Task → Task) :
    z.Keeps (State.modTask s t id f) := by
  unfold State.modTask
  with_reducible repeat' (first | assumption | apply State.setTile_keeps)

theorem State.settleChain_keeps {z s : State} (h : z.Keeps s) (t : Nat) (c : Nat) (x3 : Nat) :
    z.Keeps (State.settleChain s t c x3) := by
  induction x3 generalizing s with
  | zero =>
  unfold State.settleChain
  with_reducible repeat' (first
    | assumption)
  | succ m ih =>
  unfold State.settleChain
  with_reducible repeat' (first
    | assumption | intro _ | apply ih | apply State.modTask_keeps
    | apply State.chunkLoaded_keeps | split)

theorem State.settleLoad_keeps {z s : State} (h : z.Keeps s) (t : Nat) (id : Nat) :
    z.Keeps (State.settleLoad s t id) := by
  unfold State.settleLoad
  with_reducible repeat' (first
    | assumption | apply State.settleChain_keeps | apply State.chunkLoaded_keeps | apply State.modTask_keeps | apply keeps_ite | split)

theorem State.endTask_keeps {z s : State} (h : z.Keeps s) (t : Nat) (k : Task) :
    z.Keeps (State.endTask s t k) := by
  unfold State.endTask
  with_reducible repeat' (first
    | assumption | apply State.releaseSlots_keeps | apply State.dropTask_keeps | apply State.checkHalted_keeps
    | apply State.judgeTransient_keeps | apply State.finish_keeps | apply State.regrant_keeps | apply State.setTile_keeps
    | apply State.bookEnd_keeps | apply keeps_ite)

theorem State.overlapStart_keeps {z s : State} (h : z.Keeps s) (t : Nat) (k : Task) (before : Task) (body : Body) :
    z.Keeps (State.overlapStart s t k before body) := by
  unfold State.overlapStart
  with_reducible repeat' (first | assumption | apply State.startedAs_keeps | apply State.readVa_keeps | apply State.regrant_keeps | apply State.setTask_keeps | apply keeps_ite)

theorem State.reissue_keeps {z s : State} (h : z.Keeps s) (t : Nat) (k : Task) (w : List (Nat × Nat)) :
    z.Keeps (State.reissue s t k w) := by
  unfold State.reissue
  with_reducible repeat' (first
    | assumption | intro _ | apply State.setTile_keeps | apply keeps_ite)

theorem State.runTask_keeps {z s : State} (h : z.Keeps s) (t : Nat) (op : Nat) (form : Task → Bool) (body : Body) (hbody : ∀ u t k, z.Keeps u → Yields (fun p => z.Keeps p.1) (body.run u t k)) :
    z.Keeps (State.runTask s t op form body) := by
  unfold State.runTask
  with_reducible repeat' (first
    | assumption | apply State.reissue_keeps | apply State.startedAs_keeps | apply State.refuse_keeps | apply State.regrant_keeps | apply State.setTile_keeps | apply State.setTask_keeps | apply State.work_keeps
    | apply State.overlapStart_keeps | apply State.snoopHeld_keeps | apply State.stopTask_keeps | apply State.count_keeps
    | apply hbody | apply keeps_ite | split | refine ok_fst (by assumption) ?_ | extract_lets)

theorem State.runSplit_keeps {z s : State} (h : z.Keeps s) (t : Nat) (op : Nat) (form : Task → Bool) (body : Body) (parts : State → Task → Nat) (hbody : ∀ u t k, z.Keeps u → Yields (fun p => z.Keeps p.1) (body.run u t k)) :
    z.Keeps (State.runSplit s t op form body parts) := by
  unfold State.runSplit
  with_reducible repeat' (first
    | assumption | intro _ | apply State.runTask_keeps | apply State.regrant_keeps
    | apply State.startedAs_keeps | apply State.setTask_keeps | apply State.work_keeps | apply hbody
    | apply keeps_ite | split)

theorem State.dmaStart_keeps {z s : State} (h : z.Keeps s) (t : Nat) (k : Task) (d : Dma) :
    z.Keeps (State.dmaStart s t k d) := by
  unfold State.dmaStart
  with_reducible repeat' (first
    | assumption | intro _ | apply State.regrant_keeps | apply State.startedAs_keeps
    | apply State.setTask_keeps)

theorem State.runDma_keeps {z s : State} (h : z.Keeps s) (t : Nat) (op : Nat) (units : Nat) (d : Dma) (hd : ∀ u t k i n, z.Keeps u → Yields z.Keeps (d.run u t k i n)) :
    z.Keeps (State.runDma s t op units d) := by
  unfold State.runDma
  with_reducible repeat' (first
    | assumption | apply State.dmaStart_keeps | apply State.reissue_keeps | apply State.startedAs_keeps | apply State.regrant_keeps | apply State.setTile_keeps | apply State.setTask_keeps | apply State.work_keeps
    | apply State.snoopHeld_keeps | apply State.stopTask_keeps | apply hd | apply keeps_ite | split
    | refine ok_self (by assumption) ?_ | extract_lets)

theorem execDmaSuspend_keeps {z s : State} (h : z.Keeps s) (t : TileId) :
    ∃ u, execDmaSuspend t s = .next u ∧ z.Keeps u := by
  refine ⟨_, rfl, ?_⟩
  with_reducible repeat' (first
    | assumption | apply State.regrant_keeps | apply State.setTask_keeps | apply State.count_keeps | apply keeps_ite | split)

end Sys2Proof.Machine
end

