-- ==== Sys2Proof/Laws/KeepsFlags.lean ====
section
/-! SUPPORT. What the operations of Machine/Flags.lean keep (State.Keeps). -/

namespace Sys2Proof.Machine

theorem State.noteStored_keeps {z s : State} (h : z.Keeps s) (k : Task) (va : Nat) (want : Fmt) (eff : Fmt) :
    z.Keeps (State.noteStored s k va want eff) := by
  unfold State.noteStored
  with_reducible repeat' (first | assumption | apply keeps_ite | split | refine keeps_update ?_ rfl)

theorem State.readTensor_keeps {z s : State} (h : z.Keeps s) (t : Nat) (c : Nat) (va : Nat) (f : Fmt) (n : Nat) :
    Yields (fun p => z.Keeps p.2) (State.readTensor s t c va f n) := by
  unfold State.readTensor
  with_reducible repeat' (first
    | assumption | apply State.readVa_keeps | split | apply yields_ok | apply yields_error | refine ok_snd (by assumption) ?_)

theorem State.writeBytes_keeps {z s : State} (h : z.Keeps s) (t : Nat) (c : Nat) (va : Nat) (bs : List Byte) :
    Yields z.Keeps (State.writeBytes s t c va bs) := by
  unfold State.writeBytes
  with_reducible repeat' (first
    | assumption | apply State.writeVa_keeps | split | apply yields_ok | apply yields_error | refine ok_snd (by assumption) ?_)

theorem State.countNum_keeps {z s : State} (h : z.Keeps s) (n : NumStat) :
    z.Keeps (State.countNum s n) := by
  unfold State.countNum
  with_reducible repeat' (first | assumption | apply State.count_keeps | apply keeps_ite)

theorem State.logNum_keeps {z s : State} (h : z.Keeps s) (k : Task) (status : Nat) :
    z.Keeps (State.logNum s k status) := by
  unfold State.logNum
  with_reducible repeat' (first | assumption | apply State.logEv_keeps | apply keeps_ite)

theorem State.bookNum_keeps {z s : State} (h : z.Keeps s) (k : Task) (n : NumStat) :
    z.Keeps (State.bookNum s k n) := by
  unfold State.bookNum
  with_reducible repeat' (first | assumption | apply State.countNum_keeps | apply State.logNum_keeps)

theorem State.bookLayer_keeps {z s : State} (h : z.Keeps s) (k : Task) (li : Option Nat) (c : Nat) (v : ConvStat) :
    z.Keeps (State.bookLayer s k li c v) := by
  unfold State.bookLayer
  with_reducible repeat' (first | assumption | apply State.setLayer_keeps | apply keeps_ite | split)

theorem State.bookBad_keeps {z s : State} (h : z.Keeps s) (k : Task) (li : Option Nat) (n : Nat) :
    z.Keeps (State.bookBad s k li n) := by
  unfold State.bookBad
  with_reducible repeat' (first | assumption | apply State.bookLayer_keeps | apply keeps_ite)

end Sys2Proof.Machine
end

