-- ==== Sys2Proof/Laws/KeepsVector.lean ====
section
/-! SUPPORT. What the operations of Machine/Vector.lean keep (State.Keeps). -/

namespace Sys2Proof.Machine

theorem State.writeAll_keeps {z s : State} (h : z.Keeps s) (t : Nat) (c : Nat) (x3 : List (Nat × List Byte)) :
    Yields z.Keeps (State.writeAll s t c x3) := by
  induction x3 generalizing s with
  | nil =>
  unfold State.writeAll
  with_reducible repeat' (first | assumption | apply yields_ok)
  | cons y l ih =>
  unfold State.writeAll
  with_reducible repeat' (first
    | assumption | apply State.writeBytes_keeps | apply ih | split | apply yields_error | refine ok_self (by assumption) ?_)

theorem State.commit_keeps {z s : State} (h : z.Keeps s) (t : Nat) (k : Task) (ws : List (Nat × List Byte)) (n : NumStat) (cs : List (Nat × ConvStat)) (bad : Nat) :
    Yields (fun p => z.Keeps p.1) (State.commit s t k ws n cs bad) := by
  unfold State.commit
  with_reducible repeat' (first
    | assumption | intro _ | apply State.bookBad_keeps | apply State.bookNum_keeps | apply State.bookLayer_keeps
    | apply State.writeAll_keeps | apply keeps_foldl | split | apply yields_ok | apply yields_error
    | refine ok_self (by assumption) ?_)

theorem State.readRows_keeps {z s : State} (h : z.Keeps s) (t : Nat) (c : Nat) (f : Fmt) (n : Nat) (x5 : List Nat) :
    Yields (fun p => z.Keeps p.2) (State.readRows s t c f n x5) := by
  induction x5 generalizing s with
  | nil =>
  unfold State.readRows
  with_reducible repeat' (first | assumption | apply yields_ok)
  | cons y l ih =>
  unfold State.readRows
  with_reducible repeat' (first
    | assumption | apply State.readTensor_keeps | apply ih | split | apply yields_ok | apply yields_error
    | refine ok_snd (by assumption) ?_)

theorem normForward_keeps {z s : State} (h : z.Keeps s) (t : Nat) (k : Task) :
    Yields (fun p => z.Keeps p.1) (normForward s t k) := by
  unfold normForward
  with_reducible repeat' (first
    | assumption | apply State.refuse_keeps | apply State.readRows_keeps | apply State.commit_keeps | apply State.readTensor_keeps | split
    | apply yields_error | refine ok_snd (by assumption) ?_)

theorem normBackward_keeps {z s : State} (h : z.Keeps s) (t : Nat) (k : Task) :
    Yields (fun p => z.Keeps p.1) (normBackward s t k) := by
  unfold normBackward
  with_reducible repeat' (first
    | assumption | apply State.refuse_keeps | apply State.readRows_keeps | apply State.commit_keeps | apply State.readTensor_keeps | split
    | apply yields_error | refine ok_snd (by assumption) ?_)

theorem execNormForward_keeps {z s : State} (h : z.Keeps s) (t : TileId) :
    ∃ u, execNormForward t s = .next u ∧ z.Keeps u := by
  refine ⟨_, rfl, ?_⟩
  with_reducible repeat' (first | assumption | intro _ | apply State.runTask_keeps | apply normForward_keeps)

theorem execNormBackward_keeps {z s : State} (h : z.Keeps s) (t : TileId) :
    ∃ u, execNormBackward t s = .next u ∧ z.Keeps u := by
  refine ⟨_, rfl, ?_⟩
  with_reducible repeat' (first | assumption | intro _ | apply State.runTask_keeps | apply normBackward_keeps)

theorem actForward_keeps {z s : State} (h : z.Keeps s) (t : Nat) (k : Task) :
    Yields (fun p => z.Keeps p.1) (actForward s t k) := by
  unfold actForward
  with_reducible repeat' (first
    | assumption | apply State.refuse_keeps | apply State.commit_keeps | apply State.readTensor_keeps | split | apply yields_error
    | refine ok_snd (by assumption) ?_)

theorem actBackward_keeps {z s : State} (h : z.Keeps s) (t : Nat) (k : Task) :
    Yields (fun p => z.Keeps p.1) (actBackward s t k) := by
  unfold actBackward
  with_reducible repeat' (first
    | assumption | apply State.refuse_keeps | apply State.commit_keeps | apply State.readTensor_keeps | split | apply yields_error
    | refine ok_snd (by assumption) ?_)

theorem execAct_keeps {z s : State} (h : z.Keeps s) (t : TileId) :
    ∃ u, execAct t s = .next u ∧ z.Keeps u := by
  refine ⟨_, rfl, ?_⟩
  with_reducible repeat' (first | assumption | intro _ | apply actForward_keeps | apply State.runTask_keeps)

theorem execActDerivative_keeps {z s : State} (h : z.Keeps s) (t : TileId) :
    ∃ u, execActDerivative t s = .next u ∧ z.Keeps u := by
  refine ⟨_, rfl, ?_⟩
  with_reducible repeat' (first | assumption | intro _ | apply State.runTask_keeps | apply actBackward_keeps)

theorem softmaxForward_keeps {z s : State} (h : z.Keeps s) (t : Nat) (k : Task) :
    Yields (fun p => z.Keeps p.1) (softmaxForward s t k) := by
  unfold softmaxForward
  with_reducible repeat' (first
    | assumption | apply State.refuse_keeps | apply State.readRows_keeps | apply State.commit_keeps | split | apply yields_error
    | refine ok_snd (by assumption) ?_)

theorem softmaxBackward_keeps {z s : State} (h : z.Keeps s) (t : Nat) (k : Task) :
    Yields (fun p => z.Keeps p.1) (softmaxBackward s t k) := by
  unfold softmaxBackward
  with_reducible repeat' (first
    | assumption | apply State.refuse_keeps | apply State.readRows_keeps | apply State.commit_keeps | split | apply yields_error
    | refine ok_snd (by assumption) ?_)

theorem execSoftmaxForward_keeps {z s : State} (h : z.Keeps s) (t : TileId) :
    ∃ u, execSoftmaxForward t s = .next u ∧ z.Keeps u := by
  refine ⟨_, rfl, ?_⟩
  with_reducible repeat' (first | assumption | intro _ | apply softmaxForward_keeps | apply State.runTask_keeps)

theorem execSoftmaxBackward_keeps {z s : State} (h : z.Keeps s) (t : TileId) :
    ∃ u, execSoftmaxBackward t s = .next u ∧ z.Keeps u := by
  refine ⟨_, rfl, ?_⟩
  with_reducible repeat' (first | assumption | intro _ | apply State.runTask_keeps | apply softmaxBackward_keeps)

theorem convert_keeps {z s : State} (h : z.Keeps s) (t : Nat) (k : Task) :
    Yields (fun p => z.Keeps p.1) (convert s t k) := by
  unfold convert
  with_reducible repeat' (first
    | assumption | apply State.refuse_keeps | apply State.commit_keeps | apply State.readTensor_keeps | apply State.noteStored_keeps | split
    | apply yields_ok | apply yields_error | refine ok_snd (by assumption) ?_ | refine ok_fst (by assumption) ?_
    | extract_lets)

theorem execConvert_keeps {z s : State} (h : z.Keeps s) (t : TileId) :
    ∃ u, execConvert t s = .next u ∧ z.Keeps u := by
  refine ⟨_, rfl, ?_⟩
  with_reducible repeat' (first | assumption | intro _ | apply State.runTask_keeps | apply convert_keeps)

theorem rngFill_keeps {z s : State} (h : z.Keeps s) (t : Nat) (k : Task) :
    Yields (fun p => z.Keeps p.1) (rngFill s t k) := by
  unfold rngFill
  with_reducible repeat' (first | assumption | apply State.refuse_keeps | apply State.commit_keeps | split | apply yields_error)

theorem execRngFill_keeps {z s : State} (h : z.Keeps s) (t : TileId) :
    ∃ u, execRngFill t s = .next u ∧ z.Keeps u := by
  refine ⟨_, rfl, ?_⟩
  with_reducible repeat' (first | assumption | intro _ | apply State.runTask_keeps | apply rngFill_keeps)

end Sys2Proof.Machine
end

