-- ==== Sys2Proof/Laws/KeepsDigital.lean ====
section
/-! SUPPORT. What the operations of Machine/Digital.lean keep (State.Keeps). -/

namespace Sys2Proof.Machine

theorem State.readMat_keeps {z s : State} (h : z.Keeps s) (t : Nat) (k : Nat) (va : Nat) (f : Fmt) (r : Nat) (c : Nat) :
    Yields (fun p => z.Keeps p.2) (State.readMat s t k va f r c) := by
  unfold State.readMat
  with_reducible repeat' (first
    | assumption | apply State.readTensor_keeps | apply State.readVa_keeps | split | apply yields_ok | apply yields_error | refine ok_snd (by assumption) ?_)

theorem State.countMacs_keeps {z s : State} (h : z.Keeps s) (macs : Nat) (gated : Nat) :
    z.Keeps (State.countMacs s macs gated) := by
  unfold State.countMacs
  with_reducible repeat' (first | assumption | apply State.count_keeps)

theorem State.readMaster_keeps {z s : State} (h : z.Keeps s) (t : Nat) (c : Nat) (b : Binding) (row : Nat) (col : Nat) (rows : Nat) (cols : Nat) :
    Yields (fun p => z.Keeps p.2) (State.readMaster s t c b row col rows cols) := by
  unfold State.readMaster
  split
  · exact yields_error
  · exact State.readRows_keeps h _ _ _ _ _

theorem State.weights_keeps {z s : State} (h : z.Keeps s) (t : Nat) (k : Task) (fb : Fmt) (wide : Bool) (master : Bool) (turned : Bool) :
    Yields (fun p => z.Keeps p.2) (State.weights s t k fb wide master turned) := by
  unfold State.weights
  with_reducible repeat' (first
    | assumption | apply State.refuse_keeps | apply State.readMat_keeps | apply State.readMaster_keeps | split | apply yields_ok | apply yields_error
    | apply yields_ite | refine ok_snd (by assumption) ?_ | extract_lets)

theorem State.gemmCount_keeps {z s : State} (h : z.Keeps s) (k : Task) (bBytes : Nat) (gated : Nat) :
    z.Keeps (State.gemmCount s k bBytes gated) := by
  unfold State.gemmCount
  with_reducible repeat' (first | assumption | apply State.countMacs_keeps | apply State.count_keeps | apply keeps_ite)

theorem State.gemmRun_keeps {z s : State} (h : z.Keeps s) (t : Nat) (k : Task) :
    Yields (fun p => z.Keeps p.1) (State.gemmRun s t k) := by
  unfold State.gemmRun
  extract_lets M N K wide fa fb want eff master
  refine yields_ite yields_error ?_
  split
  · exact yields_error
  · rename_i hw
    have h1 := ok_snd hw (State.weights_keeps h _ _ _ _ _ _)
    split
    · exact yields_error
    · rename_i ha
      have h2 := ok_snd ha (yields_ite (State.readMat_keeps h1 _ _ _ _ _ _) (State.readMat_keeps h1 _ _ _ _ _ _))
      extract_lets a
      split
      · exact yields_error
      · rename_i hc
        have h3 := ok_snd hc (yields_ite (State.readTensor_keeps h2 _ _ _ _ _) (yields_ite (State.readTensor_keeps h2 _ _ _ _ _) (yields_ok h2)))
        extract_lets init li
        split
        with_reducible repeat' (first
          | assumption | apply yields_ok | apply yields_error | apply State.noteStored_keeps | apply State.setCap_keeps
          | apply State.gemmCount_keeps | apply State.commit_keeps | apply keeps_ite | split
          | refine ok_fst (by assumption) ?_ | extract_lets | dsimp +zetaDelta only)

theorem execGemm_keeps {z s : State} (h : z.Keeps s) (t : TileId) :
    ∃ u, execGemm t s = .next u ∧ z.Keeps u := by
  refine ⟨_, rfl, ?_⟩
  with_reducible repeat' (first | assumption | apply State.runSplit_keeps | intro _ | apply State.runTask_keeps | apply State.gemmRun_keeps)

theorem execMatvec_keeps {z s : State} (h : z.Keeps s) (t : TileId) :
    ∃ u, execMatvec t s = .next u ∧ z.Keeps u := by
  refine ⟨_, rfl, ?_⟩
  with_reducible repeat' (first | assumption | apply State.runSplit_keeps | intro _ | apply State.runTask_keeps | apply State.gemmRun_keeps)

theorem State.pairRun_keeps {z s : State} (h : z.Keeps s) (t : Nat) (k : Task) :
    Yields (fun p => z.Keeps p.1) (State.pairRun s t k) := by
  unfold State.pairRun
  with_reducible repeat' (first
    | assumption | apply State.readFrame_keeps | apply State.refuse_keeps | apply State.readVa_keeps | apply State.setCap_keeps | apply State.countMacs_keeps
    | apply State.readMat_keeps | apply State.weights_keeps | apply State.count_keeps | apply State.commit_keeps
    | apply State.readTensor_keeps | apply State.noteStored_keeps | apply keeps_ite | split | apply yields_ok
    | apply yields_error | apply yields_ite | refine ok_snd (by assumption) ?_ | refine ok_fst (by assumption) ?_
    | extract_lets | dsimp +zetaDelta only)

theorem execGemmBwdPair_keeps {z s : State} (h : z.Keeps s) (t : TileId) :
    ∃ u, execGemmBwdPair t s = .next u ∧ z.Keeps u := by
  refine ⟨_, rfl, ?_⟩
  with_reducible repeat' (first | assumption | apply State.runSplit_keeps | intro _ | apply State.runTask_keeps | apply State.pairRun_keeps)

theorem State.readQkv_keeps {z s : State} (h : z.Keeps s) (t : Nat) (k : Task) (fb : List Byte) :
    Yields (fun p => z.Keeps p.2) (State.readQkv s t k fb) := by
  unfold State.readQkv
  with_reducible repeat' (first
    | assumption | apply State.readMat_keeps | split | apply yields_ok | apply yields_error | refine ok_snd (by assumption) ?_
    | extract_lets)

theorem State.attnForward_keeps {z s : State} (h : z.Keeps s) (t : Nat) (k : Task) :
    Yields (fun p => z.Keeps p.1) (State.attnForward s t k) := by
  unfold State.attnForward
  with_reducible repeat' (first
    | assumption | apply State.readFrame_keeps | apply State.refuse_keeps | apply State.readQkv_keeps | apply State.readVa_keeps | apply State.countMacs_keeps
    | apply State.count_keeps | apply State.commit_keeps | apply State.readTensor_keeps | apply State.noteStored_keeps | split
    | apply yields_ok | apply yields_error | refine ok_snd (by assumption) ?_ | refine ok_fst (by assumption) ?_
    | extract_lets)

theorem execAttnFwdBlock_keeps {z s : State} (h : z.Keeps s) (t : TileId) :
    ∃ u, execAttnFwdBlock t s = .next u ∧ z.Keeps u := by
  refine ⟨_, rfl, ?_⟩
  with_reducible repeat' (first | assumption | intro _ | apply State.runTask_keeps | apply State.attnForward_keeps)

theorem State.accRows_keeps {z s : State} (h : z.Keeps s) (t : Nat) (c : Nat) (va : Nat) (rows : Nat) (D : Nat) (fresh : Bool) :
    Yields (fun p => z.Keeps p.2) (State.accRows s t c va rows D fresh) := by
  unfold State.accRows
  with_reducible repeat' (first
    | assumption | apply State.readTensor_keeps | split | apply yields_ok | apply yields_error
    | refine ok_snd (by assumption) ?_)

theorem State.attnBackward_keeps {z s : State} (h : z.Keeps s) (t : Nat) (k : Task) :
    Yields (fun p => z.Keeps p.1) (State.attnBackward s t k) := by
  unfold State.attnBackward
  with_reducible repeat' (first
    | assumption | apply State.readFrame_keeps | apply State.refuse_keeps | apply State.readQkv_keeps | apply State.readVa_keeps | apply State.countMacs_keeps
    | apply State.accRows_keeps | apply State.readMat_keeps | apply State.count_keeps | apply State.commit_keeps
    | apply State.readTensor_keeps | split | apply yields_error | refine ok_snd (by assumption) ?_ | extract_lets)

theorem execAttnBwdBlock_keeps {z s : State} (h : z.Keeps s) (t : TileId) :
    ∃ u, execAttnBwdBlock t s = .next u ∧ z.Keeps u := by
  refine ⟨_, rfl, ?_⟩
  with_reducible repeat' (first | assumption | intro _ | apply State.runTask_keeps | apply State.attnBackward_keeps)

end Sys2Proof.Machine
end

