-- ==== Sys2Proof/Laws/KeepsFabricBase.lean ====
section
/-! SUPPORT. What the operations of Machine/FabricBase.lean keep (State.Keeps). -/

namespace Sys2Proof.Machine

theorem State.setPort_keeps {z s : State} (h : z.Keeps s) (p : Nat) (x : Port) :
    z.Keeps (State.setPort s p x) := by
  unfold State.setPort
  with_reducible repeat' (first | assumption | extract_lets | dsimp +zetaDelta only | refine keeps_update ?_ rfl)

theorem State.returnCredit_keeps {z s : State} (h : z.Keeps s) (p : Nat) (vc : Nat) (n : Nat) :
    z.Keeps (State.returnCredit s p vc n) := by
  unfold State.returnCredit
  with_reducible repeat' (first
    | assumption | intro _ | apply State.rx_keeps | apply State.emit_keeps)

theorem State.returnHeld_keeps {z s : State} (h : z.Keeps s) (m : Msg) :
    z.Keeps (State.returnHeld s m) := by
  unfold State.returnHeld
  with_reducible repeat' (first
    | assumption | intro _ | apply State.returnCredit_keeps | apply State.setPort_keeps
    | split)

theorem State.pump_keeps {z s : State} (h : z.Keeps s) (p : Nat) :
    z.Keeps (State.pump s p) := by
  unfold State.pump
  with_reducible repeat' (first
    | assumption | apply State.returnHeld_keeps | intro _ | apply State.setPort_keeps | apply State.count_keeps | apply State.emit_keeps | apply keeps_ite
    | apply keeps_foldl)

theorem State.sendMsg_keeps {z s : State} (h : z.Keeps s) (m : Msg) :
    z.Keeps (State.sendMsg s m) := by
  unfold State.sendMsg
  with_reducible repeat' (first | assumption | apply State.setPort_keeps | apply State.pump_keeps | apply keeps_ite | split)

theorem State.newTid_keeps {z s : State} (h : z.Keeps s) (tile : Nat) :
    z.Keeps (State.newTid s tile).2 := by
  unfold State.newTid
  with_reducible repeat' (first | assumption | extract_lets | dsimp only | dsimp +zetaDelta only | refine keeps_update ?_ rfl)

theorem State.setXfer_keeps {z s : State} (h : z.Keeps s) (xid : Nat) (x : Xfer) :
    z.Keeps (State.setXfer s xid x) := by
  unfold State.setXfer
  with_reducible repeat' (first | assumption | extract_lets | dsimp +zetaDelta only | refine keeps_update ?_ rfl)

theorem State.dropXfer_keeps {z s : State} (h : z.Keeps s) (xid : Nat) :
    z.Keeps (State.dropXfer s xid) := by
  unfold State.dropXfer
  with_reducible repeat' (first | assumption | extract_lets | dsimp +zetaDelta only | refine keeps_update ?_ rfl)

theorem State.sendXfer_keeps {z s : State} (h : z.Keeps s) (owner : XOwner) (c : Nat) (dom : Nat) (pkg : Nat) (port : Nat) (xid : Nat) (group : Bool) (ms : List Msg) :
    z.Keeps (State.sendXfer s owner c dom pkg port xid group ms) := by
  unfold State.sendXfer
  with_reducible repeat' (first
    | assumption | intro _ | apply State.setXfer_keeps | apply State.sendMsg_keeps | apply keeps_foldl)

theorem State.awaits_keeps {z s : State} (h : z.Keeps s) (t : Nat) (id : Nat) (xid : Nat) :
    z.Keeps (State.awaits s t id xid) := by
  unfold State.awaits
  with_reducible repeat' (first | assumption | apply State.modTask_keeps)

theorem State.answered_keeps {z s : State} (h : z.Keeps s) (t : Nat) (id : Nat) (xid : Nat) :
    z.Keeps (State.answered s t id xid) := by
  unfold State.answered
  with_reducible repeat' (first | assumption | apply State.settleLoad_keeps | apply State.modTask_keeps)

theorem State.answer_keeps {z s : State} (h : z.Keeps s) (typ : Nat) (m : Msg) (typeData : List Byte) :
    z.Keeps (State.answer s typ m typeData) := by
  unfold State.answer
  with_reducible repeat' (first | assumption | apply State.sendMsg_keeps)

theorem State.ack_keeps {z s : State} (h : z.Keeps s) (m : Msg) :
    z.Keeps (State.ack s m) := by
  unfold State.ack
  with_reducible repeat' (first | assumption | apply State.answer_keeps)

theorem State.nack_keeps {z s : State} (h : z.Keeps s) (m : Msg) (code : Nat) :
    z.Keeps (State.nack s m code) := by
  unfold State.nack
  with_reducible repeat' (first | assumption | apply State.answer_keeps)

theorem State.dropMsg_keeps {z s : State} (h : z.Keeps s) (p : Nat) :
    z.Keeps (State.dropMsg s p) := by
  unfold State.dropMsg
  with_reducible repeat' (first | assumption | apply State.count_keeps | apply State.logEv_keeps)

theorem State.landSignal_keeps {z s : State} (h : z.Keeps s) (c : Nat) (b : Nat) (inc : Nat) :
    z.Keeps (State.landSignal s c b inc) := by
  unfold State.landSignal
  with_reducible repeat' (first | assumption | apply State.raise_keeps | apply State.logEv_keeps | apply keeps_ite | split)

theorem State.setEdge_keeps {z s : State} (h : z.Keeps s) (convoy : Nat) (child : Nat) (e : Edge) :
    z.Keeps (State.setEdge s convoy child e) := by
  unfold State.setEdge
  with_reducible repeat' (first | assumption | extract_lets | dsimp +zetaDelta only | refine keeps_update ?_ rfl)

theorem State.setRelay_keeps {z s : State} (h : z.Keeps s) (r : Relay) :
    z.Keeps (State.setRelay s r) := by
  unfold State.setRelay
  with_reducible repeat' (first | assumption | extract_lets | dsimp +zetaDelta only | refine keeps_update ?_ rfl)

theorem State.addRelay_keeps {z s : State} (h : z.Keeps s) (r : Relay) :
    z.Keeps (State.addRelay s r) := by
  unfold State.addRelay
  with_reducible repeat' (first | assumption | extract_lets | dsimp +zetaDelta only | refine keeps_update ?_ rfl)

theorem State.dropRelay_keeps {z s : State} (h : z.Keeps s) (tid : Nat) :
    z.Keeps (State.dropRelay s tid) := by
  unfold State.dropRelay
  with_reducible repeat' (first | assumption | extract_lets | dsimp +zetaDelta only | refine keeps_update ?_ rfl)

theorem State.creditUp_keeps {z s : State} (h : z.Keeps s) (convoy : Nat) (flits : Nat) :
    z.Keeps (State.creditUp s convoy flits) := by
  unfold State.creditUp
  with_reducible repeat' (first
    | assumption | intro _ | apply State.emit_keeps | split)

theorem State.forwarded_keeps {z s : State} (h : z.Keeps s) (convoy : Nat) (m : Msg) :
    z.Keeps (State.forwarded s convoy m) := by
  unfold State.forwarded
  with_reducible repeat' (first
    | assumption | intro _ | apply State.creditUp_keeps | apply keeps_ite)

theorem State.pumpEdge_keeps {z s : State} (h : z.Keeps s) (convoy : Nat) (child : Nat) (x3 : Nat) :
    z.Keeps (State.pumpEdge s convoy child x3) := by
  induction x3 generalizing s with
  | zero =>
  unfold State.pumpEdge
  with_reducible repeat' (first | assumption)
  | succ m ih =>
  unfold State.pumpEdge
  with_reducible repeat' (first
    | assumption | apply State.forwarded_keeps | apply State.setEdge_keeps | apply State.setRelay_keeps | apply State.sendMsg_keeps | apply ih
    | apply keeps_ite | split | extract_lets)

theorem State.pumpEdges_keeps {z s : State} (h : z.Keeps s) (convoy : Nat) (child : Nat) :
    z.Keeps (State.pumpEdges s convoy child) := by
  unfold State.pumpEdges
  with_reducible repeat' (first | assumption | apply State.pumpEdge_keeps)

theorem State.sendDetach_keeps {z s : State} (h : z.Keeps s) (r : Relay) (child : Nat) (f : Nat) :
    z.Keeps (State.sendDetach s r child f) := by
  unfold State.sendDetach
  with_reducible repeat' (first | assumption | apply State.sendMsg_keeps)

theorem State.queueAll_keeps {z s : State} (h : z.Keeps s) (r : Relay) (kids : List RelayChild) (m : Msg) :
    z.Keeps (State.queueAll s r kids m) := by
  unfold State.queueAll
  with_reducible repeat' (first
    | assumption | intro _ | apply State.setEdge_keeps | apply keeps_foldl)

theorem State.forwardAll_keeps {z s : State} (h : z.Keeps s) (r : Relay) (m : Msg) :
    z.Keeps (State.forwardAll s r m) := by
  unfold State.forwardAll
  with_reducible repeat' (first
    | assumption | apply State.queueAll_keeps | apply State.creditUp_keeps | intro _ | apply State.setEdge_keeps | apply State.pumpEdges_keeps | apply keeps_ite | apply keeps_foldl)

theorem State.beginRelay_keeps {z s : State} (h : z.Keeps s) (r : Relay) :
    z.Keeps (State.beginRelay s r) := by
  unfold State.beginRelay
  with_reducible repeat' (first
    | assumption | intro _ | apply State.sendDetach_keeps | apply State.addRelay_keeps | apply keeps_ite | apply keeps_foldl)

theorem State.settleRelay_keeps {z s : State} (h : z.Keeps s) (tid : Nat) :
    z.Keeps (State.settleRelay s tid) := by
  unfold State.settleRelay
  with_reducible repeat' (first
    | assumption | apply State.count_keeps | intro _ | apply State.dropRelay_keeps | apply State.answered_keeps | apply State.setRelay_keeps
    | apply State.sendMsg_keeps | apply keeps_ite | apply keeps_iter | split)

theorem State.multicast_keeps {z s : State} (h : z.Keeps s) (t : Nat) (k : Task) (convoy : Nat) (vc : Nat) (src : Nat) (dst : Nat) (bs : List Byte) (bollard : Nat) (inc : Nat) (express : Bool) :
    z.Keeps (State.multicast s t k convoy vc src dst bs bollard inc express) := by
  unfold State.multicast
  with_reducible repeat' (first
    | assumption | intro _ | apply State.forwardAll_keeps | apply State.newTid_keeps | apply State.settleRelay_keeps
    | apply State.beginRelay_keeps | apply State.awaits_keeps | apply keeps_foldl | split)

theorem State.lostPartner_keeps {z s : State} (h : z.Keeps s) :
    z.Keeps (State.lostPartner s) := by
  unfold State.lostPartner
  with_reducible repeat' (first | assumption | apply State.jobFault_keeps)

theorem State.failLink_keeps {z s : State} (h : z.Keeps s) (p : Nat) :
    z.Keeps (State.failLink s p) := by
  unfold State.failLink
  with_reducible repeat' (first
    | assumption | apply State.dropRelay_keeps | apply State.commit_keeps | apply State.logHard_keeps | intro _ | apply State.setPort_keeps | apply State.abort_keeps | apply State.jobFault_keeps
    | apply State.put_keeps | apply State.logEv_keeps | apply State.lostPartner_keeps | apply keeps_ite | apply keeps_foldl | split)

theorem State.retrain_keeps {z s : State} (h : z.Keeps s) (p : Nat) :
    z.Keeps (State.retrain s p) := by
  unfold State.retrain
  with_reducible repeat' (first
    | assumption | apply State.failLink_keeps | apply State.setPort_keeps | apply State.riskAddK_keeps | apply State.put_keeps
    | apply State.count_keeps | apply State.logEv_keeps | apply State.emit_keeps | apply keeps_ite)

theorem State.readmit_keeps {z s : State} (h : z.Keeps s) (convoy : Nat) (child : Nat) :
    z.Keeps (State.readmit s convoy child) := by
  unfold State.readmit
  with_reducible repeat' (first | assumption | apply State.setEdge_keeps)

theorem State.detachChild_keeps {z s : State} (h : z.Keeps s) (convoy : Nat) (child : Nat) :
    z.Keeps (State.detachChild s convoy child) := by
  unfold State.detachChild
  with_reducible repeat' (first
    | assumption | apply State.forwarded_keeps | apply State.count_keeps | intro _ | apply State.sendDetach_keeps | apply State.setEdge_keeps | apply State.setRelay_keeps
    | apply State.settleRelay_keeps | apply keeps_foldl
    | split)

end Sys2Proof.Machine
end

