-- ==== Sys2Proof/Laws/KeepsWeigh.lean ====
section
/-! SUPPORT. What the operations of Machine/Weigh.lean keep (State.Keeps). -/

namespace Sys2Proof.Machine

theorem State.setInst_keeps {z s : State} (h : z.Keeps s) (k : Nat) (x : Inst) :
    z.Keeps (State.setInst s k x) := by
  unfold State.setInst
  with_reducible repeat' (first | assumption | extract_lets | dsimp +zetaDelta only | refine keeps_update ?_ rfl)

theorem State.closeInst_keeps {z s : State} (h : z.Keeps s) (e : Nat) (q : Bool) (j : Nat) (deadline : Bool) :
    z.Keeps (State.closeInst s e q j deadline) := by
  unfold State.closeInst
  with_reducible repeat' (first
    | assumption | apply State.countNum_keeps | apply State.transFault_keeps | apply State.writeNow_keeps | apply State.setInst_keeps
    | apply State.count_keeps | apply State.logEv_keeps | apply keeps_ite | split | refine ok_snd (by assumption) ?_
    | extract_lets)

theorem State.maybeClose_keeps {z s : State} (h : z.Keeps s) (e : Nat) (q : Bool) (j : Nat) :
    z.Keeps (State.maybeClose s e q j) := by
  unfold State.maybeClose
  with_reducible repeat' (first | assumption | apply State.closeInst_keeps | apply keeps_ite | split)

theorem State.accept1_keeps {z s : State} (h : z.Keeps s) (e : Nat) (q : Bool) (j : Nat) (rank : Nat) (mine : Bool) (x : Inst) (vs : List Num) :
    z.Keeps (State.accept1 s e q j rank mine x vs) := by
  unfold State.accept1
  with_reducible repeat' (first
    | assumption | apply State.maybeClose_keeps | apply State.setInst_keeps | apply State.count_keeps)

theorem State.openInst_keeps {z s : State} (h : z.Keeps s) (e : Nat) (q : Bool) (j : Nat) (step : Nat) (l : LayerDef) (r : ReductionDef) :
    z.Keeps (State.openInst s e q j step l r).2 := by
  unfold State.openInst
  with_reducible repeat' (first
    | assumption | apply State.setInst_keeps | split | extract_lets
    | refine keeps_update ?_ rfl)

theorem State.bookRefused_keeps {z s : State} (h : z.Keeps s) (k : Nat) (step : Nat) (rank : Nat) :
    z.Keeps (State.bookRefused s k step rank) := by
  unfold State.bookRefused
  with_reducible repeat' (first
    | assumption | intro _ | apply State.setInst_keeps | apply keeps_ite
    | split)

theorem State.contribute_keeps {z s : State} (h : z.Keeps s) (c : Nat) (srcPkg : Nat) (step : Nat) (dst : Nat) (bs : List Byte) (data : List Byte) :
    z.Keeps (State.contribute s c srcPkg step dst bs data).2 := by
  unfold State.contribute
  with_reducible repeat' (first
    | assumption | apply State.bookRefused_keeps | apply State.ranges_keeps | apply State.transFault_keeps | apply State.openInst_keeps | apply State.setInst_keeps
    | apply State.countError_keeps | apply State.count_keeps | apply State.accept1_keeps | apply State.logEv_keeps | split
    | refine eq_snd (by assumption) ?_)

theorem State.replyAcc_keeps {z s : State} (h : z.Keeps s) (m : Msg) (a : AccAnswer) :
    z.Keeps (State.replyAcc s m a) := by
  unfold State.replyAcc
  with_reducible repeat' (first | assumption | apply State.answer_keeps | apply State.nack_keeps | apply keeps_ite)

theorem execBucketDeadline_keeps {z s : State} (h : z.Keeps s) (entry : Nat) (round : Nat) (bucket : Nat) :
    ∃ u, execBucketDeadline entry round bucket s = .next u ∧ z.Keeps u := by
  refine ⟨_, rfl, ?_⟩
  with_reducible repeat' (first | assumption | apply State.closeInst_keeps | apply keeps_ite | split | extract_lets)

theorem State.closeRecord_keeps {z s : State} (h : z.Keeps s) (entry : Nat) (q : Bool) (k : Nat) (x : Inst) :
    z.Keeps (State.closeRecord s entry q k x) := by
  unfold State.closeRecord
  with_reducible repeat' (first
    | assumption | intro _ | apply State.raise_keeps | apply keeps_ite
    | split | extract_lets | dsimp +zetaDelta only | refine keeps_update ?_ rfl)

theorem execBucketCloseAcked_keeps {z s : State} (h : z.Keeps s) (entry : Nat) (round : Nat) (bucket : Nat) :
    ∃ u, execBucketCloseAcked entry round bucket s = .next u ∧ z.Keeps u := by
  refine ⟨_, rfl, ?_⟩
  with_reducible repeat' (first
    | assumption | apply State.closeRecord_keeps | apply State.setInst_keeps | apply State.raise_keeps | apply keeps_ite | split | extract_lets
    | dsimp +zetaDelta only | refine keeps_update ?_ rfl)

theorem State.bucketLanded_keeps {z s : State} (h : z.Keeps s) (layer : Nat) :
    z.Keeps (State.bucketLanded s layer) := by
  unfold State.bucketLanded
  with_reducible repeat' (first | assumption | apply State.setLayer_keeps | apply State.count_keeps | apply keeps_ite | split)

theorem State.paramLanded_keeps {z s : State} (h : z.Keeps s) (convoy : Nat) (bollard : Nat) (inc : Nat) :
    z.Keeps (State.paramLanded s convoy bollard inc) := by
  unfold State.paramLanded
  with_reducible repeat' (first | assumption | apply State.bucketLanded_keeps | apply keeps_ite | split)

theorem State.skipBucket_keeps {z s : State} (h : z.Keeps s) (e : Nat) (q : Bool) (j : Nat) (l : LayerDef) (r : ReductionDef) :
    z.Keeps (State.skipBucket s e q j l r) := by
  unfold State.skipBucket
  with_reducible repeat' (first
    | assumption | apply State.maybeClose_keeps | apply State.setInst_keeps | apply State.openInst_keeps | apply keeps_ite)

theorem State.skipBuckets_keeps {z s : State} (h : z.Keeps s) (e : Nat) (l : LayerDef) (r : ReductionDef) :
    z.Keeps (State.skipBuckets s e l r) := by
  unfold State.skipBuckets
  with_reducible repeat' (first
    | assumption | intro _ | apply State.skipBucket_keeps | apply keeps_ite | apply keeps_foldl)

theorem State.skipNotices_keeps {z s : State} (h : z.Keeps s) (c : Nat) (e : Nat) (r : ReductionDef) :
    z.Keeps (State.skipNotices s c e r) := by
  unfold State.skipNotices
  with_reducible repeat' (first
    | assumption | intro _ | apply State.sendXfer_keeps | apply State.newTid_keeps | apply keeps_foldl | split
    | refine eq_snd (by assumption) ?_)

theorem State.weighSkip_keeps {z s : State} (h : z.Keeps s) (c : Nat) :
    z.Keeps (State.weighSkip s c) := by
  unfold State.weighSkip
  with_reducible repeat' (first
    | assumption | intro _ | apply State.skipNotices_keeps | apply State.skipBuckets_keeps | apply keeps_ite | apply keeps_foldl
    | split)

theorem State.refusalBit_keeps {z s : State} (h : z.Keeps s) (tile : Nat) (c : Nat) (e : Nat) (j : Nat) (v : Bool) :
    Yields z.Keeps (State.refusalBit s tile c e j v) := by
  unfold State.refusalBit
  with_reducible repeat' (first
    | assumption | apply State.readVa_keeps | apply State.writeNow_keeps | split | apply yields_ok | apply yields_error
    | refine ok_snd (by assumption) ?_ | extract_lets)

theorem State.refusals_keeps {z s : State} (h : z.Keeps s) (tile : Nat) (c : Nat) (e : Nat) (n : Nat) :
    Yields (fun p => z.Keeps p.2) (State.refusals s tile c e n) := by
  unfold State.refusals
  with_reducible repeat' (first
    | assumption | apply State.readVa_keeps | split | apply yields_ok | apply yields_error | refine ok_snd (by assumption) ?_)

theorem State.accFinal_keeps {z s : State} (h : z.Keeps s) (t : Nat) (k : Task) (j : Nat) (a : AccAnswer) (exhausted : Bool) :
    Yields z.Keeps (State.accFinal s t k j a exhausted) := by
  unfold State.accFinal
  with_reducible repeat' (first
    | assumption | apply State.refusalBit_keeps | apply State.logEv_keeps | split | apply yields_ok | apply yields_error)

theorem State.accLocal_keeps {z s : State} (h : z.Keeps s) (t : Nat) (k : Task) (bs : List Byte) (x4 : List (Nat × Nat × Nat)) :
    Yields z.Keeps (State.accLocal s t k bs x4) := by
  induction x4 generalizing s with
  | nil =>
  unfold State.accLocal
  with_reducible repeat' (first | assumption | apply yields_ok)
  | cons y l ih =>
  unfold State.accLocal
  with_reducible repeat' (first
    | assumption | apply State.contribute_keeps | apply State.accFinal_keeps | apply ih | split | apply yields_error
    | refine ok_self (by assumption) ?_ | refine eq_snd (by assumption) ?_ | extract_lets)

theorem State.sendAcc_keeps {z s : State} (h : z.Keeps s) (t : Nat) (k : Task) (owner : Nat) (port : Nat) (xid : Nat) (dst : Nat) (bs : List Byte) :
    z.Keeps (State.sendAcc s t k owner port xid dst bs) := by
  unfold State.sendAcc
  with_reducible repeat' (first | assumption | apply State.sendXfer_keeps)

theorem State.accRun_keeps {z s : State} (h : z.Keeps s) (t : Nat) (k : Task) :
    Yields (fun p => z.Keeps p.1) (State.accRun s t k) := by
  unfold State.accRun
  with_reducible repeat' (first
    | assumption | apply State.refuse_keeps | intro _ | apply State.readVa_keeps | apply State.sendAcc_keeps | apply State.newTid_keeps
    | apply State.awaits_keeps | apply State.accLocal_keeps | apply keeps_foldl | split | apply yields_ok | apply yields_error
    | refine ok_self (by assumption) ?_ | refine ok_snd (by assumption) ?_ | extract_lets | dsimp +zetaDelta only
    | refine keeps_update ?_ rfl)

theorem execAcc_keeps {z s : State} (h : z.Keeps s) (t : TileId) :
    ∃ u, execAcc t s = .next u ∧ z.Keeps u := by
  refine ⟨_, rfl, ?_⟩
  with_reducible repeat' (first | assumption | intro _ | apply State.runTask_keeps | apply State.accRun_keeps)

theorem State.accDone_keeps {z s : State} (h : z.Keeps s) (o : AccOut) (a : AccAnswer) (exhausted : Bool) :
    z.Keeps (State.accDone s o a exhausted) := by
  unfold State.accDone
  with_reducible repeat' (first
    | assumption | apply State.dropXfer_keeps | apply State.answered_keeps | apply State.stopTask_keeps
    | apply State.accFinal_keeps | split | refine ok_self (by assumption) ?_ | extract_lets | dsimp +zetaDelta only
    | refine keeps_update ?_ rfl)

theorem State.accResend_keeps {z s : State} (h : z.Keeps s) (o : AccOut) :
    z.Keeps (State.accResend s o) := by
  unfold State.accResend
  with_reducible repeat' (first
    | assumption | apply State.readVa_keeps | apply State.sendAcc_keeps | apply State.stopTask_keeps | split
    | refine ok_snd (by assumption) ?_ | extract_lets | dsimp +zetaDelta only | refine keeps_update ?_ rfl)

theorem State.accReply_keeps {z s : State} (h : z.Keeps s) (m : Msg) :
    z.Keeps (State.accReply s m) := by
  unfold State.accReply
  with_reducible repeat' (first
    | assumption | apply State.accDone_keeps | apply State.accResend_keeps | apply keeps_ite | split | extract_lets)

theorem State.projRun_keeps {z s : State} (h : z.Keeps s) (t : Nat) (k : Task) :
    Yields (fun p => z.Keeps p.1) (State.projRun s t k) := by
  unfold State.projRun
  with_reducible repeat' (first
    | assumption | apply State.refuse_keeps | apply State.countMacs_keeps | apply State.commit_keeps | apply State.readTensor_keeps | split
    | apply yields_ok | apply yields_error | refine ok_snd (by assumption) ?_ | extract_lets)

theorem execLowrankProject_keeps {z s : State} (h : z.Keeps s) (t : TileId) :
    ∃ u, execLowrankProject t s = .next u ∧ z.Keeps u := by
  refine ⟨_, rfl, ?_⟩
  with_reducible repeat' (first | assumption | intro _ | apply State.runTask_keeps | apply State.projRun_keeps)

theorem State.qRows_keeps {z s : State} (h : z.Keeps s) (t : Nat) (k : Task) (rows : List (List Num)) :
    Yields (fun p => z.Keeps p.2) (State.qRows s t k rows) := by
  unfold State.qRows
  with_reducible repeat' (first
    | assumption | apply State.refusals_keeps | split | apply yields_ok | apply yields_error
    | refine ok_snd (by assumption) ?_)

theorem State.reconRun_keeps {z s : State} (h : z.Keeps s) (t : Nat) (k : Task) :
    Yields (fun p => z.Keeps p.1) (State.reconRun s t k) := by
  unfold State.reconRun
  with_reducible repeat' (first
    | assumption | apply State.refuse_keeps | apply State.countMacs_keeps | apply State.qRows_keeps | apply State.commit_keeps
    | apply State.readTensor_keeps | split | apply yields_error | refine ok_snd (by assumption) ?_ | extract_lets)

theorem execReconstructOwner_keeps {z s : State} (h : z.Keeps s) (t : TileId) :
    ∃ u, execReconstructOwner t s = .next u ∧ z.Keeps u := by
  refine ⟨_, rfl, ?_⟩
  with_reducible repeat' (first | assumption | intro _ | apply State.runTask_keeps | apply State.reconRun_keeps)

theorem execReconstructResidual_keeps {z s : State} (h : z.Keeps s) (t : TileId) :
    ∃ u, execReconstructResidual t s = .next u ∧ z.Keeps u := by
  refine ⟨_, rfl, ?_⟩
  with_reducible repeat' (first | assumption | intro _ | apply State.runTask_keeps | apply State.reconRun_keeps)

theorem State.gramRun_keeps {z s : State} (h : z.Keeps s) (t : Nat) (k : Task) :
    Yields (fun p => z.Keeps p.1) (State.gramRun s t k) := by
  unfold State.gramRun
  with_reducible repeat' (first
    | assumption | apply State.refuse_keeps | apply State.commit_keeps | apply State.readTensor_keeps | split | apply yields_error
    | refine ok_snd (by assumption) ?_ | extract_lets)

theorem execOrthoGram_keeps {z s : State} (h : z.Keeps s) (t : TileId) :
    ∃ u, execOrthoGram t s = .next u ∧ z.Keeps u := by
  refine ⟨_, rfl, ?_⟩
  with_reducible repeat' (first | assumption | intro _ | apply State.runTask_keeps | apply State.gramRun_keeps)

theorem State.factorRun_keeps {z s : State} (h : z.Keeps s) (t : Nat) (k : Task) :
    Yields (fun p => z.Keeps p.1) (State.factorRun s t k) := by
  unfold State.factorRun
  with_reducible repeat' (first
    | assumption | apply keeps_iter | intro _ | apply State.refuse_keeps | apply State.count_keeps | apply State.commit_keeps | apply State.readTensor_keeps | apply State.logEv_keeps
    | apply keeps_ite | split | apply yields_error | refine ok_snd (by assumption) ?_ | extract_lets)

theorem execOrthoFactor_keeps {z s : State} (h : z.Keeps s) (t : TileId) :
    ∃ u, execOrthoFactor t s = .next u ∧ z.Keeps u := by
  refine ⟨_, rfl, ?_⟩
  with_reducible repeat' (first | assumption | intro _ | apply State.runTask_keeps | apply State.factorRun_keeps)

theorem State.applyRun_keeps {z s : State} (h : z.Keeps s) (t : Nat) (k : Task) :
    Yields (fun p => z.Keeps p.1) (State.applyRun s t k) := by
  unfold State.applyRun
  with_reducible repeat' (first
    | assumption | apply State.refuse_keeps | apply State.readVa_keeps | apply State.commit_keeps | apply State.readTensor_keeps | split
    | apply yields_error | refine ok_snd (by assumption) ?_ | extract_lets)

theorem execOrthoApply_keeps {z s : State} (h : z.Keeps s) (t : TileId) :
    ∃ u, execOrthoApply t s = .next u ∧ z.Keeps u := by
  refine ⟨_, rfl, ?_⟩
  with_reducible repeat' (first | assumption | intro _ | apply State.runTask_keeps | apply State.applyRun_keeps)

theorem State.optRun_keeps {z s : State} (h : z.Keeps s) (t : Nat) (k : Task) :
    Yields (fun p => z.Keeps p.1) (State.optRun s t k) := by
  unfold State.optRun
  with_reducible repeat' (first
    | assumption | apply State.refuse_keeps | apply State.multicast_keeps | apply State.readVa_keeps | apply State.commit_keeps
    | apply State.modTask_keeps | apply State.readTensor_keeps | split | apply yields_ok | apply yields_error
    | apply yields_ite | refine ok_snd (by assumption) ?_ | refine ok_fst (by assumption) ?_ | extract_lets)

theorem execOptStepSgd_keeps {z s : State} (h : z.Keeps s) (t : TileId) :
    ∃ u, execOptStepSgd t s = .next u ∧ z.Keeps u := by
  refine ⟨_, rfl, ?_⟩
  with_reducible repeat' (first | assumption | intro _ | apply State.runTask_keeps | apply State.optRun_keeps)

theorem execOptStepAdamw_keeps {z s : State} (h : z.Keeps s) (t : TileId) :
    ∃ u, execOptStepAdamw t s = .next u ∧ z.Keeps u := by
  refine ⟨_, rfl, ?_⟩
  with_reducible repeat' (first | assumption | intro _ | apply State.runTask_keeps | apply State.optRun_keeps)

end Sys2Proof.Machine
end

