-- ==== Sys2Proof/Laws/KeepsScales.lean ====
section
/-! SUPPORT. What the operations of Machine/Scales.lean keep (State.Keeps). -/

namespace Sys2Proof.Machine

theorem State.loadHistory_keeps {z s : State} (h : z.Keeps s) (bs : List Byte) :
    z.Keeps (State.loadHistory s bs) := by
  unfold State.loadHistory
  with_reducible repeat' (first | assumption | intro _ | apply State.setLayer_keeps | apply keeps_foldl)

end Sys2Proof.Machine
end

