-- ==== Sys2Proof/Laws/KeepsSecure.lean ====
section
/-! SUPPORT. What the operations of Machine/Secure.lean keep (State.Keeps). -/

namespace Sys2Proof.Machine

theorem State.modCopy_keeps {z s : State} (h : z.Keeps s) (f : CopySt → CopySt) :
    z.Keeps (State.modCopy s f) := by
  unfold State.modCopy
  with_reducible repeat' (first | assumption | extract_lets | dsimp +zetaDelta only | refine keeps_update ?_ rfl)

theorem State.sendTarget_keeps {z s : State} (h : z.Keeps s) (T : Nat) :
    z.Keeps (State.sendTarget s T) := by
  unfold State.sendTarget
  with_reducible repeat' (first
    | assumption | intro _ | apply State.transFault_keeps | apply State.writeNow_keeps | apply State.sendXfer_keeps
    | apply State.raise_keeps | apply State.newTid_keeps | apply keeps_ite | apply keeps_foldl | split
    | refine ok_snd (by assumption) ?_)

theorem State.targetAcked_keeps {z s : State} (h : z.Keeps s) (x : Xfer) :
    z.Keeps (State.targetAcked s x) := by
  unfold State.targetAcked
  with_reducible repeat' (first
    | assumption | intro _ | apply State.sendXfer_keeps | apply State.newTid_keeps
    | split)

theorem State.requestSecure_keeps {z s : State} (h : z.Keeps s) (T : Nat) :
    z.Keeps (State.requestSecure s T) := by
  unfold State.requestSecure
  with_reducible repeat' (first | assumption | apply State.sendTarget_keeps | apply State.logEv_keeps)

theorem State.requestEff_keeps {z s : State} (h : z.Keeps s) (v : Nat) :
    Yields z.Keeps (State.requestEff s v) := by
  unfold State.requestEff
  with_reducible repeat' (first
    | assumption | apply State.requestSecure_keeps | split | apply yields_ok | apply yields_error | apply yields_ite)

theorem execRequestTarget_keeps {z s : State} (h : z.Keeps s) (src : Src) (value : Nat) :
    ∃ u, execRequestTarget src value s = .next u ∧ z.Keeps u := by
  refine ⟨_, rfl, ?_⟩
  with_reducible repeat' (first | assumption | intro _ | apply State.requestEff_keeps | apply State.guarded_keeps)

theorem State.riskRequest_keeps {z s : State} (h : z.Keeps s) :
    z.Keeps (State.riskRequest s) := by
  unfold State.riskRequest
  with_reducible repeat' (first
    | assumption | apply State.requestSecure_keeps | apply keeps_ite | extract_lets | dsimp only | dsimp +zetaDelta only
    | refine keeps_update ?_ rfl)

theorem execRiskUpdate_keeps {z s : State} (h : z.Keeps s) :
    ∃ u, execRiskUpdate s = .next u ∧ z.Keeps u := by
  refine ⟨_, rfl, ?_⟩
  with_reducible repeat' (first
    | assumption | apply State.riskCompute_keeps | apply State.riskRequest_keeps | apply keeps_ite)

theorem State.storeAt_keeps {z s : State} (h : z.Keeps s) (cp : CopySt) (owner : XOwner) (vc : Nat) (off : Nat) (bs : List Byte) :
    z.Keeps (State.storeAt s cp owner vc off bs) := by
  unfold State.storeAt
  with_reducible repeat' (first
    | assumption | apply State.transFault_keeps | apply State.writeNow_keeps | apply State.sendXfer_keeps
    | apply State.modCopy_keeps | apply State.newTid_keeps | apply State.awaits_keeps | split
    | refine ok_snd (by assumption) ?_ | extract_lets | dsimp +zetaDelta only)

theorem State.openCopy_keeps {z s : State} (h : z.Keeps s) (T : Nat) :
    z.Keeps (State.openCopy s T) := by
  unfold State.openCopy
  with_reducible repeat' (first
    | assumption | apply State.commit_keeps | apply State.lostPartner_keeps | apply State.storeAt_keeps | apply State.abandonCopy_keeps
    | apply State.raise_keeps | apply State.put_keeps | apply keeps_ite | split | extract_lets | dsimp +zetaDelta only
    | refine keeps_update ?_ rfl)

theorem State.openDue_keeps {z s : State} (h : z.Keeps s) (c : Nat) (T : Nat) :
    z.Keeps (State.openDue s c T) := by
  unfold State.openDue
  with_reducible repeat' (first
    | assumption | apply State.openCopy_keeps | apply State.put_keeps | apply State.logEv_keeps | apply keeps_ite | split
    | extract_lets | dsimp +zetaDelta only | refine keeps_update ?_ rfl)

theorem State.recordAcked_keeps {z s : State} (h : z.Keeps s) (owner : XOwner) (xid : Nat) :
    z.Keeps (State.recordAcked s owner xid) := by
  unfold State.recordAcked
  with_reducible repeat' (first
    | assumption | apply State.commit_keeps | apply State.raise_keeps | apply State.storeAt_keeps | apply State.answered_keeps | apply State.put_keeps | apply State.modCopy_keeps
    | apply State.count_keeps | apply keeps_ite | split)

theorem State.readHalf_keeps {z s : State} (h : z.Keeps s) (tile : Option Nat) (c : Nat) (va : Nat) (x4 : Nat) (x5 : Nat) :
    Yields (fun p => z.Keeps p.2) (State.readHalf s tile c va x4 x5) := by
  induction x4 generalizing s va x5 with
  | zero =>
  unfold State.readHalf
  with_reducible repeat' (first | assumption | apply yields_ok)
  | succ m ih =>
  unfold State.readHalf
  with_reducible repeat' (first
    | assumption | apply State.translate_keeps | apply ih | split | apply yields_ok | apply yields_error | apply yields_ite
    | refine ok_snd (by assumption) ?_)

theorem secureMove_keeps {z s : State} (h : z.Keeps s) (t : Nat) (k : Task) (from_ : Nat) (n : Nat) :
    Yields z.Keeps (secureMove s t k from_ n) := by
  unfold secureMove
  with_reducible repeat' (first
    | assumption | apply State.refuse_keeps | apply State.storeAt_keeps | apply State.readHalf_keeps | apply State.modCopy_keeps | split
    | apply yields_ok | apply yields_error | refine ok_snd (by assumption) ?_ | extract_lets)

theorem execSecureCopy_keeps {z s : State} (h : z.Keeps s) (t : TileId) (units : Nat) :
    ∃ u, execSecureCopy t units s = .next u ∧ z.Keeps u := by
  refine ⟨_, rfl, ?_⟩
  with_reducible repeat' (first | assumption | intro _ | apply State.runDma_keeps | apply secureMove_keeps)

theorem execSecureCommit_keeps {z s : State} (h : z.Keeps s) :
    ∃ u, execSecureCommit s = .next u ∧ z.Keeps u := by
  refine ⟨_, rfl, ?_⟩
  with_reducible repeat' (first
    | assumption | apply State.commit_keeps | apply State.storeAt_keeps | apply State.put_keeps | apply State.modCopy_keeps | apply keeps_ite | split
    | extract_lets | dsimp +zetaDelta only | refine keeps_update ?_ rfl)

theorem State.copyGranule_keeps {z s : State} (h : z.Keeps s) (c : Nat) (r : Region) (off : Nat) :
    Yields z.Keeps (State.copyGranule s c r off) := by
  unfold State.copyGranule
  with_reducible repeat' (first
    | assumption | intro _ | apply State.takeLines_keeps | apply State.translate_keeps | apply State.writeAt_keeps
    | apply State.poisonAt_keeps | apply keeps_foldl | split | apply yields_ok | apply yields_error
    | refine ok_snd (by assumption) ?_)

theorem State.swapCopy_keeps {z s : State} (h : z.Keeps s) (c : Nat) (marks : AMap Nat) :
    z.Keeps (State.swapCopy s c marks) := by
  unfold State.swapCopy
  with_reducible repeat' (first
    | assumption | intro _ | apply State.transFault_keeps | apply State.copyGranule_keeps | apply keeps_ite
    | apply keeps_foldl | split | refine ok_self (by assumption) ?_)

theorem State.flipLive_keeps {z s : State} (h : z.Keeps s) :
    z.Keeps (State.flipLive s) := by
  unfold State.flipLive
  with_reducible repeat' (first | assumption | extract_lets | dsimp +zetaDelta only | refine keeps_update ?_ rfl)

theorem State.swapEnd_keeps {z s : State} (h : z.Keeps s) (cp : CopySt) : z.Keeps (State.swapEnd s cp) := by
  unfold State.swapEnd
  with_reducible repeat' (first
    | assumption | apply State.swapCopy_keeps | apply State.raise_keeps | apply State.put_keeps
    | apply State.count_keeps | apply State.flipLive_keeps | apply State.logEv_keeps | apply keeps_ite | split | extract_lets
    | dsimp +zetaDelta only | refine keeps_update ?_ rfl)

theorem execSwapDone_keeps {z s : State} (h : z.Keeps s) :
    ∃ u, execSwapDone s = .next u ∧ z.Keeps u := by
  refine ⟨_, rfl, ?_⟩
  with_reducible repeat' (first
    | assumption | apply State.swapEnd_keeps | apply State.openCopy_keeps | apply keeps_ite | split | extract_lets
    | dsimp +zetaDelta only | refine keeps_update ?_ rfl)

theorem execSecureTimeout_keeps {z s : State} (h : z.Keeps s) :
    ∃ u, execSecureTimeout s = .next u ∧ z.Keeps u := by
  refine ⟨_, rfl, ?_⟩
  with_reducible repeat' (first | assumption | apply State.abandonCopy_keeps | apply keeps_ite | split)

theorem State.restoreFail_keeps {z s : State} (h : z.Keeps s) (code : Nat) :
    z.Keeps (State.restoreFail s code) := by
  unfold State.restoreFail
  with_reducible repeat' (first
    | assumption | apply State.put_keeps | apply State.logEv_keeps
    | extract_lets | apply keeps_ite)

theorem State.loadEff_keeps {z s : State} (h : z.Keeps s) (remote : List Byte) :
    Yields z.Keeps (State.loadEff s remote) := by
  unfold State.loadEff
  with_reducible repeat' (first
    | assumption | apply State.put_keeps | apply State.restoreFail_keeps | split | apply yields_ok | apply yields_error
    | extract_lets | dsimp +zetaDelta only | refine keeps_update ?_ rfl)

theorem execRestoreLoad_keeps {z s : State} (h : z.Keeps s) (src : Src) (remote : List Byte) :
    ∃ u, execRestoreLoad src remote s = .next u ∧ z.Keeps u := by
  refine ⟨_, rfl, ?_⟩
  with_reducible repeat' (first | assumption | intro _ | apply State.guarded_keeps | apply State.loadEff_keeps)

theorem State.writeHalf_keeps {z s : State} (h : z.Keeps s) (c : Nat) (va : Nat) (bs : List Byte) :
    z.Keeps (State.writeHalf s c va bs).1 := by
  unfold State.writeHalf
  refine List.foldlRecOn (motive := fun r : State × Option Nat => z.Keeps r.1) _ _ h ?_
  rintro ⟨t, o⟩ ht u -
  cases o with
  | some code => exact ht
  | none =>
    dsimp only
    split
    · exact State.transFault_keeps ht ..
    · exact ht
    · next e => exact State.writeAt_keeps (State.takeLines_keeps (ok_snd e (by apply State.translate_keeps; exact ht)) ..) ..

theorem State.loadChunks_keeps {z s : State} (h : z.Keeps s) (hd : Head) (remote : List Byte) (x3 : Nat) (x4 : Nat) (x5 : List (List Byte)) :
    z.Keeps (State.loadChunks s hd remote x3 x4 x5).1 := by
  induction x5 generalizing s x3 x4 with
  | nil => exact h
  | cons y l ih =>
    unfold State.loadChunks
    split
    · exact h
    · split
      · next e => exact eq_fst e (State.writeHalf_keeps h ..)
      · next e => exact ih (eq_fst e (State.writeHalf_keeps h ..)) ..

theorem State.loadData_keeps {z s : State} (h : z.Keeps s) (hd : Head) (remote : List Byte) :
    z.Keeps (State.loadData s hd remote).1 := by
  unfold State.loadData
  split
  · exact State.flipLive_keeps h
  · exact State.loadChunks_keeps (keeps_update h rfl) ..

theorem State.loadFinish_keeps {z s : State} (h : z.Keeps s) (h : Head) :
    z.Keeps (State.loadFinish s h) := by
  unfold State.loadFinish
  with_reducible repeat' (first
    | assumption | intro _ | apply State.transFault_keeps | apply State.writeNow_keeps | apply State.loadHistory_keeps
    | apply State.put_keeps | apply State.setLayer_keeps | apply keeps_ite | apply keeps_foldl | split
    | refine ok_snd (by assumption) ?_)

theorem execRestoreLoadDone_keeps {z s : State} (h : z.Keeps s) (remote : List Byte) :
    ∃ u, execRestoreLoadDone remote s = .next u ∧ z.Keeps u := by
  refine ⟨_, rfl, ?_⟩
  split
  · exact h
  · dsimp only
    split
    · next e => exact State.restoreFail_keeps (eq_fst e (State.loadData_keeps h ..)) _
    · next e =>
      have g := eq_fst e (State.loadData_keeps h ..)
      split
      · exact State.loadFinish_keeps g _
      · exact State.restoreFail_keeps g _

theorem State.verifyEff_keeps {z s : State} (h : z.Keeps s) :
    Yields z.Keeps (State.verifyEff s) := by
  unfold State.verifyEff
  with_reducible repeat' (first | assumption | apply State.put_keeps | split | apply yields_ok | apply yields_error)

theorem execRestoreVerify_keeps {z s : State} (h : z.Keeps s) (src : Src) :
    ∃ u, execRestoreVerify src s = .next u ∧ z.Keeps u := by
  refine ⟨_, rfl, ?_⟩
  with_reducible repeat' (first | assumption | intro _ | apply State.guarded_keeps | apply State.verifyEff_keeps)

theorem execRestoreVerifyDone_keeps {z s : State} (h : z.Keeps s) (replicas : List (List Nat)) :
    ∃ u, execRestoreVerifyDone replicas s = .next u ∧ z.Keeps u := by
  refine ⟨_, rfl, ?_⟩
  with_reducible repeat' (first
    | assumption | apply State.put_keeps | apply State.restoreFail_keeps | apply State.count_keeps | apply keeps_ite)

end Sys2Proof.Machine
end

