-- ==== Sys2Proof/Laws/KeepsFabric.lean ====
section
/-! SUPPORT. What the operations of Machine/Fabric.lean keep (State.Keeps). -/

namespace Sys2Proof.Machine

theorem putRun_keeps {z s : State} (h : z.Keeps s) (t : Nat) (k : Task) :
    Yields (fun p => z.Keeps p.1) (putRun s t k) := by
  unfold putRun
  with_reducible repeat' (first
    | assumption | apply State.readVa_keeps | apply State.sendXfer_keeps | apply State.newTid_keeps | apply State.awaits_keeps
    | split | apply yields_ok | apply yields_error | refine ok_snd (by assumption) ?_ | refine eq_snd (by assumption) ?_)

theorem execPut_keeps {z s : State} (h : z.Keeps s) (t : TileId) :
    ∃ u, execPut t s = .next u ∧ z.Keeps u := by
  refine ⟨_, rfl, ?_⟩
  with_reducible repeat' (first | assumption | intro _ | apply State.runTask_keeps | apply putRun_keeps)

theorem getRun_keeps {z s : State} (h : z.Keeps s) (t : Nat) (k : Task) :
    Yields (fun p => z.Keeps p.1) (getRun s t k) := by
  unfold getRun
  with_reducible repeat' (first
    | assumption | apply State.sendXfer_keeps | apply State.newTid_keeps | apply State.awaits_keeps | split | apply yields_ok
    | apply yields_error | refine eq_snd (by assumption) ?_)

theorem execGet_keeps {z s : State} (h : z.Keeps s) (t : TileId) :
    ∃ u, execGet t s = .next u ∧ z.Keeps u := by
  refine ⟨_, rfl, ?_⟩
  with_reducible repeat' (first | assumption | intro _ | apply State.runTask_keeps | apply getRun_keeps)

theorem mcastRun_keeps {z s : State} (h : z.Keeps s) (t : Nat) (k : Task) :
    Yields (fun p => z.Keeps p.1) (mcastRun s t k) := by
  unfold mcastRun
  with_reducible repeat' (first
    | assumption | apply State.multicast_keeps | apply State.readVa_keeps | split | apply yields_ok | apply yields_error
    | refine ok_snd (by assumption) ?_)

theorem execMcast_keeps {z s : State} (h : z.Keeps s) (t : TileId) :
    ∃ u, execMcast t s = .next u ∧ z.Keeps u := by
  refine ⟨_, rfl, ?_⟩
  with_reducible repeat' (first | assumption | intro _ | apply State.runTask_keeps | apply mcastRun_keeps)

theorem State.groupSignal_keeps {z s : State} (h : z.Keeps s) (t : Nat) (k : Task) (pkg : Nat) (port : Nat) :
    z.Keeps (State.groupSignal s t k pkg port) := by
  unfold State.groupSignal
  with_reducible repeat' (first
    | assumption | apply State.sendXfer_keeps | apply State.newTid_keeps | apply State.landSignal_keeps
    | apply State.awaits_keeps | apply keeps_ite)

theorem State.sendParcels_keeps {z s : State} (h : z.Keeps s) (t : Nat) (k : Task) (typ : Nat) (pkg : Nat) (port : Nat) (member : Bool) (ps : List Parcel) :
    Yields z.Keeps (State.sendParcels s t k typ pkg port member ps) := by
  unfold State.sendParcels
  with_reducible repeat' (first
    | assumption | apply State.groupSignal_keeps | apply State.sendXfer_keeps | apply State.writeAll_keeps
    | apply State.newTid_keeps | apply State.awaits_keeps | split | apply yields_ok | apply yields_error
    | refine ok_self (by assumption) ?_ | refine eq_snd (by assumption) ?_)

theorem State.sendGroups_keeps {z s : State} (h : z.Keeps s) (t : Nat) (k : Task) (typ : Nat) (ps : List Parcel) (group : List Nat) (x6 : List (Nat × Nat)) :
    Yields z.Keeps (State.sendGroups s t k typ ps group x6) := by
  induction x6 generalizing s with
  | nil =>
  unfold State.sendGroups
  with_reducible repeat' (first | assumption | apply yields_ok)
  | cons y l ih =>
  unfold State.sendGroups
  with_reducible repeat' (first
    | assumption | apply State.sendParcels_keeps | apply ih | split | apply yields_error | refine ok_self (by assumption) ?_
    | extract_lets)

theorem State.readTokens_keeps {z s : State} (h : z.Keeps s) (t : Nat) (k : Task) (base : Nat) (x4 : List (Nat × Option Nat)) :
    Yields (fun p => z.Keeps p.2) (State.readTokens s t k base x4) := by
  induction x4 generalizing s with
  | nil =>
  unfold State.readTokens
  with_reducible repeat' (first | assumption | apply yields_ok)
  | cons y l ih =>
  unfold State.readTokens
  with_reducible repeat' (first
    | assumption | apply State.readVa_keeps | apply ih | split | apply yields_ok | apply yields_error
    | refine ok_snd (by assumption) ?_)

theorem dispatchRun_keeps {z s : State} (h : z.Keeps s) (t : Nat) (k : Task) :
    Yields (fun p => z.Keeps p.1) (dispatchRun s t k) := by
  unfold dispatchRun
  with_reducible repeat' (first
    | assumption | apply State.refuse_keeps | intro _ | apply State.readVa_keeps | apply State.readTokens_keeps | apply State.writeBytes_keeps
    | apply State.sendGroups_keeps | apply State.sendXfer_keeps | apply State.newTid_keeps | apply State.count_keeps
    | apply State.awaits_keeps | apply State.logEv_keeps | split | apply yields_ok | apply yields_error
    | exact ok_self rfl (by assumption) | apply yields_foldl | refine ok_self (by assumption) ?_
    | refine ok_snd (by assumption) ?_ | refine eq_snd (by assumption) ?_ | extract_lets)

theorem execDispatch_keeps {z s : State} (h : z.Keeps s) (t : TileId) :
    ∃ u, execDispatch t s = .next u ∧ z.Keeps u := by
  refine ⟨_, rfl, ?_⟩
  with_reducible repeat' (first | assumption | intro _ | apply State.runTask_keeps | apply dispatchRun_keeps)

theorem combineRun_keeps {z s : State} (h : z.Keeps s) (t : Nat) (k : Task) :
    Yields (fun p => z.Keeps p.1) (combineRun s t k) := by
  unfold combineRun
  with_reducible repeat' (first
    | assumption | apply State.refuse_keeps | apply State.readVa_keeps | apply State.readTokens_keeps | apply State.sendGroups_keeps | split
    | apply yields_ok | apply yields_error | apply yields_ite | refine ok_self (by assumption) ?_
    | refine ok_snd (by assumption) ?_ | extract_lets)

theorem execCombine_keeps {z s : State} (h : z.Keeps s) (t : TileId) :
    ∃ u, execCombine t s = .next u ∧ z.Keeps u := by
  refine ⟨_, rfl, ?_⟩
  with_reducible repeat' (first | assumption | intro _ | apply combineRun_keeps | apply State.runTask_keeps)

theorem State.transit_keeps {z s : State} (h : z.Keeps s) (p : Nat) (m : Msg) :
    z.Keeps (State.transit s p m) := by
  unfold State.transit
  with_reducible repeat' (first
    | assumption | apply State.returnCredit_keeps | apply State.setPort_keeps | apply State.dropMsg_keeps | apply State.sendMsg_keeps | apply State.count_keeps | apply keeps_ite | split)

theorem State.arrive_keeps {z s : State} (h : z.Keeps s) (p : Nat) (m : Msg) (f : State → State) (hf : ∀ u, z.Keeps u → z.Keeps (f u)) :
    z.Keeps (State.arrive s p m f) := by
  unfold State.arrive
  with_reducible repeat' (first
    | assumption | apply State.returnCredit_keeps | apply State.setPort_keeps | apply State.rx_keeps | apply State.transit_keeps | apply State.dropMsg_keeps | apply State.work_keeps | apply State.count_keeps
    | apply State.napWake_keeps | apply hf | apply keeps_ite)

theorem State.land_keeps {z s : State} (h : z.Keeps s) (m : Msg) (va : Nat) :
    z.Keeps (State.land s m va).2 := by
  unfold State.land
  with_reducible repeat' (first
    | assumption | apply State.transFault_keeps | apply State.writeNow_keeps | apply State.jobFault_keeps | split
    | refine ok_snd (by assumption) ?_)

theorem State.landPut_keeps {z s : State} (h : z.Keeps s) (m : Msg) :
    z.Keeps (State.landPut s m) := by
  unfold State.landPut
  with_reducible repeat' (first
    | assumption | apply State.nack_keeps | apply State.ack_keeps | apply State.land_keeps | apply State.landSignal_keeps
    | apply keeps_ite | split | refine eq_snd (by assumption) ?_)

theorem execMsgPut_keeps {z s : State} (h : z.Keeps s) (p : HawserPort) (m : Msg) :
    ∃ u, execMsgPut p m s = .next u ∧ z.Keeps u := by
  refine ⟨_, rfl, ?_⟩
  with_reducible repeat' (first | assumption | intro _ | apply State.landPut_keeps | apply State.arrive_keeps)

theorem execMsgDispatch_keeps {z s : State} (h : z.Keeps s) (p : HawserPort) (m : Msg) :
    ∃ u, execMsgDispatch p m s = .next u ∧ z.Keeps u := by
  refine ⟨_, rfl, ?_⟩
  with_reducible repeat' (first | assumption | intro _ | apply State.landPut_keeps | apply State.arrive_keeps)

theorem execMsgCombine_keeps {z s : State} (h : z.Keeps s) (p : HawserPort) (m : Msg) :
    ∃ u, execMsgCombine p m s = .next u ∧ z.Keeps u := by
  refine ⟨_, rfl, ?_⟩
  with_reducible repeat' (first | assumption | intro _ | apply State.landPut_keeps | apply State.arrive_keeps)

theorem execMsgSignal_keeps {z s : State} (h : z.Keeps s) (p : HawserPort) (m : Msg) :
    ∃ u, execMsgSignal p m s = .next u ∧ z.Keeps u := by
  refine ⟨_, rfl, ?_⟩
  with_reducible repeat' (first
    | assumption | intro _ | apply State.ack_keeps | apply State.arrive_keeps | apply State.landSignal_keeps)

theorem State.getResp_keeps {z s : State} (h : z.Keeps s) (m : Msg) (bs : List Byte) (last : Bool) (bollard : Nat) (inc : Nat) :
    z.Keeps (State.getResp s m bs last bollard inc) := by
  unfold State.getResp
  with_reducible repeat' (first | assumption | apply State.sendMsg_keeps)

theorem State.answerData_keeps {z s : State} (h : z.Keeps s) (m : Msg) (pa : Nat) (code : Nat) :
    z.Keeps (State.answerData s m pa code) := by
  unfold State.answerData
  with_reducible repeat' (first
    | assumption | intro _ | apply State.nack_keeps | apply State.countError_keeps
    | apply State.jobFault_keeps | apply State.logEv_keeps | apply keeps_ite
)

theorem State.answerRead_keeps {z s : State} (h : z.Keeps s) (m : Msg) (n : Nat) (last : Bool) (bollard : Nat) (inc : Nat) :
    z.Keeps (State.answerRead s m n last bollard inc) := by
  unfold State.answerRead
  with_reducible repeat' (first
    | assumption | apply State.answerData_keeps | apply State.readNow_keeps | apply State.transFault_keeps | apply State.readVa_keeps | apply State.takeLines_keeps
    | apply State.getResp_keeps | apply State.nack_keeps | apply State.logEv_keeps | split | refine ok_snd (by assumption) ?_)

theorem execMsgGetReq_keeps {z s : State} (h : z.Keeps s) (p : HawserPort) (m : Msg) :
    ∃ u, execMsgGetReq p m s = .next u ∧ z.Keeps u := by
  refine ⟨_, rfl, ?_⟩
  with_reducible repeat' (first
    | assumption | intro _ | apply State.nack_keeps | apply State.arrive_keeps | apply State.answerRead_keeps
    | apply keeps_ite | split)

theorem State.setRecov_keeps {z s : State} (h : z.Keeps s) (r : Recov) :
    z.Keeps (State.setRecov s r) := by
  unfold State.setRecov
  with_reducible repeat' (first | assumption | extract_lets | dsimp +zetaDelta only | refine keeps_update ?_ rfl)

theorem State.fetchMore_keeps {z s : State} (h : z.Keeps s) (r : Recov) :
    z.Keeps (State.fetchMore s r) := by
  unfold State.fetchMore
  with_reducible repeat' (first
    | assumption | apply State.setRecov_keeps | apply State.sendXfer_keeps | apply State.newTid_keeps | split
    | refine eq_snd (by assumption) ?_ | extract_lets)

theorem State.recoveryEnds_keeps {z s : State} (h : z.Keeps s) (convoy : Nat) (ctx : Nat) :
    z.Keeps (State.recoveryEnds s convoy ctx) := by
  unfold State.recoveryEnds
  with_reducible repeat' (first
    | assumption | apply State.newTid_keeps | apply State.sendMsg_keeps | apply keeps_ite | split | extract_lets | dsimp +zetaDelta only
    | refine keeps_update ?_ rfl)

theorem State.recovered_keeps {z s : State} (h : z.Keeps s) (r : Recov) (m : Msg) :
    z.Keeps (State.recovered s r m) := by
  unfold State.recovered
  with_reducible repeat' (first
    | assumption | apply State.paramLanded_keeps | apply State.recoveryEnds_keeps | apply State.dropXfer_keeps
    | apply State.fetchMore_keeps | apply State.land_keeps | apply State.setRecov_keeps | apply State.landSignal_keeps
    | apply State.count_keeps | apply keeps_ite | split | refine eq_snd (by assumption) ?_)

theorem execMsgGetResp_keeps {z s : State} (h : z.Keeps s) (p : HawserPort) (m : Msg) :
    ∃ u, execMsgGetResp p m s = .next u ∧ z.Keeps u := by
  refine ⟨_, rfl, ?_⟩
  with_reducible repeat' (first
    | assumption | intro _ | apply State.writeNow_keeps | apply State.dropXfer_keeps | apply State.answered_keeps
    | apply State.arrive_keeps | apply State.recovered_keeps | apply State.setXfer_keeps | apply State.stopTask_keeps
    | apply keeps_ite | split | refine ok_snd (by assumption) ?_)

theorem execMsgDetach_keeps {z s : State} (h : z.Keeps s) (p : HawserPort) (m : Msg) :
    ∃ u, execMsgDetach p m s = .next u ∧ z.Keeps u := by
  refine ⟨_, rfl, ?_⟩
  with_reducible repeat' (first
    | assumption | intro _ | apply State.dropRelay_keeps | apply State.fetchMore_keeps | apply State.dropMsg_keeps
    | apply State.sendDetach_keeps | apply State.arrive_keeps | apply State.detachChild_keeps | apply State.count_keeps
    | apply State.logEv_keeps | apply keeps_ite | apply keeps_foldl | split | extract_lets | dsimp +zetaDelta only
    | refine keeps_update ?_ rfl)

theorem State.relayPut_keeps {z s : State} (h : z.Keeps s) (p : Nat) (m : Msg) :
    z.Keeps (State.relayPut s p m) := by
  unfold State.relayPut
  with_reducible repeat' (first
    | assumption | apply State.creditUp_keeps | apply State.count_keeps | apply State.paramLanded_keeps | apply State.forwardAll_keeps | apply State.nack_keeps
    | apply State.land_keeps | apply State.dropMsg_keeps | apply State.setRelay_keeps | apply State.landSignal_keeps
    | apply State.settleRelay_keeps | apply State.beginRelay_keeps | apply keeps_ite | split
    | refine eq_snd (by assumption) ?_ | extract_lets)

theorem execMsgMcastPut_keeps {z s : State} (h : z.Keeps s) (p : HawserPort) (m : Msg) :
    ∃ u, execMsgMcastPut p m s = .next u ∧ z.Keeps u := by
  refine ⟨_, rfl, ?_⟩
  with_reducible repeat' (first | assumption | intro _ | apply State.relayPut_keeps | apply State.arrive_keeps)

theorem execMsgAcc_keeps {z s : State} (h : z.Keeps s) (p : HawserPort) (m : Msg) :
    ∃ u, execMsgAcc p m s = .next u ∧ z.Keeps u := by
  refine ⟨_, rfl, ?_⟩
  with_reducible repeat' (first
    | assumption | intro _ | apply State.arrive_keeps | apply State.replyAcc_keeps | apply State.contribute_keeps)

theorem execMsgReply_keeps {z s : State} (h : z.Keeps s) (p : HawserPort) (m : Msg) :
    ∃ u, execMsgReply p m s = .next u ∧ z.Keeps u := by
  refine ⟨_, rfl, ?_⟩
  with_reducible repeat' (first
    | assumption | intro _ | apply State.arrive_keeps | apply State.accReply_keeps | apply State.readmit_keeps
    | apply keeps_ite)

theorem execMsgUnknown_keeps {z s : State} (h : z.Keeps s) (p : HawserPort) (m : Msg) :
    ∃ u, execMsgUnknown p m s = .next u ∧ z.Keeps u := by
  refine ⟨_, rfl, ?_⟩
  with_reducible repeat' (first | assumption | intro _ | apply State.dropMsg_keeps | apply State.arrive_keeps)

theorem execMessageForward_keeps {z s : State} (h : z.Keeps s) (p : HawserPort) (m : Msg) :
    ∃ u, execMessageForward p m s = .next u ∧ z.Keeps u := by
  refine ⟨_, rfl, ?_⟩
  with_reducible repeat' (first | assumption | intro _ | apply State.arrive_keeps)

theorem State.xferDone_keeps {z s : State} (h : z.Keeps s) (xid : Nat) (x : Xfer) :
    z.Keeps (State.xferDone s xid x) := by
  unfold State.xferDone
  with_reducible repeat' (first
    | assumption | apply State.targetAcked_keeps | apply State.dropXfer_keeps | apply State.groupSignal_keeps | apply State.answered_keeps
    | apply State.recordAcked_keeps | split)

theorem State.childAck_keeps {z s : State} (h : z.Keeps s) (r : Relay) (child : Nat) :
    z.Keeps (State.childAck s r child) := by
  unfold State.childAck
  with_reducible repeat' (first
    | assumption | apply State.setEdge_keeps | apply State.setRelay_keeps | apply State.pumpEdges_keeps
    | apply State.settleRelay_keeps | split)

theorem execMsgAck_keeps {z s : State} (h : z.Keeps s) (p : HawserPort) (m : Msg) :
    ∃ u, execMsgAck p m s = .next u ∧ z.Keeps u := by
  refine ⟨_, rfl, ?_⟩
  with_reducible repeat' (first
    | assumption | intro _ | apply State.childAck_keeps | apply State.arrive_keeps | apply State.setXfer_keeps
    | apply State.xferDone_keeps | apply keeps_ite | split)

theorem State.failTask_keeps {z s : State} (h : z.Keeps s) (t : Nat) (id : Nat) (f : Task → AccFault) :
    z.Keeps (State.failTask s t id f) := by
  unfold State.failTask
  with_reducible repeat' (first | assumption | apply State.stopTask_keeps | split)

theorem State.xferFails_keeps {z s : State} (h : z.Keeps s) (xid : Nat) (x : Xfer) (code : Nat) :
    z.Keeps (State.xferFails s xid x code) := by
  unfold State.xferFails
  with_reducible repeat' (first
    | assumption | apply State.dropXfer_keeps | apply State.lostPartner_keeps | apply State.jobFault_keeps
    | apply State.failTask_keeps | apply keeps_ite | split | extract_lets | dsimp +zetaDelta only | refine keeps_update ?_ rfl)

theorem State.relayFails_keeps {z s : State} (h : z.Keeps s) (r : Relay) (code : Nat) (td : List Byte) :
    z.Keeps (State.relayFails s r code td) := by
  unfold State.relayFails
  with_reducible repeat' (first
    | assumption | apply State.dropRelay_keeps | apply State.jobFault_keeps | apply State.failTask_keeps
    | apply State.sendMsg_keeps | apply keeps_ite | split | extract_lets)

theorem execMsgNack_keeps {z s : State} (h : z.Keeps s) (p : HawserPort) (m : Msg) :
    ∃ u, execMsgNack p m s = .next u ∧ z.Keeps u := by
  refine ⟨_, rfl, ?_⟩
  with_reducible repeat' (first
    | assumption | intro _ | apply State.relayFails_keeps | apply State.dropXfer_keeps | apply State.jobFault_keeps
    | apply State.xferFails_keeps | apply State.arrive_keeps | apply State.count_keeps | split | extract_lets)

theorem execAckTimeout_keeps {z s : State} (h : z.Keeps s) (xfer : Nat) :
    ∃ u, execAckTimeout xfer s = .next u ∧ z.Keeps u := by
  refine ⟨_, rfl, ?_⟩
  with_reducible repeat' (first
    | assumption | apply State.count_keeps | apply State.relayFails_keeps | apply State.xferFails_keeps | apply keeps_ite | split)

theorem execConvoyStallLimit_keeps {z s : State} (h : z.Keeps s) (convoy : Nat) (child : Nat) :
    ∃ u, execConvoyStallLimit convoy child s = .next u ∧ z.Keeps u := by
  refine ⟨_, rfl, ?_⟩
  with_reducible repeat' (first | assumption | apply State.detachChild_keeps | apply keeps_ite)

theorem execFlitResendRequest_keeps {z s : State} (h : z.Keeps s) (p : HawserPort) (seq : Nat) :
    ∃ u, execFlitResendRequest p seq s = .next u ∧ z.Keeps u := by
  refine ⟨_, rfl, ?_⟩
  with_reducible repeat' (first
    | assumption | apply State.tx_keeps | apply State.setPort_keeps | apply State.retrain_keeps | apply State.count_keeps | apply State.emit_keeps
    | apply keeps_ite)

theorem execCreditTimeout_keeps {z s : State} (h : z.Keeps s) (p : HawserPort) (vc : Nat) :
    ∃ u, execCreditTimeout p vc s = .next u ∧ z.Keeps u := by
  refine ⟨_, rfl, ?_⟩
  with_reducible repeat' (first | assumption | apply State.retrain_keeps | apply keeps_ite)

theorem execLaneBerCheck_keeps {z s : State} (h : z.Keeps s) (p : HawserPort) (lane : Nat) (ber : Nat) :
    ∃ u, execLaneBerCheck p lane ber s = .next u ∧ z.Keeps u := by
  refine ⟨_, rfl, ?_⟩
  with_reducible repeat' (first | assumption | apply State.retrain_keeps | apply keeps_ite)

theorem execLinkRetrainDone_keeps {z s : State} (h : z.Keeps s) (p : HawserPort) (ok : Bool) :
    ∃ u, execLinkRetrainDone p ok s = .next u ∧ z.Keeps u := by
  refine ⟨_, rfl, ?_⟩
  with_reducible repeat' (first
    | assumption | apply State.tx_keeps | apply State.failLink_keeps | apply State.pump_keeps | apply State.put_keeps | apply State.emit_keeps
    | apply keeps_ite)

theorem execLinkTrainingDone_keeps {z s : State} (h : z.Keeps s) (p : HawserPort) (dom : Nat) (pkg : Nat) (peerPort : Nat) :
    ∃ u, execLinkTrainingDone p dom pkg peerPort s = .next u ∧ z.Keeps u := by
  refine ⟨_, rfl, ?_⟩
  with_reducible repeat' (first
    | assumption | apply State.pump_keeps | apply State.put_keeps | apply State.logEv_keeps | apply keeps_ite | split)

theorem State.edgeCredit_keeps {z s : State} (h : z.Keeps s) (e : EdgeCredit) :
    z.Keeps (State.edgeCredit s e) := by
  unfold State.edgeCredit
  with_reducible repeat' (first
    | assumption | intro _ | apply State.pumpEdges_keeps | apply State.setEdge_keeps
    | apply keeps_ite)

theorem execCreditReturn_keeps {z s : State} (h : z.Keeps s) (p : HawserPort) (vc : Nat) (n : Nat) (ack : LinkAck) :
    ∃ u, execCreditReturn p vc n ack s = .next u ∧ z.Keeps u := by
  refine ⟨_, rfl, ?_⟩
  with_reducible repeat' (first
    | assumption | apply keeps_foldl | intro _ | apply State.edgeCredit_keeps | apply State.tx_keeps | apply State.setPort_keeps | apply State.pump_keeps | apply keeps_ite)

end Sys2Proof.Machine
end

