-- ==== Sys2Proof/Laws/KeepsContext.lean ====
section
/-! SUPPORT. What the operations of Machine/Context.lean keep (State.Keeps). -/

namespace Sys2Proof.Machine

theorem State.openCtx_keeps {z s : State} (h : z.Keeps s) (c : Nat) :
    z.Keeps (State.openCtx s c) := by
  unfold State.openCtx
  with_reducible repeat' (first | assumption | apply State.put_keeps)

theorem State.ctxOpenEff_keeps {z s : State} (h : z.Keeps s) (n : Nat) :
    Yields z.Keeps (State.ctxOpenEff s n) := by
  unfold State.ctxOpenEff
  with_reducible repeat' (first | assumption | apply State.openCtx_keeps | split | apply yields_ok | apply yields_error)

theorem execCtxOpen_keeps {z s : State} (h : z.Keeps s) (src : Src) (n : Nat) :
    ∃ u, execCtxOpen src n s = .next u ∧ z.Keeps u := by
  refine ⟨_, rfl, ?_⟩
  with_reducible repeat' (first | assumption | intro _ | apply State.ctxOpenEff_keeps | apply State.guarded_keeps)

theorem State.clearFault_keeps {z s : State} (h : z.Keeps s) (c : Nat) :
    z.Keeps (State.clearFault s c) := by
  unfold State.clearFault
  with_reducible repeat' (first | assumption | apply State.put_keeps)

theorem State.wakeCtx_keeps {z s : State} (h : z.Keeps s) (c : Nat) :
    z.Keeps (State.wakeCtx s c) := by
  unfold State.wakeCtx
  with_reducible repeat' (first | assumption | intro _ | apply State.regrant_keeps | apply keeps_foldl)

theorem State.resumeEff_keeps {z s : State} (h : z.Keeps s) (c : Nat) :
    Yields z.Keeps (State.resumeEff s c) := by
  unfold State.resumeEff
  with_reducible repeat' (first
    | assumption | apply State.clearFault_keeps | apply State.wakeCtx_keeps | apply State.put_keeps | split | apply yields_ok
    | apply yields_error)

theorem State.haltEff_keeps {z s : State} (h : z.Keeps s) (c : Nat) :
    Yields z.Keeps (State.haltEff s c) := by
  unfold State.haltEff
  with_reducible repeat' (first
    | assumption | apply State.checkHalted_keeps | apply State.put_keeps | split | apply yields_ok | apply yields_error)

theorem State.discardSuspended_keeps {z s : State} (h : z.Keeps s) (c : Nat) :
    z.Keeps (State.discardSuspended s c) := by
  unfold State.discardSuspended
  with_reducible repeat' (first | assumption | dsimp only | refine keeps_update ?_ rfl)

theorem State.closeEff_keeps {z s : State} (h : z.Keeps s) (c : Nat) :
    Yields z.Keeps (State.closeEff s c) := by
  unfold State.closeEff
  with_reducible repeat' (first
    | assumption | apply State.discardSuspended_keeps | apply State.clearFault_keeps | apply State.put_keeps | split
    | apply yields_ok | apply yields_error | extract_lets | dsimp +zetaDelta only | refine keeps_update ?_ rfl)

theorem execCtxResume_keeps {z s : State} (h : z.Keeps s) (src : Src) (c : CtxId) :
    ∃ u, execCtxResume src c s = .next u ∧ z.Keeps u := by
  refine ⟨_, rfl, ?_⟩
  with_reducible repeat' (first | assumption | intro _ | apply State.guarded_keeps | apply State.resumeEff_keeps)

theorem execCtxHalt_keeps {z s : State} (h : z.Keeps s) (src : Src) (c : CtxId) :
    ∃ u, execCtxHalt src c s = .next u ∧ z.Keeps u := by
  refine ⟨_, rfl, ?_⟩
  with_reducible repeat' (first | assumption | intro _ | apply State.guarded_keeps | apply State.haltEff_keeps)

theorem execCtxClose_keeps {z s : State} (h : z.Keeps s) (src : Src) (c : CtxId) :
    ∃ u, execCtxClose src c s = .next u ∧ z.Keeps u := by
  refine ⟨_, rfl, ?_⟩
  with_reducible repeat' (first | assumption | intro _ | apply State.closeEff_keeps | apply State.guarded_keeps)

theorem State.walkStruck_keeps {z s : State} (h : z.Keeps s) (t : Nat) (c : Nat) (va : Nat) (f : AccFault) :
    z.Keeps (State.walkStruck s t c va f) := by
  unfold State.walkStruck
  with_reducible repeat' (first
    | assumption | intro _ | apply State.stopTask_keeps | apply State.noteLeaf_keeps
    | apply State.transFault_keeps | split)

theorem execTlbWalkDone_keeps {z s : State} (h : z.Keeps s) (t : TileId) (c : CtxId) (va : Nat) (write : Bool) :
    ∃ u, execTlbWalkDone t c va write s = .next u ∧ z.Keeps u := by
  refine ⟨_, rfl, ?_⟩
  with_reducible repeat' (first
    | assumption | apply State.walkStruck_keeps | apply State.transFault_keeps | apply State.translate_keeps | apply State.stopTask_keeps
    | apply State.noteLeaf_keeps | apply keeps_ite | split | refine ok_snd (by assumption) ?_)

theorem State.dropEntries_keeps {z s : State} (h : z.Keeps s) (c : Nat) (va : Nat) (n : Nat) :
    z.Keeps (State.dropEntries s c va n) := by
  unfold State.dropEntries
  with_reducible repeat' (first | assumption | refine keeps_update ?_ rfl)

theorem State.invalidate_keeps {z s : State} (h : z.Keeps s) (c : Nat) (va : Nat) (n : Nat) :
    z.Keeps (State.invalidate s c va n) := by
  unfold State.invalidate
  with_reducible repeat' (first
    | assumption | apply State.put_keeps | apply State.dropEntries_keeps | extract_lets | refine keeps_update ?_ rfl)

theorem State.invEff_keeps {z s : State} (h : z.Keeps s) (whole : Bool) :
    Yields z.Keeps (State.invEff s whole) := by
  unfold State.invEff
  with_reducible repeat' (first
    | assumption | apply State.invalidate_keeps | apply State.applyStaged_keeps | split | apply yields_ok | apply yields_error)

theorem execTlbInvalidateRange_keeps {z s : State} (h : z.Keeps s) (src : Src) :
    ∃ u, execTlbInvalidateRange src s = .next u ∧ z.Keeps u := by
  refine ⟨_, rfl, ?_⟩
  with_reducible repeat' (first | assumption | intro _ | apply State.invEff_keeps | apply State.guarded_keeps)

theorem execTlbInvalidateContext_keeps {z s : State} (h : z.Keeps s) (src : Src) :
    ∃ u, execTlbInvalidateContext src s = .next u ∧ z.Keeps u := by
  refine ⟨_, rfl, ?_⟩
  with_reducible repeat' (first | assumption | intro _ | apply State.invEff_keeps | apply State.guarded_keeps)

theorem execTlbInvalidateDone_keeps {z s : State} (h : z.Keeps s) :
    ∃ u, execTlbInvalidateDone s = .next u ∧ z.Keeps u := by
  refine ⟨_, rfl, ?_⟩
  with_reducible repeat' (first
    | assumption | apply State.put_keeps | apply State.dropEntries_keeps | apply keeps_ite | split | extract_lets
    | refine keeps_update ?_ rfl)

theorem State.copyStored_keeps {z s : State} (h : z.Keeps s) (t : Nat) (c : Nat) (src : Nat) (dst : Nat) (len : Nat) :
    z.Keeps (State.copyStored s t c src dst len) := by
  unfold State.copyStored
  with_reducible repeat' (first | assumption | intro _ | apply keeps_foldl | split | refine keeps_update ?_ rfl)

theorem copyGo_keeps {z s : State} (h : z.Keeps s) (t : Nat) (k : Task) (x3 : List (Nat × Nat)) :
    Yields z.Keeps (copyGo s t k x3) := by
  induction x3 generalizing s with
  | nil =>
  unfold copyGo
  with_reducible repeat' (first | assumption | apply yields_ok)
  | cons y l ih =>
  unfold copyGo
  with_reducible repeat' (first
    | assumption | apply State.readVa_keeps | apply State.copyStored_keeps | apply State.writeVa_keeps | apply ih
    | apply keeps_ite | split | apply yields_ok | apply yields_error | refine ok_snd (by assumption) ?_)

theorem State.drawAt_keeps {z s : State} (h : z.Keeps s) (x1 : List (Nat × Nat)) :
    z.Keeps (State.drawAt s x1) := by
  induction x1 generalizing s with
  | nil =>
  unfold State.drawAt
  with_reducible repeat' (first
    | assumption
)
  | cons a l ih =>
  unfold State.drawAt
  with_reducible repeat' (first
    | assumption | intro _ | apply ih | apply State.writeAt_keeps
    | apply State.drawBytes_keeps)

theorem State.aliased_keeps {z s : State} (h : z.Keeps s) (t : Nat) (c : Nat) (src : List (Nat × Nat)) (dst : List (Nat × Nat)) :
    z.Keeps (State.aliased s t c src dst) := by
  unfold State.aliased
  with_reducible repeat' (first
    | assumption | intro _ | apply State.drawAt_keeps)

theorem aliasRun_keeps {z : State} (go : Except AccFault State) (t : Nat) (c : Nat) (src : List (Nat × Nat)) (dst : List (Nat × Nat)) (hgo : Yields z.Keeps go) :
    Yields z.Keeps (aliasRun go t c src dst) := by
  unfold aliasRun
  split
  · exact yields_ok (State.aliased_keeps (hgo _ rfl) _ _ _ _)
  · exact yields_error

theorem execCopy_keeps {z s : State} (h : z.Keeps s) (t : TileId) (units : Nat) :
    ∃ u, execCopy t units s = .next u ∧ z.Keeps u := by
  refine ⟨_, rfl, ?_⟩
  with_reducible repeat' (first | assumption | apply aliasRun_keeps | intro _ | apply State.runDma_keeps | apply copyGo_keeps)

theorem State.readColumn_keeps {z s : State} (h : z.Keeps s) (t : Nat) (k : Task) (j : Nat) (x4 : List Nat) :
    Yields (fun p => z.Keeps p.2) (State.readColumn s t k j x4) := by
  induction x4 generalizing s with
  | nil =>
  unfold State.readColumn
  with_reducible repeat' (first | assumption | apply yields_ok)
  | cons y l ih =>
  unfold State.readColumn
  with_reducible repeat' (first
    | assumption | apply State.readVa_keeps | apply ih | split | apply yields_ok | apply yields_error
    | refine ok_snd (by assumption) ?_)

theorem transGo_keeps {z s : State} (h : z.Keeps s) (t : Nat) (k : Task) (x3 : List (Nat × Nat × Nat)) :
    Yields z.Keeps (transGo s t k x3) := by
  induction x3 generalizing s with
  | nil =>
  unfold transGo
  with_reducible repeat' (first | assumption | apply yields_ok)
  | cons y l ih =>
  unfold transGo
  with_reducible repeat' (first
    | assumption | apply State.writeVa_keeps | apply State.readColumn_keeps | apply ih | split | apply yields_error
    | refine ok_snd (by assumption) ?_ | extract_lets)

theorem execTranspose_keeps {z s : State} (h : z.Keeps s) (t : TileId) (units : Nat) :
    ∃ u, execTranspose t units s = .next u ∧ z.Keeps u := by
  refine ⟨_, rfl, ?_⟩
  with_reducible repeat' (first | assumption | apply aliasRun_keeps | intro _ | apply State.runDma_keeps | apply transGo_keeps)

theorem State.poisonLine_keeps {z s : State} (h : z.Keeps s) (pa : Nat) (code : Nat) :
    z.Keeps (State.poisonLine s pa code) := by
  unfold State.poisonLine
  with_reducible repeat' (first | assumption | apply State.poisonAt_keeps)

theorem State.logMismatch_keeps {z s : State} (h : z.Keeps s) (code : Nat) (sev : Nat) (kind : Nat) (id : Nat) (n : Nat) :
    z.Keeps (State.logMismatch s code sev kind id n) := by
  unfold State.logMismatch
  with_reducible repeat' (first
    | assumption | intro _ | apply State.logEv_keeps | apply keeps_iter)

theorem execSramParityError_keeps {z s : State} (h : z.Keeps s) (t : TileId) (offset : Nat) (read : SramRead) :
    ∃ u, execSramParityError t offset read s = .next u ∧ z.Keeps u := by
  refine ⟨_, rfl, ?_⟩
  with_reducible repeat' (first
    | assumption | apply State.logMismatch_keeps | apply State.poisonLine_keeps | apply State.stopTask_keeps | apply State.count_keeps
    | apply State.logEv_keeps | apply keeps_ite | split)

theorem execMeshFlitError_keeps {z s : State} (h : z.Keeps s) (t : TileId) (pa : Nat) (bad : Nat) :
    ∃ u, execMeshFlitError t pa bad s = .next u ∧ z.Keeps u := by
  refine ⟨_, rfl, ?_⟩
  with_reducible repeat' (first | assumption | apply State.logMismatch_keeps | apply State.poisonLine_keeps | apply State.count_keeps | apply keeps_ite)

theorem execDramReadError_keeps {z s : State} (h : z.Keeps s) (pa : Nat) (kind : DramError) :
    ∃ u, execDramReadError pa kind s = .next u ∧ z.Keeps u := by
  refine ⟨_, rfl, ?_⟩
  with_reducible repeat' (first
    | assumption | apply State.logMismatch_keeps | apply State.jobFault_keeps | apply State.poisonLine_keeps | apply State.count_keeps | apply State.riskAddE_keeps | apply keeps_ite
    | split)

theorem execHostPoisonReceived_keeps {z s : State} (h : z.Keeps s) (port : HostPort) (pa : Nat) (t : TileId) :
    ∃ u, execHostPoisonReceived port pa t s = .next u ∧ z.Keeps u := by
  refine ⟨_, rfl, ?_⟩
  with_reducible repeat' (first
    | assumption | apply State.jobFault_keeps | apply State.stopTask_keeps | apply State.count_keeps | apply keeps_ite | split
    | extract_lets)

end Sys2Proof.Machine
end

