-- ==== Sys2Proof/Laws/KeepsHold.lean ====
section
/-! SUPPORT. What the operations of Machine/Hold.lean keep (State.Keeps). -/

namespace Sys2Proof.Machine

theorem State.setHold_keeps {z s : State} (h : z.Keeps s) (t : Nat) (h : HoldSt) :
    z.Keeps (State.setHold s t h) := by
  unfold State.setHold
  with_reducible repeat' (first | assumption | refine keeps_update ?_ rfl)

theorem State.rangesNowGo_keeps {z s : State} (h : z.Keeps s) (tile : Option Nat) (c : Nat) (va : Nat) (n : Nat) (need : Need) (x6 : Nat) :
    Yields (fun p => z.Keeps p.2) (State.rangesNowGo s tile c va n need x6) := by
  induction x6 generalizing s with
  | zero =>
  unfold State.rangesNowGo
  with_reducible repeat' (first
    | assumption | intro _ | apply State.takeLines_keeps | apply State.ranges_keeps)
  | succ m ih =>
  unfold State.rangesNowGo
  with_reducible repeat' (first
    | assumption | intro _ | apply ih | apply State.takeLines_keeps
    | apply State.ranges_keeps | apply yields_ok | apply yields_error | split)

theorem State.rangesNow_keeps {z s : State} (h : z.Keeps s) (tile : Option Nat) (c : Nat) (va : Nat) (n : Nat) (need : Need) :
    Yields (fun p => z.Keeps p.2) (State.rangesNow s tile c va n need) := by
  unfold State.rangesNow
  with_reducible repeat' (first
    | assumption | intro _ | apply State.rangesNowGo_keeps)

theorem State.readPieces_keeps {z s : State} (h : z.Keeps s) (t : Nat) (c : Nat) (need : Need) (x4 : List HoldPiece) :
    Yields (fun p => z.Keeps p.2) (State.readPieces s t c need x4) := by
  induction x4 generalizing s with
  | nil =>
  unfold State.readPieces
  with_reducible repeat' (first
    | assumption | intro _ | apply State.rangesNow_keeps | apply keeps_ite
    | apply yields_ok
)
  | cons a l ih =>
  unfold State.readPieces
  with_reducible repeat' (first
    | assumption | intro _ | apply ih | apply State.rangesNow_keeps
    | apply keeps_ite | apply yields_ok | apply yields_error | apply yields_ite
    | split | refine ok_self (by assumption) ?_ | refine ok_snd (by assumption) ?_)

theorem State.readStack_keeps {z s : State} (h : z.Keeps s) (t : Nat) (c : Nat) (lo : Nat) (hi : Nat) :
    Yields z.Keeps (State.readStack s t c lo hi) := by
  unfold State.readStack
  with_reducible repeat' (first
    | assumption | intro _ | apply State.readPieces_keeps | apply yields_ok
    | apply yields_error | split | refine ok_self (by assumption) ?_ | refine ok_snd (by assumption) ?_
    | refine ok_fst (by assumption) ?_ | refine eq_snd (by assumption) ?_ | refine eq_fst (by assumption) ?_ | extract_lets)

theorem State.holdWrite_keeps {z s : State} (h : z.Keeps s) (t : Nat) (c : Nat) (need : Need) (x4 : List (Nat × Nat)) :
    Yields z.Keeps (State.holdWrite s t c need x4) := by
  induction x4 generalizing s with
  | nil =>
  unfold State.holdWrite
  with_reducible repeat' (first | assumption | apply State.rangesNow_keeps | apply yields_ok)
  | cons y l ih =>
  unfold State.holdWrite
  with_reducible repeat' (first
    | assumption | apply State.rangesNow_keeps | apply State.takeLines_keeps | apply State.storeRanges_keeps | apply State.drawBytes_keeps
    | apply State.ranges_keeps | apply ih | split | apply yields_error | refine ok_snd (by assumption) ?_)

theorem State.freshen_keeps {z s : State} (h : z.Keeps s) (ps : List HoldPiece) :
    z.Keeps (State.freshen s ps) := by
  unfold State.freshen
  with_reducible repeat' (first
    | assumption | intro _ | dsimp +zetaDelta only | refine keeps_update ?_ rfl)

theorem State.haul_keeps {z s : State} (h : z.Keeps s) (t : Nat) (c : Nat) (need : Need) (x : Haul) :
    Yields z.Keeps (State.haul s t c need x) := by
  unfold State.haul
  with_reducible repeat' (first
    | assumption | intro _ | apply State.freshen_keeps | apply State.holdWrite_keeps
    | apply State.readPieces_keeps | apply State.setHold_keeps | apply State.count_keeps | apply yields_ok
    | apply yields_error | split | refine ok_self (by assumption) ?_ | refine ok_snd (by assumption) ?_)

theorem State.pushMark_keeps {z s : State} (h : z.Keeps s) (t : Nat) (k : Task) :
    Yields (fun p => z.Keeps p.1) (State.pushMark s t k) := by
  unfold State.pushMark
  with_reducible repeat' (first
    | assumption | apply State.refuse_keeps | apply State.mark_keeps | apply State.count_keeps | apply State.setHold_keeps | apply State.logEv_keeps | split | apply yields_ok
    | apply yields_error | apply yields_ite)

theorem State.stallCount_keeps {z s : State} (h : z.Keeps s) (sub : Nat) (since : Option Nat) :
    z.Keeps (State.stallCount s sub since) := by
  unfold State.stallCount
  with_reducible repeat' (first | assumption | apply State.count_keeps | split)

theorem State.pushRun_keeps {z s : State} (h : z.Keeps s) (t : Nat) (k : Task) :
    Yields (fun p => z.Keeps p.1) (State.pushRun s t k) := by
  unfold State.pushRun
  with_reducible repeat' (first
    | assumption | apply State.haul_keeps | apply State.freshen_keeps | apply State.refuse_keeps | apply State.readVa_keeps | apply State.pushMark_keeps | apply State.stallCount_keeps
    | apply State.count_keeps | apply State.setHold_keeps | apply State.placeWrite_keeps | split | apply yields_ok
    | apply yields_error | apply yields_ite | refine ok_self (by assumption) ?_ | refine ok_snd (by assumption) ?_
    | extract_lets)

theorem State.pushPrep_keeps {z s : State} (h : z.Keeps s) (t : Nat) (k : Task) :
    z.Keeps (State.pushPrep s t k) := by
  unfold State.pushPrep
  with_reducible repeat' (first | assumption | apply State.setHold_keeps | apply keeps_ite | split)

theorem execHoldPush_keeps {z s : State} (h : z.Keeps s) (t : TileId) :
    ∃ u, execHoldPush t s = .next u ∧ z.Keeps u := by
  refine ⟨_, rfl, ?_⟩
  with_reducible repeat' (first
    | assumption | intro _ | apply State.pushRun_keeps | apply State.runTask_keeps | apply State.pushPrep_keeps | split)

theorem State.popTop_keeps {z s : State} (h : z.Keeps s) (t : Nat) :
    z.Keeps (State.popTop s t) := by
  unfold State.popTop
  with_reducible repeat' (first
    | assumption | apply State.stallCount_keeps | apply State.count_keeps | apply State.setHold_keeps | split | extract_lets)

theorem State.popRun_keeps {z s : State} (h : z.Keeps s) (t : Nat) (k : Task) :
    Yields (fun p => z.Keeps p.1) (State.popRun s t k) := by
  unfold State.popRun
  with_reducible repeat' (first
    | assumption | apply State.readStack_keeps | apply State.bookNum_keeps | apply State.refuse_keeps | apply State.mark_keeps | apply State.writeBytes_keeps | apply State.holdRead_keeps | apply State.popTop_keeps
    | apply State.noteStored_keeps | split | apply yields_ok | apply yields_error | apply yields_ite
    | refine ok_self (by assumption) ?_)

theorem State.redoStart_keeps {z s : State} (h : z.Keeps s) (t : Nat) (k : Task) (seg : Nat) :
    Yields z.Keeps (State.redoStart s t k seg) := by
  unfold State.redoStart
  with_reducible repeat' (first
    | assumption | apply State.readStack_keeps | apply State.refuse_keeps | apply State.writeBytes_keeps | apply State.setTask_keeps | apply State.setHold_keeps
    | apply State.noteStored_keeps | split | apply yields_ok | apply yields_error | refine ok_self (by assumption) ?_
    | extract_lets)

theorem State.redoLoad_keeps {z s : State} (h : z.Keeps s) (t : Nat) (k : Task) (r : Redo) (g : Nat) (rest : List Nat) :
    Yields z.Keeps (State.redoLoad s t k r g rest) := by
  unfold State.redoLoad
  with_reducible repeat' (first
    | assumption | apply State.refuse_keeps | apply State.readVa_keeps | apply State.setHold_keeps | split | apply yields_ok | apply yields_error
    | apply yields_ite | refine ok_snd (by assumption) ?_)

theorem State.redoTask_keeps {z s : State} (h : z.Keeps s) (t : Nat) (k : Task) (r : Redo) (w : List Nat) (rest : List (List Nat)) :
    Yields z.Keeps (State.redoTask s t k r w rest) := by
  unfold State.redoTask
  with_reducible repeat' (first
    | assumption | apply State.refuse_keeps | apply State.setTile_keeps | apply State.setHold_keeps | split | apply yields_ok | apply yields_error
    | apply yields_ite | extract_lets | dsimp +zetaDelta only | refine keeps_update ?_ rfl)

theorem State.redoMove_keeps {z s : State} (h : z.Keeps s) (t : Nat) (k : Task) (seg : Nat) :
    Yields z.Keeps (State.redoMove s t k seg) := by
  unfold State.redoMove
  with_reducible repeat' (first
    | assumption | apply State.redoStart_keeps | apply State.redoTask_keeps | apply State.count_keeps
    | apply State.setHold_keeps | apply State.redoLoad_keeps | split | apply yields_ok | extract_lets)

theorem State.redoGo_keeps {z s : State} (h : z.Keeps s) (t : Nat) (id : Nat) (seg : Nat) (x4 : Nat) :
    Yields z.Keeps (State.redoGo s t id seg x4) := by
  induction x4 generalizing s with
  | zero =>
  unfold State.redoGo
  with_reducible repeat' (first | assumption | apply yields_ok)
  | succ m ih =>
  unfold State.redoGo
  with_reducible repeat' (first
    | assumption | apply State.redoMove_keeps | apply ih | split | apply yields_ok | apply yields_error
    | refine ok_self (by assumption) ?_)

theorem execHoldPop_keeps {z s : State} (h : z.Keeps s) (t : TileId) :
    ∃ u, execHoldPop t s = .next u ∧ z.Keeps u := by
  refine ⟨_, rfl, ?_⟩
  with_reducible repeat' (first
    | assumption | apply State.mark_keeps | intro _ | apply State.redoGo_keeps | apply State.runTask_keeps | apply State.work_keeps
    | apply State.stopTask_keeps | apply State.popRun_keeps | apply State.setHold_keeps | apply keeps_ite | split
    | refine ok_self (by assumption) ?_ | extract_lets)

theorem State.spillStart_keeps {z s : State} (h : z.Keeps s) (t : Nat) (c : Nat) :
    z.Keeps (State.spillStart s t c) := by
  unfold State.spillStart
  with_reducible repeat' (first | assumption | apply State.setHold_keeps | apply keeps_ite | split | extract_lets)

theorem execHoldSpill_keeps {z s : State} (h : z.Keeps s) (t : TileId) :
    ∃ u, execHoldSpill t s = .next u ∧ z.Keeps u := by
  refine ⟨_, rfl, ?_⟩
  with_reducible repeat' (first | assumption | apply State.spillStart_keeps | split)

theorem State.fetchStart_keeps {z s : State} (h : z.Keeps s) (t : Nat) (c : Nat) :
    z.Keeps (State.fetchStart s t c) := by
  unfold State.fetchStart
  with_reducible repeat' (first | assumption | apply State.setHold_keeps | apply keeps_ite | split)

theorem execHoldPrefetch_keeps {z s : State} (h : z.Keeps s) (t : TileId) :
    ∃ u, execHoldPrefetch t s = .next u ∧ z.Keeps u := by
  refine ⟨_, rfl, ?_⟩
  with_reducible repeat' (first | assumption | apply State.fetchStart_keeps | split)

theorem execHoldMoveDone_keeps {z s : State} (h : z.Keeps s) (t : TileId) :
    ∃ u, execHoldMoveDone t s = .next u ∧ z.Keeps u := by
  refine ⟨_, rfl, ?_⟩
  with_reducible repeat' (first
    | assumption | apply State.haul_keeps | apply State.noteFault_keeps | apply State.transFault_keeps | apply State.moveLand_keeps | apply State.carryPoison_keeps
    | apply State.setHold_keeps | split | refine ok_self (by assumption) ?_)

theorem State.emptyHold_keeps {z s : State} (h : z.Keeps s) (t : Nat) (keepLog : Bool) :
    z.Keeps (State.emptyHold s t keepLog) := by
  unfold State.emptyHold
  with_reducible repeat' (first
    | assumption | apply State.setHold_keeps | extract_lets | dsimp +zetaDelta only | refine keeps_update ?_ rfl)

theorem State.discardHolds_keeps {z s : State} (h : z.Keeps s) (c : Nat) (advance : Bool) :
    z.Keeps (State.discardHolds s c advance) := by
  unfold State.discardHolds
  with_reducible repeat' (first
    | assumption | apply State.advance_keeps | intro _ | apply State.emptyHold_keeps | apply State.count_keeps | apply State.logEv_keeps | apply keeps_ite
    | apply keeps_foldl)

end Sys2Proof.Machine
end

