-- ==== Sys2Proof/Laws/KeepsDocks.lean ====
section
/-! SUPPORT. What the operations of Machine/Docks.lean keep (State.Keeps). -/

namespace Sys2Proof.Machine

theorem State.setCalQueue_keeps {z s : State} (h : z.Keeps s) (t : Nat) (q : List CalReq) :
    z.Keeps (State.setCalQueue s t q) := by
  unfold State.setCalQueue
  with_reducible repeat' (first | assumption | split | refine keeps_update ?_ rfl)

theorem State.queueDock_keeps {z s : State} (h : z.Keeps s) (d : Nat) (kind : CalKind) (dones : List (Nat × Nat)) (restore : Option Nat) :
    z.Keeps (State.queueDock s d kind dones restore) := by
  unfold State.queueDock
  with_reducible repeat' (first
    | assumption | intro _ | apply State.setCalQueue_keeps | apply keeps_ite)

theorem State.queueDie_keeps {z s : State} (h : z.Keeps s) (die : Nat) (dones : List (Nat × Nat)) :
    z.Keeps (State.queueDie s die dones) := by
  unfold State.queueDie
  with_reducible repeat' (first
    | assumption | intro _ | extract_lets | dsimp +zetaDelta only
    | refine keeps_update ?_ rfl)

theorem State.queueCal_keeps {z s : State} (h : z.Keeps s) (d : Nat) (kind : CalKind) (dones : List (Nat × Nat)) :
    z.Keeps (State.queueCal s d kind dones) := by
  unfold State.queueCal
  with_reducible repeat' (first
    | assumption | apply State.queueDie_keeps | apply State.queueDock_keeps | apply State.setCalQueue_keeps | apply keeps_ite)

theorem State.triggerCal_keeps {z s : State} (h : z.Keeps s) (d : Nat) (kind : CalKind) :
    z.Keeps (State.triggerCal s d kind) := by
  unfold State.triggerCal
  with_reducible repeat' (first | assumption | apply State.queueCal_keeps | apply keeps_ite)

theorem State.clipTrigger_keeps {z s : State} (h : z.Keeps s) (d : Nat) :
    z.Keeps (State.clipTrigger s d) := by
  unfold State.clipTrigger
  with_reducible repeat' (first | assumption | apply State.triggerCal_keeps | apply keeps_ite)

theorem State.tempTrigger_keeps {z s : State} (h : z.Keeps s) (die : Nat) :
    z.Keeps (State.tempTrigger s die) := by
  unfold State.tempTrigger
  with_reducible repeat' (first
    | assumption | apply State.queueDie_keeps | intro _ | apply State.triggerCal_keeps | apply keeps_ite | apply keeps_foldl
    | split)

theorem State.noteVectors_keeps {z s : State} (h : z.Keeps s) (k : Task) (eff : Fmt) :
    z.Keeps (State.noteVectors s k eff) := by
  unfold State.noteVectors
  with_reducible repeat' (first | assumption | intro _ | apply State.noteStored_keeps | apply keeps_iter)

theorem State.readVectors_keeps {z s : State} (h : z.Keeps s) (t : Nat) (k : Task) (n : Nat) (x4 : Nat) :
    Yields (fun p => z.Keeps p.2) (State.readVectors s t k n x4) := by
  induction x4 generalizing s with
  | zero =>
  unfold State.readVectors
  with_reducible repeat' (first | assumption | apply yields_ok)
  | succ m ih =>
  unfold State.readVectors
  with_reducible repeat' (first
    | assumption | apply State.readTensor_keeps | apply ih | split | apply yields_ok | apply yields_error
    | refine ok_snd (by assumption) ?_ | extract_lets)

theorem State.refuseDock_keeps {z s : State} (h : z.Keeps s) (t : Nat) (k : Task) (code : Nat) (d : Nat) :
    z.Keeps (State.refuseDock s t k code d) := by
  unfold State.refuseDock
  with_reducible repeat' (first | assumption | apply State.struck_keeps | apply State.refuseAs_keeps)

theorem State.vectorBegin_keeps {z s : State} (h : z.Keeps s) (t : Nat) (k : Task) (r : MvmRun) :
    z.Keeps (State.vectorBegin s t k r) := by
  unfold State.vectorBegin
  with_reducible repeat' (first
    | assumption | apply State.count_keeps | split | extract_lets | dsimp +zetaDelta only | refine keeps_update ?_ rfl)

theorem State.mvmStart_keeps {z s : State} (h : z.Keeps s) (t : Nat) (k : Task) (i : Nat) (l : LayerDef) :
    Yields z.Keeps (State.mvmStart s t k i l) := by
  unfold State.mvmStart
  with_reducible repeat' (first
    | assumption | apply State.startedAs_keeps | apply State.refuse_keeps | apply State.idle_keeps | apply State.readVectors_keeps | apply State.bookNum_keeps | apply State.setTask_keeps
    | apply State.vectorBegin_keeps | split | apply yields_ok | apply yields_error | refine ok_snd (by assumption) ?_
    | extract_lets)

theorem State.phaseCounted_keeps {z s : State} (h : z.Keeps s) (counts : List Nat) (m : MvmDock) :
    z.Keeps (State.phaseCounted s counts m) := by
  unfold State.phaseCounted
  with_reducible repeat' (first
    | assumption | intro _ | apply State.setDock_keeps | apply State.count_keeps
    | apply keeps_ite)

theorem State.phaseGood_keeps {z s : State} (h : z.Keeps s) (counts : List Nat) (r : MvmRun) (m : MvmDock) :
    z.Keeps (State.phaseGood s counts r m) := by
  unfold State.phaseGood
  with_reducible repeat' (first
    | assumption | apply State.count_keeps | apply State.setDock_keeps | apply keeps_ite | split | extract_lets | dsimp only
    | dsimp +zetaDelta only | refine keeps_update ?_ rfl)

theorem execDockPhaseDone_keeps {z s : State} (h : z.Keeps s) (d : DockId) (counts : List Nat) :
    ∃ u, execDockPhaseDone d counts s = .next u ∧ z.Keeps u := by
  refine ⟨_, rfl, ?_⟩
  with_reducible repeat' (first
    | assumption | apply State.phaseGood_keeps | apply State.stopTask_keeps | apply State.phaseCounted_keeps | apply keeps_ite
    | split)

theorem State.vectorEnd_keeps {z s : State} (h : z.Keeps s) (t : Nat) (r : MvmRun) :
    z.Keeps (State.vectorEnd s t r).1 := by
  unfold State.vectorEnd
  with_reducible repeat' (first
    | assumption | intro _ | apply State.setDock_keeps | apply keeps_ite | apply keeps_foldl | split | extract_lets
    | dsimp only | dsimp +zetaDelta only | refine keeps_update ?_ rfl)

theorem State.mvmFinish_keeps {z s : State} (h : z.Keeps s) (t : Nat) (k : Task) (i : Nat) (l : LayerDef) (r : MvmRun) :
    Yields z.Keeps (State.mvmFinish s t k i l r) := by
  unfold State.mvmFinish
  with_reducible repeat' (first
    | assumption | apply State.reissue_keeps | intro _ | apply State.setCap_keeps | apply State.clipTrigger_keeps | apply State.regrant_keeps
    | apply State.setTile_keeps | apply State.setTask_keeps | apply State.noteVectors_keeps | apply State.count_keeps
    | apply State.commit_keeps | apply State.logEv_keeps | apply keeps_ite | apply keeps_foldl | split | apply yields_ok
    | apply yields_error | refine ok_fst (by assumption) ?_ | extract_lets | dsimp +zetaDelta only
    | refine keeps_update ?_ rfl)

theorem execDockVectorDone_keeps {z s : State} (h : z.Keeps s) (t : TileId) :
    ∃ u, execDockVectorDone t s = .next u ∧ z.Keeps u := by
  refine ⟨_, rfl, ?_⟩
  with_reducible repeat' (first
    | assumption | apply State.vectorEnd_keeps | apply State.vectorBegin_keeps | apply State.snoopHeld_keeps
    | apply State.mvmFinish_keeps | apply State.stopTask_keeps | apply keeps_ite | split | refine ok_self (by assumption) ?_)

theorem State.segMasters_keeps {z s : State} (h : z.Keeps s) (t : Nat) (k : Task) (b : Binding) (g : Seg) :
    Yields (fun p => z.Keeps p.2) (State.segMasters s t k b g) := by
  unfold State.segMasters
  with_reducible repeat' (first
    | assumption | intro _ | apply State.readMaster_keeps | split | apply yields_ok | apply yields_error
    | exact ok_snd rfl (by assumption) | apply yields_foldl | refine ok_snd (by assumption) ?_)

theorem State.segBiasWide_keeps {z s : State} (h : z.Keeps s) (t : Nat) (k : Task) (b : Binding) (g : Seg) :
    Yields (fun p => z.Keeps p.2) (State.segBiasWide s t k b g) := by
  unfold State.segBiasWide
  with_reducible repeat' (first
    | assumption | apply State.readTensor_keeps | split | apply yields_ok | apply yields_error
    | refine ok_snd (by assumption) ?_)

theorem State.segsWide_keeps {z s : State} (h : z.Keeps s) (t : Nat) (k : Task) (b : Binding) (x4 : List Seg) :
    Yields (fun p => z.Keeps p.2) (State.segsWide s t k b x4) := by
  induction x4 generalizing s with
  | nil =>
  unfold State.segsWide
  with_reducible repeat' (first | assumption | apply yields_ok)
  | cons y l ih =>
  unfold State.segsWide
  with_reducible repeat' (first
    | assumption | apply State.segMasters_keeps | apply State.segBiasWide_keeps | apply ih | split | apply yields_ok
    | apply yields_error | refine ok_snd (by assumption) ?_)

theorem State.mvmWide_keeps {z s : State} (h : z.Keeps s) (t : Nat) (k : Task) :
    Yields (fun p => z.Keeps p.1) (State.mvmWide s t k) := by
  unfold State.mvmWide
  with_reducible repeat' (first
    | assumption | apply State.refuse_keeps | intro _ | apply State.setCap_keeps | apply State.countMacs_keeps | apply State.readVectors_keeps
    | apply State.noteVectors_keeps | apply State.segsWide_keeps | apply State.commit_keeps | apply keeps_ite
    | apply keeps_foldl | split | apply yields_ok | apply yields_error | apply yields_ite | refine ok_snd (by assumption) ?_
    | refine ok_fst (by assumption) ?_ | extract_lets)

theorem execDockMvm_keeps {z s : State} (h : z.Keeps s) (t : TileId) :
    ∃ u, execDockMvm t s = .next u ∧ z.Keeps u := by
  refine ⟨_, rfl, ?_⟩
  with_reducible repeat' (first
    | assumption | apply State.runSplit_keeps | intro _ | apply State.refuseDock_keeps | apply State.mvmWide_keeps | apply State.mvmStart_keeps
    | apply State.runTask_keeps | apply State.work_keeps | apply State.stopTask_keeps | apply keeps_ite | split
    | refine ok_self (by assumption) ?_)

end Sys2Proof.Machine
end

