-- ==== Sys2Proof/Laws/KeepsRefit.lean ====
section
/-! SUPPORT. What the operations of Machine/Refit.lean keep (State.Keeps). -/

namespace Sys2Proof.Machine

theorem State.masterRow_keeps {z s : State} (h : z.Keeps s) (t : Nat) (k : Task) (e : DockMap) (r : Nat) :
    Yields (fun p => z.Keeps p.2) (State.masterRow s t k e r) := by
  unfold State.masterRow
  with_reducible repeat' (first
    | assumption | apply State.readTensor_keeps | split | apply yields_ok | apply yields_error
    | refine ok_snd (by assumption) ?_)

theorem State.masterRows_keeps {z s : State} (h : z.Keeps s) (t : Nat) (k : Task) (e : DockMap) (x4 : List Nat) :
    Yields (fun p => z.Keeps p.2) (State.masterRows s t k e x4) := by
  induction x4 generalizing s with
  | nil =>
  unfold State.masterRows
  with_reducible repeat' (first | assumption | apply yields_ok)
  | cons y l ih =>
  unfold State.masterRows
  with_reducible repeat' (first
    | assumption | apply State.masterRow_keeps | apply ih | split | apply yields_ok | apply yields_error
    | refine ok_snd (by assumption) ?_)

theorem State.imageRows_keeps {z s : State} (h : z.Keeps s) (t : Nat) (k : Task) (x3 : List Nat) :
    Yields (fun p => z.Keeps p.2) (State.imageRows s t k x3) := by
  induction x3 generalizing s with
  | nil =>
  unfold State.imageRows
  with_reducible repeat' (first | assumption | apply yields_ok)
  | cons y l ih =>
  unfold State.imageRows
  with_reducible repeat' (first
    | assumption | apply State.readVa_keeps | apply ih | split | apply yields_ok | apply yields_error
    | refine ok_snd (by assumption) ?_)

theorem State.modPass_keeps {z s : State} (h : z.Keeps s) (d : Nat) (f : Pass → Pass) :
    z.Keeps (State.modPass s d f) := by
  unfold State.modPass
  with_reducible repeat' (first | assumption | apply State.setDock_keeps)

theorem State.scanRun_keeps {z s : State} (h : z.Keeps s) (t : Nat) (k : Task) (d : Nat) (e : DockMap) :
    Yields (fun p => z.Keeps p.1) (State.scanRun s t k d e) := by
  unfold State.scanRun
  with_reducible repeat' (first
    | assumption | apply State.masterRows_keeps | apply State.readVa_keeps | apply State.writeBytes_keeps
    | apply State.modPass_keeps | split | apply yields_ok | apply yields_error | refine ok_self (by assumption) ?_
    | refine ok_snd (by assumption) ?_ | extract_lets)

theorem State.moveOutputs_keeps {z s : State} (h : z.Keeps s) (d : Nat) (c : Nat) (layer : Nat) (code : Nat) (x5 : List Nat) :
    z.Keeps (State.moveOutputs s d c layer code x5).1 := by
  induction x5 generalizing s with
  | nil =>
  unfold State.moveOutputs
  with_reducible repeat' (first | assumption)
  | cons y l ih =>
  unfold State.moveOutputs
  with_reducible repeat' (first
    | assumption | apply State.modPass_keeps | apply State.count_keeps | apply State.setDock_keeps | apply State.logEv_keeps
    | apply ih | split)

theorem State.programRows_keeps {z s : State} (h : z.Keeps s) (d : Nat) (outs : List (Nat × RowOut)) :
    z.Keeps (State.programRows s d outs) := by
  unfold State.programRows
  with_reducible repeat' (first
    | assumption | intro _ | apply State.modPass_keeps | apply State.count_keeps | apply State.setDock_keeps
    | apply keeps_foldl)

theorem State.writeRows_keeps {z s : State} (h : z.Keeps s) (t : Nat) (k : Task) (x3 : List (Nat × RowOut)) :
    Yields z.Keeps (State.writeRows s t k x3) := by
  induction x3 generalizing s with
  | nil =>
  unfold State.writeRows
  with_reducible repeat' (first | assumption | apply yields_ok)
  | cons y l ih =>
  unfold State.writeRows
  with_reducible repeat' (first
    | assumption | apply State.writeBytes_keeps | apply ih | split | apply yields_error | refine ok_self (by assumption) ?_)

theorem State.refitBiases_keeps {z s : State} (h : z.Keeps s) (t : Nat) (k : Task) :
    Yields (fun p => z.Keeps p.2) (State.refitBiases s t k) := by
  unfold State.refitBiases
  with_reducible repeat' (first
    | assumption | apply State.readTensor_keeps | split | apply yields_ok | apply yields_error
    | refine ok_snd (by assumption) ?_)

theorem State.refitRun_keeps {z s : State} (h : z.Keeps s) (t : Nat) (k : Task) (d : Nat) (e : DockMap) (failing : List Nat) :
    Yields (fun p => z.Keeps p.1) (State.refitRun s t k d e failing) := by
  unfold State.refitRun
  with_reducible repeat' (first
    | assumption | apply State.masterRows_keeps | apply State.readVa_keeps | apply State.writeBytes_keeps
    | apply State.programRows_keeps | apply State.modPass_keeps | apply State.imageRows_keeps | apply State.refitBiases_keeps
    | apply State.moveOutputs_keeps | apply State.writeRows_keeps | apply State.logEv_keeps | split | apply yields_ok
    | apply yields_error | refine ok_self (by assumption) ?_ | refine ok_snd (by assumption) ?_
    | refine eq_fst (by assumption) ?_ | extract_lets)

theorem State.readbackRows_keeps {z s : State} (h : z.Keeps s) (t : Nat) (k : Task) (x : Dock) (outs : List Nat) (x5 : List Nat) :
    Yields z.Keeps (State.readbackRows s t k x outs x5) := by
  induction x5 generalizing s with
  | nil =>
  unfold State.readbackRows
  with_reducible repeat' (first | assumption | apply yields_ok)
  | cons y l ih =>
  unfold State.readbackRows
  with_reducible repeat' (first
    | assumption | apply State.writeBytes_keeps | apply ih | split | apply yields_error | refine ok_self (by assumption) ?_)

theorem State.readbackRun_keeps {z s : State} (h : z.Keeps s) (t : Nat) (k : Task) (d : Nat) (metaBad : Bool) :
    Yields (fun p => z.Keeps p.1) (State.readbackRun s t k d metaBad) := by
  unfold State.readbackRun
  with_reducible repeat' (first
    | assumption | apply State.readbackRows_keeps | apply State.writeBytes_keeps | apply State.setDock_keeps
    | apply State.logEv_keeps | split | apply yields_ok | apply yields_error | refine ok_self (by assumption) ?_
    | extract_lets)

theorem State.handDock_keeps {z s : State} (h : z.Keeps s) (t : Nat) (k : Task) (d : Nat) (status : Nat) (slots : List (Nat × Nat)) (w : List (Nat × Nat)) :
    z.Keeps (State.handDock s t k d status slots w) := by
  unfold State.handDock
  with_reducible repeat' (first
    | assumption | apply State.reissue_keeps | apply State.regrant_keeps | apply State.setTile_keeps | apply State.setTask_keeps
    | apply State.setDock_keeps)

theorem State.refitTask_keeps {z s : State} (h : z.Keeps s) (t : Nat) (mode : Nat)
    (run : State → Task → Nat → DockMap → Except AccFault (State × Option Nat))
    (hrun : ∀ u k i d, z.Keeps u → Yields (fun p => z.Keeps p.1) (run u k i d)) : z.Keeps (State.refitTask s t mode run) := by
  unfold State.refitTask
  with_reducible repeat' (first
    | assumption | apply State.startedAs_keeps | apply State.refuseDock_keeps | apply State.retireDock_keeps | apply State.work_keeps
    | apply State.snoopHeld_keeps | apply State.stopTask_keeps | apply State.openPass_keeps | apply State.handDock_keeps
    | apply State.setDock_keeps | apply hrun | apply keeps_ite | split | refine ok_fst (by assumption) ?_ | extract_lets)

theorem execDockRefit_keeps {z s : State} (h : z.Keeps s) (t : TileId) (failing : List Nat) :
    ∃ u, execDockRefit t failing s = .next u ∧ z.Keeps u := by
  refine ⟨_, rfl, ?_⟩
  with_reducible repeat' (first | assumption | intro _ | apply State.refitTask_keeps | apply State.refitRun_keeps)

theorem execDockRefitScan_keeps {z s : State} (h : z.Keeps s) (t : TileId) :
    ∃ u, execDockRefitScan t s = .next u ∧ z.Keeps u := by
  refine ⟨_, rfl, ?_⟩
  with_reducible repeat' (first
    | assumption | intro _ | apply State.scanRun_keeps | apply State.refitTask_keeps | apply yields_map)

theorem execDockRefitReadback_keeps {z s : State} (h : z.Keeps s) (t : TileId) (metaBad : Bool) :
    ∃ u, execDockRefitReadback t metaBad s = .next u ∧ z.Keeps u := by
  refine ⟨_, rfl, ?_⟩
  with_reducible repeat' (first
    | assumption | intro _ | apply State.readbackRun_keeps | apply State.refitTask_keeps | apply yields_map)

theorem execDockRefitDone_keeps {z s : State} (h : z.Keeps s) (d : DockId) :
    ∃ u, execDockRefitDone d s = .next u ∧ z.Keeps u := by
  refine ⟨_, rfl, ?_⟩
  with_reducible repeat' (first
    | assumption | apply State.modPass_keeps | apply State.endTask_keeps | apply State.setDock_keeps | split | extract_lets)

theorem State.passRead_keeps {z s : State} (h : z.Keeps s) (d : Nat) (c : Nat) (va : Nat) (n : Nat) :
    Yields (fun p => z.Keeps p.2) (State.passRead s d c va n) := by
  unfold State.passRead
  with_reducible repeat' (first | assumption | apply State.readVa_keeps | apply State.takeLines_keeps | split)

theorem State.spareFill_keeps {z s : State} (h : z.Keeps s) (d : Nat) (p : Pass) (x3 : List (Nat × Nat)) :
    Yields z.Keeps (State.spareFill s d p x3) := by
  induction x3 generalizing s with
  | nil =>
  unfold State.spareFill
  with_reducible repeat' (first | assumption | apply State.passRead_keeps | apply yields_ok)
  | cons y l ih =>
  unfold State.spareFill
  with_reducible repeat' (first
    | assumption | apply State.passRead_keeps | apply State.readVa_keeps | apply State.takeLines_keeps | apply State.modPass_keeps
    | apply State.count_keeps | apply State.setDock_keeps | apply ih | apply keeps_ite | split | apply yields_error
    | refine ok_snd (by assumption) ?_)

theorem State.countGroups_keeps {z s : State} (h : z.Keeps s) (d : Nat) (touched : AMap Nat) :
    z.Keeps (State.countGroups s d touched) := by
  unfold State.countGroups
  with_reducible repeat' (first | assumption | apply State.setDock_keeps)

/-- The state a step of the completion work leaves. -/
def CloseEnd.left : CloseEnd → State
  | .done s => s
  | .spent s => s
  | .fault s _ => s

theorem left_done {z s : State} {x : CloseEnd} (e : x = .done s) (h : z.Keeps x.left) : z.Keeps s := by subst e; exact h
theorem left_spent {z s : State} {x : CloseEnd} (e : x = .spent s) (h : z.Keeps x.left) : z.Keeps s := by subst e; exact h
theorem left_fault {z s : State} {f : AccFault} {x : CloseEnd} (e : x = .fault s f) (h : z.Keeps x.left) : z.Keeps s := by
  subst e; exact h

theorem State.fillSpares_keeps {z s : State} (h : z.Keeps s) (d : Nat) (p : Pass) (n : Nat) (outs failing : List Nat) :
    z.Keeps (State.fillSpares s d p n outs failing).left := by
  induction n generalizing s outs failing with
  | zero => exact h
  | succ n ih =>
    unfold State.fillSpares
    dsimp only
    split
    · exact h
    · next e =>
      have hs := ok_self e (State.spareFill_keeps h _ _ _)
      split
      · exact hs
      · split
        · next e => exact eq_fst e (State.moveOutputs_keeps hs _ _ _ _ _)
        · next e => exact ih (eq_fst e (State.moveOutputs_keeps hs _ _ _ _ _)) _ _

theorem State.closeMeta_keeps {z s : State} (h : z.Keeps s) (d : Nat) (p : Pass) (target : List Nat) :
    z.Keeps (State.closeMeta s d p target) := by
  unfold State.closeMeta
  with_reducible repeat' (first
    | assumption | intro _ | apply State.setDock_keeps | apply keeps_ite)

theorem State.closeImage_keeps {z s : State} (h : z.Keeps s) (d : Nat) (p : Pass) (target : List Byte) :
    Yields z.Keeps (State.closeImage s d p target) := by
  unfold State.closeImage
  with_reducible repeat' (first
    | assumption | intro _ | apply State.writeNow_keeps | apply yields_ok
    | apply yields_error | split | refine ok_self (by assumption) ?_ | refine ok_snd (by assumption) ?_)

theorem State.closeSteps_keeps {z s : State} (h : z.Keeps s) (d : Nat) (p : Pass) (target : List Nat) :
    z.Keeps (State.closeSteps s d p target) := by
  unfold State.closeSteps
  with_reducible repeat' (first | assumption | apply State.countGroups_keeps | apply State.setDock_keeps)

theorem State.wearMoves_keeps {z s : State} (h : z.Keeps s) (d : Nat) (p : Pass) (target failing : List Nat) :
    z.Keeps (State.wearMoves s d p target failing).left := by
  unfold State.wearMoves
  dsimp only
  split
  · exact h
  · split
    · next e => exact eq_fst e (State.moveOutputs_keeps h _ _ _ _ _)
    · next e =>
      have hf := State.fillSpares_keeps (State.modPass_keeps (eq_fst e (State.moveOutputs_keeps h _ _ _ _ _)) d
        (fun q => { q with touched := [] })) d p (spareCount + 1)
        ((List.range 512).filter (fun o => decide (wearLimit ≤ (s.dock d).wear ((s.dock d).phys o)))) failing
      split
      · next e => exact State.countGroups_keeps (State.closeMeta_keeps (left_done e hf) _ _ _) _ _
      · exact hf

theorem State.closeWork_keeps {z s : State} (h : z.Keeps s) (d : Nat) (p : Pass) (failing : List Nat) :
    z.Keeps (State.closeWork s d p failing).left := by
  unfold State.closeWork
  have hf := State.fillSpares_keeps h d p (spareCount + 1) p.engaged failing
  split
  · next e =>
    replace hf := left_done e hf
    split
    · exact hf
    · next e =>
      have hr := ok_snd e (State.passRead_keeps hf _ _ _ _)
      dsimp only
      split
      · exact hr
      · next e => exact State.wearMoves_keeps (State.closeSteps_keeps (ok_self e (State.closeImage_keeps (State.closeMeta_keeps hr _ _ _) _ _ _)) _ _ _) _ _ _ _
  · exact hf

theorem State.closeFault_keeps {z s : State} (h : z.Keeps s) (d : Nat) :
    z.Keeps (State.closeFault s d) := by
  unfold State.closeFault
  with_reducible repeat' (first | assumption | apply State.modPass_keeps | apply State.setDock_keeps)

theorem State.closeStruck_keeps {z s : State} (h : z.Keeps s) (d : Nat) (p : Pass) (f : AccFault) :
    z.Keeps (State.closeStruck s d p f) := by
  unfold State.closeStruck
  with_reducible repeat' (first
    | assumption | intro _ | apply State.closeFault_keeps | apply State.transFault_keeps
    | apply State.jobFault_keeps | split)

theorem State.closeSpent_keeps {z s : State} (h : z.Keeps s) (d : Nat) (p : Pass) :
    z.Keeps (State.closeSpent s d p) := by
  unfold State.closeSpent
  with_reducible repeat' (first
    | assumption | intro _ | apply State.retireDock_keeps | apply State.jobFault_keeps
    | apply State.setDock_keeps)

theorem State.passClose_keeps {z s : State} (h : z.Keeps s) (d : Nat) (p : Pass) (failing : List Nat) (fault : Bool) :
    z.Keeps (State.passClose s d p failing fault) := by
  have hw := State.closeWork_keeps h d p failing
  unfold State.passClose
  split
  · exact State.closeStruck_keeps h _ _ _
  · split
    · next e => exact State.closeStruck_keeps (left_fault e hw) _ _ _
    · next e => exact State.closeSpent_keeps (left_spent e hw) _ _
    · next e => exact State.count_keeps (State.setDock_keeps (left_done e hw) _ _) _ _ _ _

theorem execRefitPassClose_keeps {z s : State} (h : z.Keeps s) (d : DockId) (r : CloseResult) :
    ∃ u, execRefitPassClose d r s = .next u ∧ z.Keeps u := by
  refine ⟨_, rfl, ?_⟩
  with_reducible repeat' (first | assumption | apply State.passClose_keeps | apply keeps_ite | split)

end Sys2Proof.Machine
end

