-- ==== Sys2Proof/Laws/KeepsCalibrate.lean ====
section
/-! SUPPORT. What the operations of Machine/Calibrate.lean keep (State.Keeps). -/

namespace Sys2Proof.Machine

theorem State.calTask_keeps {z s : State} (h : z.Keeps s) (t : Nat) (field : Nat) (kind : CalKind) :
    z.Keeps (State.calTask s t field kind) := by
  unfold State.calTask
  with_reducible repeat' (first
    | assumption | intro _ | apply State.refuseDock_keeps | apply State.queueCal_keeps | apply State.runTask_keeps
    | apply State.work_keeps | apply keeps_ite | apply keeps_foldl | split | apply yields_ok)

theorem execDockCalNative_keeps {z s : State} (h : z.Keeps s) (t : TileId) :
    ∃ u, execDockCalNative t s = .next u ∧ z.Keeps u := by
  refine ⟨_, rfl, ?_⟩
  with_reducible repeat' (first | assumption | apply State.calTask_keeps)

theorem execDockCalCold_keeps {z s : State} (h : z.Keeps s) (t : TileId) :
    ∃ u, execDockCalCold t s = .next u ∧ z.Keeps u := by
  refine ⟨_, rfl, ?_⟩
  with_reducible repeat' (first | assumption | apply State.calTask_keeps)

theorem execDockCalQuickVerify_keeps {z s : State} (h : z.Keeps s) (t : TileId) :
    ∃ u, execDockCalQuickVerify t s = .next u ∧ z.Keeps u := by
  refine ⟨_, rfl, ?_⟩
  with_reducible repeat' (first | assumption | apply State.calTask_keeps)

theorem State.calComplete_keeps {z s : State} (h : z.Keeps s) (d : Nat) (kind : CalKind) (restore : Option Nat) :
    z.Keeps (State.calComplete s d kind restore) := by
  have h1 : z.Keeps (s.count 0x6100 8 64 1) := State.count_keeps h _ _ _ _
  have h2 : z.Keeps (if kind = .cold then (s.count 0x6100 8 64 1).count 0x6100 9 32 1 else s.count 0x6100 8 64 1) :=
    keeps_ite (State.count_keeps h1 _ _ _ _) h1
  unfold State.calComplete
  dsimp only
  split
  · split
    · exact keeps_update (State.setDock_keeps h1 _ _) rfl
    · exact h1
  · generalize (if kind = .cold then (s.count 0x6100 8 64 1).count 0x6100 9 32 1 else s.count 0x6100 8 64 1) = u at h2 ⊢
    exact keeps_update (keeps_drawn (State.setDock_keeps h2 d
      ((u.dock d).calibrated kind restore.isSome u.coldGain u.draws (u.dieDegrees (dockDie d)))) trimDraws) rfl

theorem State.raiseDones_keeps {z s : State} (h : z.Keeps s) (dones : List (Nat × Nat)) :
    z.Keeps (State.raiseDones s dones) := by
  unfold State.raiseDones
  with_reducible repeat' (first | assumption | intro _ | apply State.raise_keeps | apply keeps_ite | apply keeps_foldl)

theorem State.calSettled_keeps {z s : State} (h : z.Keeps s) :
    z.Keeps (State.calSettled s) := by
  unfold State.calSettled
  with_reducible repeat' (first
    | assumption | apply keeps_ite | extract_lets | dsimp +zetaDelta only | refine keeps_update ?_ rfl)

theorem State.calFault_keeps {z s : State} (h : z.Keeps s) (d : Nat) :
    z.Keeps (State.calFault s d) := by
  unfold State.calFault
  with_reducible repeat' (first
    | assumption | apply State.setDock_keeps | apply State.logHard_keeps | apply State.countHard_keeps | apply State.retireDock_keeps | apply State.jobFault_keeps | apply State.logEv_keeps | split | extract_lets)

theorem State.calEnd_keeps {z s : State} (h : z.Keeps s) (d : Nat) (r : CalReq) (pass : Bool) :
    z.Keeps (State.calEnd s d r pass) := by
  unfold State.calEnd
  with_reducible repeat' (first
    | assumption | apply State.raiseDones_keeps | apply State.setCalQueue_keeps | apply State.regrant_keeps
    | apply State.calComplete_keeps | apply State.calFault_keeps | apply State.count_keeps | apply State.calSettled_keeps
    | apply State.logEv_keeps | apply keeps_ite)

theorem execCalibrationStart_keeps {z s : State} (h : z.Keeps s) (t : TileId) :
    ∃ u, execCalibrationStart t s = .next u ∧ z.Keeps u := by
  refine ⟨_, rfl, ?_⟩
  with_reducible repeat' (first
    | assumption | apply State.setCalQueue_keeps | apply State.calSettled_keeps | apply keeps_ite | split)

theorem execCalibrationDone_keeps {z s : State} (h : z.Keeps s) (d : DockId) (pass : Bool) :
    ∃ u, execCalibrationDone d pass s = .next u ∧ z.Keeps u := by
  refine ⟨_, rfl, ?_⟩
  with_reducible repeat' (first | assumption | apply State.calEnd_keeps | split)

theorem execDieCalibration_keeps {z s : State} (h : z.Keeps s) (die : DieId) :
    ∃ u, execDieCalibration die s = .next u ∧ z.Keeps u := by
  refine ⟨_, rfl, ?_⟩
  with_reducible repeat' (first | assumption | apply keeps_ite | split | extract_lets | refine keeps_update ?_ rfl)

theorem State.dieComplete_keeps {z s : State} (h : z.Keeps s) (die : Nat) (x : DieCal) (failing : List Nat) :
    z.Keeps (State.dieComplete s die x failing) := by
  unfold State.dieComplete
  dsimp only
  have g := keeps_foldl (f := fun (u : State) d => u.calComplete d .native none)
    (l := (s.dieDocks die x).filter (fun d => !failing.contains d)) (fun u d hu => State.calComplete_keeps hu d _ _) h
  split
  · exact State.raiseDones_keeps (keeps_update g rfl) _
  · split
    · exact keeps_update g rfl
    · exact State.raiseDones_keeps (keeps_foldl (fun u d hu => State.calFault_keeps hu d) (keeps_update g rfl)) _

theorem execDieCalibrationDone_keeps {z s : State} (h : z.Keeps s) (r : DieResult) :
    ∃ u, execDieCalibrationDone r s = .next u ∧ z.Keeps u := by
  refine ⟨_, rfl, ?_⟩
  with_reducible repeat' (first | assumption | apply State.dieComplete_keeps | apply keeps_ite | split)

theorem State.queueColds_keeps {z s : State} (h : z.Keeps s) (p : Dock → Bool) :
    z.Keeps (State.queueColds s p) := by
  unfold State.queueColds
  with_reducible repeat' (first | assumption | intro _ | apply State.setCalQueue_keeps | apply keeps_foldl)

theorem State.startColds_keeps {z s : State} (h : z.Keeps s) (p : Dock → Bool) :
    z.Keeps (State.startColds s p) := by
  unfold State.startColds
  with_reducible repeat' (first
    | assumption | apply State.queueColds_keeps | apply State.calSettled_keeps | extract_lets | dsimp +zetaDelta only
    | refine keeps_update ?_ rfl)

theorem State.closeRestore_keeps {z s : State} (h : z.Keeps s) :
    z.Keeps (State.closeRestore s) := by
  unfold State.closeRestore
  with_reducible repeat' (first
    | assumption | apply State.windowsDown_keeps | apply State.startColds_keeps | apply State.sweepTransfers_keeps
    | extract_lets | dsimp +zetaDelta only | refine keeps_update ?_ rfl)

theorem execRestoreWindowTimeout_keeps {z s : State} (h : z.Keeps s) :
    ∃ u, execRestoreWindowTimeout s = .next u ∧ z.Keeps u := by
  refine ⟨_, rfl, ?_⟩
  with_reducible repeat' (first | assumption | apply State.closeRestore_keeps | apply keeps_ite)

theorem execSettleCapTimeout_keeps {z s : State} (h : z.Keeps s) :
    ∃ u, execSettleCapTimeout s = .next u ∧ z.Keeps u := by
  refine ⟨_, rfl, ?_⟩
  with_reducible repeat' (first
    | assumption | apply State.logEv_keeps | apply keeps_ite | extract_lets | dsimp +zetaDelta only
    | refine keeps_update ?_ rfl)

theorem State.noteSettle_keeps {z s : State} (h : z.Keeps s) (die : Nat) :
    z.Keeps (State.noteSettle s die) := by
  unfold State.noteSettle
  with_reducible repeat' (first
    | assumption | apply State.settle_keeps | apply keeps_ite | extract_lets | dsimp +zetaDelta only | refine keeps_update ?_ rfl)

theorem State.applyBlock_keeps {z s : State} (h : z.Keeps s) (d : Nat) (b : List Byte) :
    z.Keeps (State.applyBlock s d b) := by
  unfold State.applyBlock
  with_reducible repeat' (first | assumption | apply State.queueDock_keeps | apply State.queueCal_keeps | apply State.setDock_keeps | apply keeps_ite)

theorem State.applyTrims_keeps {z s : State} (h : z.Keeps s) (die : Nat) (bs : List Byte) :
    z.Keeps (State.applyTrims s die bs) := by
  unfold State.applyTrims
  with_reducible repeat' (first
    | assumption | intro _ | apply State.applyBlock_keeps | apply State.closeRestore_keeps | apply keeps_ite
    | apply keeps_foldl | split | extract_lets | dsimp +zetaDelta only | refine keeps_update ?_ rfl)

end Sys2Proof.Machine
end

