-- ==== Sys2Proof/Laws/KeepsMgmt.lean ====
section
/-! SUPPORT. What the operations of Machine/Mgmt.lean keep (State.Keeps). -/

namespace Sys2Proof.Machine

theorem execDadComplete_keeps {z s : State} (h : z.Keeps s) (duplicate : Bool) :
    ∃ u, execDadComplete duplicate s = .next u ∧ z.Keeps u := by
  refine ⟨_, rfl, ?_⟩
  with_reducible repeat' (first | assumption | apply State.put_keeps | apply keeps_ite)

theorem State.rx_keeps {z s : State} (h : z.Keeps s) :
    z.Keeps (State.rx s) := by
  unfold State.rx
  with_reducible repeat' (first | assumption | apply State.count_keeps)

theorem State.tx_keeps {z s : State} (h : z.Keeps s) (o : Output) :
    z.Keeps (State.tx s o) := by
  unfold State.tx
  with_reducible repeat' (first | assumption | apply State.count_keeps | apply State.emit_keeps | apply keeps_ite)

theorem execNeighbourSolicitation_keeps {z s : State} (h : z.Keeps s) (srcAddr : Nat) (target : Nat) :
    ∃ u, execNeighbourSolicitation srcAddr target s = .next u ∧ z.Keeps u := by
  refine ⟨_, rfl, ?_⟩
  with_reducible repeat' (first | assumption | apply State.tx_keeps | apply State.rx_keeps | apply keeps_ite)

theorem execEchoRequest_keeps {z s : State} (h : z.Keeps s) (srcAddr : Nat) (data : List Byte) :
    ∃ u, execEchoRequest srcAddr data s = .next u ∧ z.Keeps u := by
  refine ⟨_, rfl, ?_⟩
  with_reducible repeat' (first | assumption | apply State.tx_keeps | apply State.rx_keeps | apply keeps_ite)

theorem execPlcaBeaconTimeout_keeps {z s : State} (h : z.Keeps s) :
    ∃ u, execPlcaBeaconTimeout s = .next u ∧ z.Keeps u := by
  refine ⟨_, rfl, ?_⟩
  with_reducible repeat' (first
    | assumption | apply State.put_keeps | apply keeps_ite | extract_lets | dsimp +zetaDelta only | refine keeps_update ?_ rfl)

theorem execPlcaBeacon_keeps {z s : State} (h : z.Keeps s) :
    ∃ u, execPlcaBeacon s = .next u ∧ z.Keeps u := by
  refine ⟨_, rfl, ?_⟩
  with_reducible repeat' (first
    | assumption | apply State.put_keeps | apply keeps_ite | extract_lets | dsimp +zetaDelta only | refine keeps_update ?_ rfl)

theorem State.setSpdm_keeps {z s : State} (h : z.Keeps s) (path : SpdmPath) (c : SpdmConn) :
    z.Keeps (State.setSpdm s path c) := by
  unfold State.setSpdm
  with_reducible repeat' (first | assumption | apply keeps_ite | split | extract_lets | refine keeps_update ?_ rfl)

theorem State.spdmSend_keeps {z s : State} (h : z.Keeps s) (path : SpdmPath) (msg : List Byte) :
    z.Keeps (State.spdmSend s path msg) := by
  unfold State.spdmSend
  with_reducible repeat' (first
    | assumption | apply State.emit_keeps | split | extract_lets | dsimp +zetaDelta only | refine keeps_update ?_ rfl)

theorem State.spdmReject_keeps {z s : State} (h : z.Keeps s) (path : SpdmPath) (code : Nat) (data : Nat) :
    z.Keeps (State.spdmReject s path code data) := by
  unfold State.spdmReject
  with_reducible repeat' (first | assumption | apply State.spdmSend_keeps | apply State.logEv_keeps)

theorem State.spdmStep_keeps {z s : State} (h : z.Keeps s) (path : SpdmPath) (ready : Bool) (f : State → State) (hf : ∀ u, z.Keeps u → z.Keeps (f u)) :
    z.Keeps (State.spdmStep s path ready f) := by
  unfold State.spdmStep
  with_reducible repeat' (first | assumption | apply State.spdmReject_keeps | apply hf | apply keeps_ite)

theorem State.spdmSign_keeps {z s : State} (h : z.Keeps s) (msg : List Byte) : z.Keeps (s.spdmSign msg).2 := keeps_drawn h 1

theorem execSpdmGetVersion_keeps {z s : State} (h : z.Keeps s) (path : SpdmPath) :
    ∃ u, execSpdmGetVersion path s = .next u ∧ z.Keeps u := by
  refine ⟨_, rfl, ?_⟩
  with_reducible repeat' (first
    | assumption | intro _ | apply State.setSpdm_keeps | apply State.spdmSend_keeps | apply State.spdmStep_keeps)

theorem execSpdmGetCapabilities_keeps {z s : State} (h : z.Keeps s) (path : SpdmPath) :
    ∃ u, execSpdmGetCapabilities path s = .next u ∧ z.Keeps u := by
  refine ⟨_, rfl, ?_⟩
  with_reducible repeat' (first
    | assumption | intro _ | apply State.setSpdm_keeps | apply State.spdmSend_keeps | apply State.spdmStep_keeps)

theorem execSpdmNegotiateAlgorithms_keeps {z s : State} (h : z.Keeps s) (path : SpdmPath) (offersP384 : Bool) (offersSha384 : Bool) :
    ∃ u, execSpdmNegotiateAlgorithms path offersP384 offersSha384 s = .next u ∧ z.Keeps u := by
  refine ⟨_, rfl, ?_⟩
  with_reducible repeat' (first
    | assumption | intro _ | apply State.spdmReject_keeps | apply State.setSpdm_keeps | apply State.spdmSend_keeps
    | apply State.spdmStep_keeps | apply keeps_ite)

theorem execSpdmGetDigests_keeps {z s : State} (h : z.Keeps s) (path : SpdmPath) :
    ∃ u, execSpdmGetDigests path s = .next u ∧ z.Keeps u := by
  refine ⟨_, rfl, ?_⟩
  with_reducible repeat' (first | assumption | intro _ | apply State.spdmSend_keeps | apply State.spdmStep_keeps)

theorem execSpdmGetCertificate_keeps {z s : State} (h : z.Keeps s) (path : SpdmPath) (slot : Nat) (offset : Nat) (length : Nat) :
    ∃ u, execSpdmGetCertificate path slot offset length s = .next u ∧ z.Keeps u := by
  refine ⟨_, rfl, ?_⟩
  with_reducible repeat' (first
    | assumption | intro _ | apply State.spdmReject_keeps | apply State.spdmSend_keeps | apply State.spdmStep_keeps
    | apply keeps_ite)

theorem execSpdmChallenge_keeps {z s : State} (h : z.Keeps s) (path : SpdmPath) (slot : Nat) (nonce : List Byte) :
    ∃ u, execSpdmChallenge path slot nonce s = .next u ∧ z.Keeps u := by
  refine ⟨_, rfl, ?_⟩
  with_reducible repeat' (first
    | assumption | intro _ | apply State.draw_keeps | apply State.spdmReject_keeps | apply State.spdmSend_keeps
    | apply State.spdmSign_keeps | apply State.spdmStep_keeps | apply keeps_ite)

theorem execSpdmGetMeasurements_keeps {z s : State} (h : z.Keeps s) (path : SpdmPath) (index : Nat) (signed : Bool) (nonce : List Byte) :
    ∃ u, execSpdmGetMeasurements path index signed nonce s = .next u ∧ z.Keeps u := by
  refine ⟨_, rfl, ?_⟩
  with_reducible repeat' (first
    | assumption | intro _ | apply State.spdmReject_keeps | apply State.spdmSend_keeps | apply State.spdmSign_keeps
    | apply State.spdmStep_keeps | apply keeps_ite)

theorem execSpdmUnsupported_keeps {z s : State} (h : z.Keeps s) (path : SpdmPath) (request : Nat) (malformed : Bool) :
    ∃ u, execSpdmUnsupported path request malformed s = .next u ∧ z.Keeps u := by
  refine ⟨_, rfl, ?_⟩
  with_reducible repeat' (first
    | assumption | intro _ | apply State.spdmReject_keeps | apply State.spdmStep_keeps | apply keeps_ite)

theorem State.tapSet_keeps {z s : State} (h : z.Keeps s) (i : TapInstr) :
    z.Keeps (State.tapSet s i) := by
  unfold State.tapSet
  with_reducible repeat' (first | assumption | extract_lets | dsimp +zetaDelta only | refine keeps_update ?_ rfl)

theorem execTestReset_keeps {z s : State} (h : z.Keeps s) :
    ∃ u, execTestReset s = .next u ∧ z.Keeps u := by
  refine ⟨_, rfl, ?_⟩
  with_reducible repeat' (first | assumption | apply State.tapSet_keeps)

theorem execExtest_keeps {z s : State} (h : z.Keeps s) (bits : Nat) :
    ∃ u, execExtest bits s = .next u ∧ z.Keeps u := by
  refine ⟨_, rfl, ?_⟩
  with_reducible repeat' (first
    | assumption | apply State.tapSet_keeps | apply keeps_ite | extract_lets | dsimp +zetaDelta only
    | refine keeps_update ?_ rfl)

theorem execIdcode_keeps {z s : State} (h : z.Keeps s) :
    ∃ u, execIdcode s = .next u ∧ z.Keeps u := by
  refine ⟨_, rfl, ?_⟩
  with_reducible repeat' (first | assumption | apply State.tapSet_keeps)

theorem execSamplePreload_keeps {z s : State} (h : z.Keeps s) (bits : Nat) :
    ∃ u, execSamplePreload bits s = .next u ∧ z.Keeps u := by
  refine ⟨_, rfl, ?_⟩
  with_reducible repeat' (first | assumption | extract_lets | refine keeps_update ?_ rfl)

theorem execHighz_keeps {z s : State} (h : z.Keeps s) :
    ∃ u, execHighz s = .next u ∧ z.Keeps u := by
  refine ⟨_, rfl, ?_⟩
  with_reducible repeat' (first | assumption | apply State.tapSet_keeps)

theorem execClamp_keeps {z s : State} (h : z.Keeps s) :
    ∃ u, execClamp s = .next u ∧ z.Keeps u := by
  refine ⟨_, rfl, ?_⟩
  with_reducible repeat' (first | assumption | apply State.tapSet_keeps)

theorem execBypass_keeps {z s : State} (h : z.Keeps s) :
    ∃ u, execBypass s = .next u ∧ z.Keeps u := by
  refine ⟨_, rfl, ?_⟩
  with_reducible repeat' (first | assumption | apply State.tapSet_keeps)

theorem execPrivateInstruction_keeps {z s : State} (h : z.Keeps s) (opcode : Nat) :
    ∃ u, execPrivateInstruction opcode s = .next u ∧ z.Keeps u := by
  refine ⟨_, rfl, ?_⟩
  with_reducible repeat' (first | assumption | apply State.tapSet_keeps)

end Sys2Proof.Machine
end

