-- ==== Sys2Proof/Laws/KeepsPlatform.lean ====
section
/-! SUPPORT. What the operations of Machine/Platform.lean keep (State.Keeps). -/

namespace Sys2Proof.Machine

theorem State.freshDocks_keeps {z s : State} (h : z.Keeps s) (t : Nat) :
    z.Keeps (State.freshDocks s t) := by
  unfold State.freshDocks
  with_reducible repeat' (first | assumption | intro _ | apply keeps_iter | extract_lets | refine keeps_update ?_ rfl)

theorem State.placeWord_keeps {z s : State} (h : z.Keeps s) (die : Nat) (l : Nat) (st : Nat) (p : Nat) :
    z.Keeps (State.placeWord s die l st p) := by
  unfold State.placeWord
  with_reducible repeat' (first | assumption | apply State.put_keeps)

theorem State.applyDie_keeps {z s : State} (h : z.Keeps s) (die : Nat) (x : DiePass) :
    z.Keeps (State.applyDie s die x) := by
  unfold State.applyDie
  with_reducible repeat' (first
    | assumption | intro _ | apply State.placeWord_keeps | apply State.freshDocks_keeps | apply State.logEv_keeps
    | apply keeps_ite | apply keeps_foldl | apply keeps_iter | split)

theorem State.keepRec_keeps {z s : State} (h : z.Keeps s) (idx : Nat) (sub : Nat) :
    z.Keeps (State.keepRec s idx sub) := by
  unfold State.keepRec
  with_reducible repeat' (first | assumption | extract_lets | dsimp +zetaDelta only | refine keeps_update ?_ rfl)

theorem State.passBooks_keeps {z s : State} (h : z.Keeps s) (xs : List DiePass) (failed : Nat) :
    z.Keeps (State.passBooks s xs failed) := by
  unfold State.passBooks
  with_reducible repeat' (first
    | assumption | apply State.keepRec_keeps | apply State.put_keeps | apply State.count_keeps | extract_lets
    | dsimp +zetaDelta only | refine keeps_update ?_ rfl)

theorem State.selfTestEnd_keeps {z s : State} (h : z.Keeps s) (failed : List Nat) :
    z.Keeps (State.selfTestEnd s failed) := by
  unfold State.selfTestEnd
  with_reducible repeat' (first
    | assumption | apply State.freshDocks_keeps | intro _ | apply State.applyDie_keeps | apply State.forget_keeps | apply State.passBooks_keeps
    | apply keeps_foldl)

theorem execSelfTestRun_keeps {z s : State} (h : z.Keeps s) (src : Src) :
    ∃ u, execSelfTestRun src s = .next u ∧ z.Keeps u := by
  refine ⟨_, rfl, ?_⟩
  with_reducible repeat' (first | assumption | intro _ | apply State.put_keeps | apply State.guarded_keeps | apply yields_ok)

theorem State.afterSelfTest_keeps {z s : State} (h : z.Keeps s) :
    z.Keeps (State.afterSelfTest s) := by
  unfold State.afterSelfTest
  with_reducible repeat' (first
    | assumption | apply State.startColds_keeps | apply State.put_keeps | apply keeps_ite | extract_lets
    | dsimp +zetaDelta only | refine keeps_update ?_ rfl)

theorem execSelfTestComplete_keeps {z s : State} (h : z.Keeps s) (failed : List Nat) :
    ∃ u, execSelfTestComplete failed s = .next u ∧ z.Keeps u := by
  refine ⟨_, rfl, ?_⟩
  with_reducible repeat' (first
    | assumption | apply State.queueColds_keeps | apply State.selfTestEnd_keeps | apply State.afterSelfTest_keeps
    | apply keeps_ite)

theorem State.readMeta_keeps {z s : State} (h : z.Keeps s) (bad : List Nat) :
    z.Keeps (State.readMeta s bad) := by
  unfold State.readMeta
  with_reducible repeat' (first
    | assumption | intro _ | apply State.logEv_keeps | apply keeps_foldl | extract_lets | refine keeps_update ?_ rfl)

theorem execDramTrainingDone_keeps {z s : State} (h : z.Keeps s) (failedStacks : List Nat) (badMetaDocks : List Nat) :
    ∃ u, execDramTrainingDone failedStacks badMetaDocks s = .next u ∧ z.Keeps u := by
  refine ⟨_, rfl, ?_⟩
  with_reducible repeat' (first
    | assumption | apply State.readMeta_keeps | apply State.put_keeps | apply State.bootFail_keeps | apply keeps_ite
    | extract_lets | dsimp +zetaDelta only | refine keeps_update ?_ rfl)

theorem execDefaultObjectsLoaded_keeps {z s : State} (h : z.Keeps s) :
    ∃ u, execDefaultObjectsLoaded s = .next u ∧ z.Keeps u := by
  refine ⟨_, rfl, ?_⟩
  with_reducible repeat' (first | assumption | apply State.becomeReady_keeps | apply keeps_ite)

theorem execNapEntry_keeps {z s : State} (h : z.Keeps s) :
    ∃ u, execNapEntry s = .next u ∧ z.Keeps u := by
  refine ⟨_, rfl, ?_⟩
  with_reducible repeat' (first
    | assumption | apply State.setPst_keeps | apply State.sweepTransfers_keeps | apply keeps_ite | extract_lets
    | dsimp +zetaDelta only | refine keeps_update ?_ rfl)

theorem execIdleTimeout_keeps {z s : State} (h : z.Keeps s) :
    ∃ u, execIdleTimeout s = .next u ∧ z.Keeps u := by
  refine ⟨_, rfl, ?_⟩
  with_reducible repeat' (first | assumption | apply State.idle_keeps | apply State.setPst_keeps | apply keeps_ite)

theorem State.cmdShutdown_keeps {z s : State} (h : z.Keeps s) :
    Yields z.Keeps (State.cmdShutdown s) := by
  unfold State.cmdShutdown
  with_reducible repeat' (first
    | assumption | split | apply yields_ok | apply yields_error | extract_lets | dsimp +zetaDelta only
    | refine keeps_update ?_ rfl)

theorem execPowerShutdown_keeps {z s : State} (h : z.Keeps s) (src : Src) :
    ∃ u, execPowerShutdown src s = .next u ∧ z.Keeps u := by
  refine ⟨_, rfl, ?_⟩
  with_reducible repeat' (first | assumption | intro _ | apply State.powerCommand_keeps | apply State.cmdShutdown_keeps)

theorem State.sendEvents_keeps {z s : State} (h : z.Keeps s) :
    z.Keeps (State.sendEvents s) := by
  unfold State.sendEvents
  with_reducible repeat' (first
    | assumption | intro _ | apply State.tx_keeps | apply keeps_ite | apply keeps_foldl | extract_lets | dsimp +zetaDelta only
    | refine keeps_update ?_ rfl)

theorem State.persistRing_keeps {z s : State} (h : z.Keeps s) :
    z.Keeps (State.persistRing s) := by
  unfold State.persistRing
  with_reducible repeat' (first | assumption | extract_lets | dsimp +zetaDelta only | refine keeps_update ?_ rfl)

theorem execEventLogPersist_keeps {z s : State} (h : z.Keeps s) :
    ∃ u, execEventLogPersist s = .next u ∧ z.Keeps u := by
  refine ⟨_, rfl, ?_⟩
  with_reducible repeat' (first | assumption | apply State.sendEvents_keeps | apply State.persistRing_keeps | apply keeps_ite)

theorem execShutdownDone_keeps {z s : State} (h : z.Keeps s) :
    ∃ u, execShutdownDone s = .next u ∧ z.Keeps u := by
  refine ⟨_, rfl, ?_⟩
  with_reducible repeat' (first
    | assumption | apply State.fallTo_keeps | apply State.persistRing_keeps | apply State.saveAgeing_keeps | apply keeps_ite
    | extract_lets | dsimp +zetaDelta only | refine keeps_update ?_ rfl)

theorem State.loopDie_keeps {z s : State} (h : z.Keeps s) (past : Bool) (up : Bool) (pkgCause : Nat) (d : Nat) :
    z.Keeps (State.loopDie s past up pkgCause d) := by
  unfold State.loopDie
  with_reducible repeat' (first
    | assumption | apply State.put_keeps | split | extract_lets | dsimp +zetaDelta only | refine keeps_update ?_ rfl)

theorem State.loopLog_keeps {z s : State} (h : z.Keeps s) (causes : List Nat) :
    z.Keeps (State.loopLog s causes) := by
  unfold State.loopLog
  with_reducible repeat' (first | assumption | apply State.logEvery_keeps | apply keeps_ite)

theorem State.powerTick_keeps {z s : State} (h : z.Keeps s) (neMv : Nat) (swMv : Nat) (neDa : Nat) (swDa : Nat) :
    z.Keeps (State.powerTick s neMv swMv neDa swDa) := by
  unfold State.powerTick
  with_reducible repeat' (first
    | assumption | intro _ | apply State.loopLog_keeps | apply State.put_keeps | apply State.count_keeps
    | apply State.loopDie_keeps | apply keeps_ite | apply keeps_iter | split | extract_lets | dsimp +zetaDelta only
    | refine keeps_update ?_ rfl)

theorem execPowerLoopTick_keeps {z s : State} (h : z.Keeps s) (neMv : Nat) (swMv : Nat) (neDa : Nat) (swDa : Nat) :
    ∃ u, execPowerLoopTick neMv swMv neDa swDa s = .next u ∧ z.Keeps u := by
  refine ⟨_, rfl, ?_⟩
  with_reducible repeat' (first | assumption | apply State.powerTick_keeps | apply keeps_ite)

theorem execDvfsStepDone_keeps {z s : State} (h : z.Keeps s) (die : DieId) :
    ∃ u, execDvfsStepDone die s = .next u ∧ z.Keeps u := by
  refine ⟨_, rfl, ?_⟩
  with_reducible repeat' (first | assumption | apply State.put_keeps | apply keeps_ite)

theorem execAdcConversionDone_keeps {z s : State} (h : z.Keeps s) (conv : Fin 2) (code : Int) :
    ∃ u, execAdcConversionDone conv code s = .next u ∧ z.Keeps u := by
  refine ⟨_, rfl, ?_⟩
  with_reducible repeat' (first
    | assumption | apply State.tempTrigger_keeps | apply State.noteSettle_keeps | apply State.conversion_keeps
    | apply keeps_ite | split)

theorem State.startSave_keeps {z s : State} (h : z.Keeps s) :
    z.Keeps (State.startSave s) := by
  unfold State.startSave
  with_reducible repeat' (first | assumption | apply State.put_keeps | split | dsimp only | refine keeps_update ?_ rfl)

theorem execStoreSave_keeps {z s : State} (h : z.Keeps s) (src : Src) :
    ∃ u, execStoreSave src s = .next u ∧ z.Keeps u := by
  refine ⟨_, rfl, ?_⟩
  with_reducible repeat' (first
    | assumption | intro _ | apply State.startSave_keeps | apply State.guarded_keeps | split | apply yields_ok
    | apply yields_error)

theorem State.savedDefaults_keeps {z s : State} (h : z.Keeps s) :
    z.Keeps (State.savedDefaults s) := by
  unfold State.savedDefaults
  with_reducible repeat' (first | assumption | extract_lets | dsimp +zetaDelta only | refine keeps_update ?_ rfl)

theorem execStoreDefaults_keeps {z s : State} (h : z.Keeps s) (src : Src) :
    ∃ u, execStoreDefaults src s = .next u ∧ z.Keeps u := by
  refine ⟨_, rfl, ?_⟩
  with_reducible repeat' (first
    | assumption | intro _ | apply State.savedDefaults_keeps | apply State.startSave_keeps | apply State.guarded_keeps | split
    | apply yields_ok | apply yields_error)

theorem execStoreSaveDone_keeps {z s : State} (h : z.Keeps s) (ok : Bool) :
    ∃ u, execStoreSaveDone ok s = .next u ∧ z.Keeps u := by
  refine ⟨_, rfl, ?_⟩
  with_reducible repeat' (first
    | assumption | apply State.put_keeps | apply State.logEv_keeps | apply keeps_ite | split | extract_lets | dsimp only
    | dsimp +zetaDelta only | refine keeps_update ?_ rfl)

theorem State.positionEff_keeps {z s : State} (h : z.Keeps s) (v : Nat) :
    Yields z.Keeps (State.positionEff s v) := by
  unfold State.positionEff
  with_reducible repeat' (first
    | assumption | apply State.applyStaged_keeps | split | apply yields_ok | apply yields_error | apply yields_ite)

theorem execPositionApply_keeps {z s : State} (h : z.Keeps s) (src : Src) (value : Nat) :
    ∃ u, execPositionApply src value s = .next u ∧ z.Keeps u := by
  refine ⟨_, rfl, ?_⟩
  with_reducible repeat' (first | assumption | intro _ | apply State.positionEff_keeps | apply State.guarded_keeps)

end Sys2Proof.Machine
end

