-- ==== Sys2Proof/Laws/KeepsAgeing.lean ====
section
/-! SUPPORT. What the operations of Machine/Ageing.lean keep (State.Keeps). -/

namespace Sys2Proof.Machine

theorem State.measureMargins_keeps {z s : State} (h : z.Keeps s) :
    z.Keeps (State.measureMargins s) := by
  unfold State.measureMargins
  with_reducible repeat' (first
    | assumption | intro _ | apply State.draw_keeps | apply State.put_keeps | apply keeps_foldl | apply keeps_iter)

theorem State.refreshEol_keeps {z s : State} (h : z.Keeps s) :
    z.Keeps (State.refreshEol s) := by
  unfold State.refreshEol
  with_reducible repeat' (first
    | assumption | intro _ | apply State.put_keeps | apply State.logEv_keeps | apply keeps_ite | apply keeps_foldl
    | extract_lets | dsimp +zetaDelta only | refine keeps_update ?_ rfl)

theorem execAgeingSample_keeps {z s : State} (h : z.Keeps s) (slow : List Int) (drift : List (Nat × Nat)) (corrected : List Nat) :
    ∃ u, execAgeingSample slow drift corrected s = .next u ∧ z.Keeps u := by
  refine ⟨_, rfl, ?_⟩
  with_reducible repeat' (first
    | assumption | intro _ | apply State.put_keeps | apply State.measureMargins_keeps | apply State.refreshEol_keeps
    | apply keeps_ite | apply keeps_iter | extract_lets | dsimp +zetaDelta only | refine keeps_update ?_ rfl)

theorem execAgeingDayEnd_keeps {z s : State} (h : z.Keeps s) :
    ∃ u, execAgeingDayEnd s = .next u ∧ z.Keeps u := by
  refine ⟨_, rfl, ?_⟩
  with_reducible repeat' (first
    | assumption | apply State.saveAgeing_keeps | apply keeps_ite | extract_lets | dsimp +zetaDelta only
    | refine keeps_update ?_ rfl)

end Sys2Proof.Machine
end

