-- ==== Sys2Proof/Laws/KeepsNarrow.lean ====
section
/-! SUPPORT. What the operations of Machine/Narrow.lean keep (State.Keeps). -/

namespace Sys2Proof.Machine

theorem State.setTally_keeps {z s : State} (h : z.Keeps s) (key : Nat) (e : TallySlot) :
    z.Keeps (State.setTally s key e) := by
  unfold State.setTally
  with_reducible repeat' (first | assumption | refine keeps_update ?_ rfl)

theorem State.narrowEv_keeps {z s : State} (h : z.Keeps s) (c : Nat) (code : Nat) (sev : Nat) (layerId : Nat) (more : optParam (List Byte) []) :
    z.Keeps (State.narrowEv s c code sev layerId more) := by
  unfold State.narrowEv
  with_reducible repeat' (first | assumption | apply State.logEv_keeps)

theorem State.dropSample_keeps {z s : State} (h : z.Keeps s) (c : Nat) (layerId : Nat) :
    z.Keeps (State.dropSample s c layerId) := by
  unfold State.dropSample
  with_reducible repeat' (first
    | assumption | apply State.narrowEv_keeps | apply State.setCtx_keeps | apply State.count_keeps | apply keeps_ite)

theorem State.takeSample_keeps {z s : State} (h : z.Keeps s) (t : Nat) (k : Task) (cap : Cap) (slot : Nat) (checker : Nat) :
    Yields z.Keeps (State.takeSample s t k cap slot checker) := by
  unfold State.takeSample
  with_reducible repeat' (first
    | assumption | apply State.writeNow_keeps | apply State.setTally_keeps | apply State.drawBytes_keeps
    | apply State.setCtx_keeps | apply State.modTask_keeps | split | apply yields_ok | apply yields_error
    | refine ok_snd (by assumption) ?_ | refine eq_snd (by assumption) ?_ | extract_lets)

theorem State.countEligible_keeps {z s : State} (h : z.Keeps s) (t : Nat) (k : Task) :
    z.Keeps (State.countEligible s t k) := by
  unfold State.countEligible
  with_reducible repeat' (first
    | assumption | intro _ | apply State.setCtx_keeps | split)

theorem State.considerSample_keeps {z s : State} (h : z.Keeps s) (t : Nat) (k : Task) :
    Yields z.Keeps (State.considerSample s t k) := by
  unfold State.considerSample
  with_reducible repeat' (first
    | assumption | apply State.countEligible_keeps | apply State.dropSample_keeps | apply State.takeSample_keeps | apply State.narrowEv_keeps
    | apply State.setCtx_keeps | split | apply yields_ok | apply yields_ite | extract_lets | dsimp +zetaDelta only)

theorem execTallySampleCopyDone_keeps {z s : State} (h : z.Keeps s) (c : CtxId) (slot : Nat) :
    ∃ u, execTallySampleCopyDone c slot s = .next u ∧ z.Keeps u := by
  refine ⟨_, rfl, ?_⟩
  with_reducible repeat' (first | assumption | apply State.setTally_keeps | apply keeps_ite | split)

theorem State.judgeProd_keeps {z s : State} (h : z.Keeps s) (t : Nat) (c : Nat) (wide : Bool) (b : Binding) (p : CapProd) :
    Yields (fun p => z.Keeps p.2) (State.judgeProd s t c wide b p) := by
  unfold State.judgeProd
  with_reducible repeat' (first
    | assumption | apply State.readMaster_keeps | split | apply yields_ok | apply yields_error
    | refine ok_snd (by assumption) ?_ | extract_lets | dsimp only | dsimp +zetaDelta only)

theorem State.judgeProds_keeps {z s : State} (h : z.Keeps s) (t : Nat) (c : Nat) (wide : Bool) (b : Binding) (x5 : List CapProd) :
    Yields (fun p => z.Keeps p.2) (State.judgeProds s t c wide b x5) := by
  induction x5 generalizing s with
  | nil =>
  unfold State.judgeProds
  with_reducible repeat' (first | assumption | apply yields_ok)
  | cons y l ih =>
  unfold State.judgeProds
  with_reducible repeat' (first
    | assumption | apply State.judgeProd_keeps | apply ih | split | apply yields_ok | apply yields_error
    | refine ok_snd (by assumption) ?_)

theorem State.fittedColumn_keeps {z s : State} (h : z.Keeps s) (t : Nat) (c : Nat) (base : Nat) (o : Nat) (scale : Num) (x6 : List Nat) :
    Yields (fun p => z.Keeps p.2) (State.fittedColumn s t c base o scale x6) := by
  induction x6 generalizing s with
  | nil =>
  unfold State.fittedColumn
  with_reducible repeat' (first | assumption | apply yields_ok)
  | cons y l ih =>
  unfold State.fittedColumn
  with_reducible repeat' (first
    | assumption | apply State.readVa_keeps | apply ih | split | apply yields_ok | apply yields_error
    | refine ok_snd (by assumption) ?_)

theorem State.termWeights_keeps {z s : State} (h : z.Keeps s) (t : Nat) (c : Nat) (b : Binding) (behind : Bool) (col : Nat) (e : CapTerm) :
    Yields (fun p => z.Keeps p.2) (State.termWeights s t c b behind col e) := by
  unfold State.termWeights
  with_reducible repeat' (first
    | assumption | apply State.readVa_keeps | apply State.fittedColumn_keeps | apply State.readMaster_keeps | split
    | apply yields_ok | apply yields_error | refine ok_snd (by assumption) ?_ | extract_lets)

theorem State.termsWeights_keeps {z s : State} (h : z.Keeps s) (t : Nat) (c : Nat) (b : Binding) (behind : Bool) (col : Nat) (x6 : List CapTerm) :
    Yields (fun p => z.Keeps p.2) (State.termsWeights s t c b behind col x6) := by
  induction x6 generalizing s with
  | nil =>
  unfold State.termsWeights
  with_reducible repeat' (first | assumption | apply yields_ok)
  | cons y l ih =>
  unfold State.termsWeights
  with_reducible repeat' (first
    | assumption | apply State.termWeights_keeps | apply ih | split | apply yields_ok | apply yields_error
    | refine ok_snd (by assumption) ?_)

theorem State.judgeOut_keeps {z s : State} (h : z.Keeps s) (t : Nat) (c : Nat) (b : Binding) (behind : Bool) (o : CapOut) :
    Yields (fun p => z.Keeps p.2) (State.judgeOut s t c b behind o) := by
  unfold State.judgeOut
  with_reducible repeat' (first
    | assumption | apply State.termsWeights_keeps | split | apply yields_ok | apply yields_error
    | refine ok_snd (by assumption) ?_)

theorem State.judgeOuts_keeps {z s : State} (h : z.Keeps s) (t : Nat) (c : Nat) (b : Binding) (behind : Bool) (x5 : List CapOut) :
    Yields (fun p => z.Keeps p.2) (State.judgeOuts s t c b behind x5) := by
  induction x5 generalizing s with
  | nil =>
  unfold State.judgeOuts
  with_reducible repeat' (first | assumption | apply yields_ok)
  | cons y l ih =>
  unfold State.judgeOuts
  with_reducible repeat' (first
    | assumption | apply State.judgeOut_keeps | apply ih | split | apply yields_ok | apply yields_error
    | refine ok_snd (by assumption) ?_)

theorem State.recompute_keeps {z s : State} (h : z.Keeps s) (t : Nat) (c : Nat) (cap : Cap) :
    Yields (fun p => z.Keeps p.2) (State.recompute s t c cap) := by
  unfold State.recompute
  with_reducible repeat' (first
    | assumption | apply State.judgeOuts_keeps | apply State.judgeProds_keeps | split | apply yields_ok | apply yields_error
    | refine ok_snd (by assumption) ?_ | extract_lets)

theorem State.tallyEnd_keeps {z s : State} (h : z.Keeps s) (key : Nat) (done : Bool) :
    z.Keeps (State.tallyEnd s key done) := by
  unfold State.tallyEnd
  with_reducible repeat' (first
    | assumption | apply State.maybeStop_keeps | apply State.count_keeps | apply keeps_ite | extract_lets
    | refine keeps_update ?_ rfl)

theorem State.tallyTransient_keeps {z s : State} (h : z.Keeps s) (c : Nat) (e : TallySlot) :
    z.Keeps (State.tallyTransient s c e) := by
  unfold State.tallyTransient
  with_reducible repeat' (first
    | assumption | intro _ | apply State.setCtx_keeps | apply State.count_keeps | apply State.logEv_keeps | apply keeps_foldl)

theorem State.tallyAgreed_keeps {z s : State} (h : z.Keeps s) (key : Nat) (e : TallySlot) :
    z.Keeps (State.tallyAgreed s key e) := by
  unfold State.tallyAgreed
  with_reducible repeat' (first
    | assumption | apply State.tallyTransient_keeps | apply State.tallyEnd_keeps | apply keeps_ite)

theorem State.tallyWrong_keeps {z s : State} (h : z.Keeps s) (key : Nat) (e : TallySlot) (outs : List Nat) :
    z.Keeps (State.tallyWrong s key e outs) := by
  unfold State.tallyWrong
  with_reducible repeat' (first
    | assumption | intro _ | apply State.triggerCal_keeps | apply State.jobFault_keeps | apply State.wantReplay_keeps
    | apply State.tallyEnd_keeps | apply State.logEv_keeps | apply keeps_ite | apply keeps_foldl | split | extract_lets
    | refine keeps_update ?_ rfl)

theorem State.checkerFault_keeps {z s : State} (h : z.Keeps s) (key : Nat) (tile : Nat) :
    z.Keeps (State.checkerFault s key tile) := by
  unfold State.checkerFault
  with_reducible repeat' (first | assumption | apply State.permanentFault_keeps | apply State.tallyEnd_keeps)

theorem State.lateTrouble_keeps {z s : State} (h : z.Keeps s) (c : Nat) (i : Nat) (layerId : Nat) (trips : Nat) :
    z.Keeps (State.lateTrouble s c i layerId trips) := by
  unfold State.lateTrouble
  with_reducible repeat' (first | assumption | apply State.narrowEv_keeps | apply State.setLayer_keeps)

theorem State.tallyFirst_keeps {z s : State} (h : z.Keeps s) (key : Nat) (e : TallySlot) (js : List Judged) (factor : Rat) :
    z.Keeps (State.tallyFirst s key e js factor) := by
  unfold State.tallyFirst
  with_reducible repeat' (first
    | assumption | apply State.tallyWrong_keeps | apply State.tallyAgreed_keeps | apply State.lateTrouble_keeps
    | apply State.setTally_keeps | apply State.countError_keeps | apply State.narrowEv_keeps | apply State.setLayer_keeps
    | apply State.count_keeps | apply State.tallyEnd_keeps | apply keeps_ite | split | extract_lets)

theorem State.tallyJudge_keeps {z s : State} (h : z.Keeps s) (key : Nat) (e : TallySlot) (ref : List Num) (js : List Judged) (factor : Rat) :
    z.Keeps (State.tallyJudge s key e ref js factor) := by
  unfold State.tallyJudge
  with_reducible repeat' (first | assumption | apply State.tallyWrong_keeps | apply State.tallyAgreed_keeps | apply keeps_ite)

theorem State.outvote_keeps {z s : State} (h : z.Keeps s) (c : Nat) (tile : Nat) (layerId : Nat) :
    z.Keeps (State.outvote s c tile layerId) := by
  unfold State.outvote
  with_reducible repeat' (first | assumption | apply State.logEv_keeps)

theorem State.tallyNext_keeps {z s : State} (h : z.Keeps s) (key : Nat) (e : TallySlot) (js : List Judged) (factor : Rat) :
    z.Keeps (State.tallyNext s key e js factor) := by
  unfold State.tallyNext
  with_reducible repeat' (first
    | assumption | apply State.outvote_keeps | apply State.tallyJudge_keeps | apply State.setTally_keeps
    | apply State.checkerFault_keeps | apply keeps_ite | extract_lets | refine keeps_update ?_ rfl)

theorem State.tallyStruck_keeps {z s : State} (h : z.Keeps s) (t : Nat) (c : Nat) (layerId : Nat) (f : AccFault) :
    z.Keeps (State.tallyStruck s t c layerId f) := by
  unfold State.tallyStruck
  with_reducible repeat' (first
    | assumption | apply State.transFault_keeps | apply State.jobFault_keeps | apply State.countError_keeps
    | apply State.noteLeaf_keeps | apply keeps_ite | split)

theorem State.overtake_keeps {z s : State} (h : z.Keeps s) (t : Nat) :
    z.Keeps (State.overtake s t) := by
  unfold State.overtake
  with_reducible repeat' (first
    | assumption | intro _ | apply State.count_keeps | apply keeps_ite)

theorem execTally_keeps {z s : State} (h : z.Keeps s) (t : TileId) (wrong : List (Nat × Num)) :
    ∃ u, execTally t wrong s = .next u ∧ z.Keeps u := by
  refine ⟨_, rfl, ?_⟩
  with_reducible repeat' (first
    | assumption | apply State.overtake_keeps | apply State.strikeDeferred_keeps | apply State.regrant_keeps | apply State.noteLeaf_keeps | apply State.transFault_keeps | apply State.tallyNext_keeps | apply State.tallyFirst_keeps | apply State.tallyStruck_keeps
    | apply State.recompute_keeps | apply State.work_keeps | apply State.snoopHeld_keeps | apply State.count_keeps
    | apply State.tallyEnd_keeps | apply keeps_ite | split | refine ok_snd (by assumption) ?_ | extract_lets)

theorem execTallyTimeout_keeps {z s : State} (h : z.Keeps s) (c : CtxId) (slot : Nat) :
    ∃ u, execTallyTimeout c slot s = .next u ∧ z.Keeps u := by
  refine ⟨_, rfl, ?_⟩
  with_reducible repeat' (first
    | assumption | apply State.dropSample_keeps | apply State.tallyEnd_keeps | apply keeps_ite | split)

theorem State.gatePass_keeps {z s : State} (h : z.Keeps s) (t : Nat) (k : Task) (i : Nat) :
    z.Keeps (State.gatePass s t k i) := by
  unfold State.gatePass
  with_reducible repeat' (first
    | assumption | apply State.regrant_keeps | apply State.setTask_keeps | apply State.setLayer_keeps
    | apply State.setCtx_keeps)

theorem State.skipTasks_keeps {z s : State} (h : z.Keeps s) (c : Nat) :
    z.Keeps (State.skipTasks s c) := by
  unfold State.skipTasks
  with_reducible repeat' (first
    | assumption | intro _ | apply State.regrant_keeps | apply State.setTile_keeps | apply keeps_foldl)

theorem State.seenTrouble_keeps {z s : State} (h : z.Keeps s) (c : Nat) :
    z.Keeps (State.seenTrouble s c) := by
  unfold State.seenTrouble
  with_reducible repeat' (first
    | assumption | intro _ | apply State.setLayer_keeps | apply keeps_foldl)

theorem State.skipUpdate_keeps {z s : State} (h : z.Keeps s) (c : Nat) :
    z.Keeps (State.skipUpdate s c) := by
  unfold State.skipUpdate
  with_reducible repeat' (first
    | assumption | apply State.seenTrouble_keeps | apply State.skipTasks_keeps | apply State.setCtx_keeps | apply State.count_keeps
    | apply State.weighSkip_keeps | apply State.logEv_keeps | apply keeps_ite)

theorem State.tripLayer_keeps {z s : State} (h : z.Keeps s) (c : Nat) (n : Nat) (x : Nat × LayerDef × Nat × List Nat) :
    z.Keeps (State.tripLayer s c n x) := by
  unfold State.tripLayer
  with_reducible repeat' (first
    | assumption | apply State.narrowEv_keeps | apply State.setLayer_keeps | apply State.count_keeps | apply keeps_ite)

theorem State.trip_keeps {z s : State} (h : z.Keeps s) (c : Nat) (found : List (Nat × LayerDef × Nat × List Nat)) :
    z.Keeps (State.trip s c found) := by
  unfold State.trip
  with_reducible repeat' (first
    | assumption | intro _ | apply State.maybeStop_keeps | apply State.skipUpdate_keeps | apply State.narrowEv_keeps
    | apply State.setLayer_keeps | apply State.tripLayer_keeps | apply State.setCtx_keeps | apply keeps_ite
    | apply keeps_foldl)

theorem execGateEvaluate_keeps {z s : State} (h : z.Keeps s) (t : TileId) :
    ∃ u, execGateEvaluate t s = .next u ∧ z.Keeps u := by
  refine ⟨_, rfl, ?_⟩
  with_reducible repeat' (first | assumption | apply State.trip_keeps | apply State.gatePass_keeps | apply keeps_ite | split)

theorem State.emptyChains_keeps {z s : State} (h : z.Keeps s) (c : Nat) :
    z.Keeps (State.emptyChains s c) := by
  unfold State.emptyChains
  with_reducible repeat' (first | assumption | refine keeps_update ?_ rfl)

theorem State.dropWork_keeps {z s : State} (h : z.Keeps s) (c : Nat) (t : Nat) :
    z.Keeps (State.dropWork s c t) := by
  unfold State.dropWork
  with_reducible repeat' (first
    | assumption | apply State.setTile_keeps
    | refine keeps_update ?_ rfl)

theorem State.rewindLayers_keeps {z s : State} (h : z.Keeps s) (c : Nat) :
    z.Keeps (State.rewindLayers s c) := by
  unfold State.rewindLayers
  with_reducible repeat' (first | assumption | apply State.trip_keeps | intro _ | apply State.setLayer_keeps | apply keeps_foldl)

theorem State.rewind_keeps {z s : State} (h : z.Keeps s) (c : Nat) :
    z.Keeps (State.rewind s c) := by
  unfold State.rewind
  with_reducible repeat' (first
    | assumption | intro _ | apply State.dropWork_keeps | apply State.emptyChains_keeps | apply State.setBollard_keeps
    | apply State.regrant_keeps | apply State.discardHolds_keeps | apply State.put_keeps | apply State.setBerth_keeps
    | apply State.processRequests_keeps | apply State.setCtx_keeps | apply State.count_keeps | apply State.rewindLayers_keeps
    | apply keeps_ite | apply keeps_foldl)

theorem execReplayRewind_keeps {z s : State} (h : z.Keeps s) (c : CtxId) :
    ∃ u, execReplayRewind c s = .next u ∧ z.Keeps u := by
  refine ⟨_, rfl, ?_⟩
  with_reducible repeat' (first
    | assumption | apply State.jobFault_keeps | apply State.skipUpdate_keeps | apply State.rewind_keeps
    | apply State.setCtx_keeps | apply keeps_ite)

theorem State.endTrouble_keeps {z s : State} (h : z.Keeps s) (c : Nat) (i : Nat) (l : LayerDef) :
    z.Keeps (State.endTrouble s c i l) := by
  unfold State.endTrouble
  with_reducible repeat' (first | assumption | apply State.narrowEv_keeps | apply State.setLayer_keeps | apply keeps_ite)

theorem State.climb_keeps {z s : State} (h : z.Keeps s) (c : Nat) (i : Nat) (l : LayerDef) (refilled : Bool) :
    z.Keeps (State.climb s c i l refilled) := by
  unfold State.climb
  with_reducible repeat' (first | assumption | apply State.narrowEv_keeps | apply State.setLayer_keeps | apply keeps_ite)

theorem State.endLayer_keeps {z s : State} (h : z.Keeps s) (c : Nat) (i : Nat) (l : LayerDef) :
    z.Keeps (State.endLayer s c i l) := by
  unfold State.endLayer
  with_reducible repeat' (first
    | assumption | apply State.trip_keeps | apply State.climb_keeps | apply State.endTrouble_keeps | apply State.setLayer_keeps)

theorem State.endStep_keeps {z s : State} (h : z.Keeps s) (c : Nat) :
    z.Keeps (State.endStep s c) := by
  unfold State.endStep
  with_reducible repeat' (first
    | assumption | intro _ | apply State.endLayer_keeps | apply State.setCtx_keeps | apply keeps_foldl | extract_lets
    | dsimp only | refine keeps_update ?_ rfl)

end Sys2Proof.Machine
end

