-- ==== Sys2Proof/Laws/KeepsStream.lean ====
section
/-! SUPPORT. What the operations of Machine/Stream.lean keep (State.Keeps). -/

namespace Sys2Proof.Machine

theorem State.refuseBell_keeps {z s : State} (h : z.Keeps s) (d : Option BerthDef) :
    z.Keeps (State.refuseBell s d) := by
  unfold State.refuseBell
  with_reducible repeat' (first
    | assumption | apply State.jobFault_keeps | apply State.count_keeps | apply State.logEv_keeps | split)

theorem State.acceptBell_keeps {z s : State} (h : z.Keeps s) (d : BerthDef) (va : Nat) :
    z.Keeps (State.acceptBell s d va) := by
  unfold State.acceptBell
  with_reducible repeat' (first | assumption | apply State.setBerth_keeps | apply State.setCtx_keeps)

theorem execManifestFetch_keeps {z s : State} (h : z.Keeps s) (t : TileId) :
    ∃ u, execManifestFetch t s = .next u ∧ z.Keeps u := by
  refine ⟨_, rfl, ?_⟩
  with_reducible repeat' (first | assumption | apply State.setTile_keeps | apply State.work_keeps | apply keeps_ite | split)

theorem State.readSlots_keeps {z s : State} (h : z.Keeps s) (t : Nat) (c : Nat) (va : Nat) (x4 : Nat) (x5 : Nat) :
    Yields (fun p => z.Keeps p.2) (State.readSlots s t c va x4 x5) := by
  induction x4 generalizing s x5 with
  | zero =>
  unfold State.readSlots
  with_reducible repeat' (first | assumption | apply yields_ok)
  | succ m ih =>
  unfold State.readSlots
  with_reducible repeat' (first
    | assumption | apply State.readVa_keeps | apply ih | split | apply yields_ok | apply yields_error
    | refine ok_snd (by assumption) ?_ | extract_lets | dsimp +zetaDelta only)

theorem State.fetchFault_keeps {z s : State} (h : z.Keeps s) (t : Nat) (c : Nat) (f : AccFault) :
    z.Keeps (State.fetchFault s t c f) := by
  unfold State.fetchFault
  with_reducible repeat' (first
    | assumption | apply State.transFault_keeps | apply State.jobFault_keeps | apply State.noteLeaf_keeps | split)

theorem State.burstIn_keeps {z s : State} (h : z.Keeps s) (t : Nat) (d : BerthDef) (m : Man) :
    Yields z.Keeps (State.burstIn s t d m) := by
  unfold State.burstIn
  with_reducible repeat' (first
    | assumption | apply State.mark_keeps | apply State.writeNow_keeps | apply State.readSlots_keeps | apply State.finish_keeps
    | apply State.setTile_keeps | apply State.setBerth_keeps | apply State.count_keeps | split | apply yields_ok
    | apply yields_error | refine ok_snd (by assumption) ?_)

theorem execManifestArrive_keeps {z s : State} (h : z.Keeps s) (t : TileId) :
    ∃ u, execManifestArrive t s = .next u ∧ z.Keeps u := by
  refine ⟨_, rfl, ?_⟩
  with_reducible repeat' (first
    | assumption | apply State.burstIn_keeps | apply State.setTile_keeps | apply State.snoopHeld_keeps
    | apply State.fetchFault_keeps | split | refine ok_self (by assumption) ?_ | extract_lets)

theorem State.tookTurn_keeps {z s : State} (h : z.Keeps s) (d : BerthDef) :
    z.Keeps (State.tookTurn s d) := by
  unfold State.tookTurn
  with_reducible repeat' (first
    | assumption | intro _ | apply State.setTile_keeps)

theorem State.reject_keeps {z s : State} (h : z.Keeps s) (d : BerthDef) (k : Task) (code : Nat) :
    z.Keeps (State.reject s d k code) := by
  unfold State.reject
  with_reducible repeat' (first
    | assumption | apply State.jobFault_keeps | apply State.finish_keeps | apply State.bookEnd_keeps)

theorem State.takePoisoned_keeps {z s : State} (h : z.Keeps s) (d : BerthDef) (k : Task) (code : Nat) :
    z.Keeps (State.takePoisoned s d k code) := by
  unfold State.takePoisoned
  with_reducible repeat' (first | assumption | apply State.abort_keeps)

theorem State.standBy_keeps {z s : State} (h : z.Keeps s) (d : BerthDef) (k : Task) :
    z.Keeps (State.standBy s d k) := by
  unfold State.standBy
  with_reducible repeat' (first
    | assumption | intro _ | apply State.setBollard_keeps | apply State.regrant_keeps | apply State.setBerth_keeps
    | apply keeps_foldl)

theorem execTaskTake_keeps {z s : State} (h : z.Keeps s) (t : TileId) :
    ∃ u, execTaskTake t s = .next u ∧ z.Keeps u := by
  refine ⟨_, rfl, ?_⟩
  with_reducible repeat' (first
    | assumption | apply State.tookTurn_keeps | apply State.finish_keeps | apply State.takePoisoned_keeps | apply State.reject_keeps | apply State.setTile_keeps
    | apply State.work_keeps | apply State.setBerth_keeps | apply State.standBy_keeps | apply State.advance_keeps
    | apply keeps_ite | split | extract_lets | dsimp +zetaDelta only | refine keeps_update ?_ rfl)

theorem execTransferAck_keeps {z s : State} (h : z.Keeps s) (t : TileId) (task : Nat) :
    ∃ u, execTransferAck t task s = .next u ∧ z.Keeps u := by
  refine ⟨_, rfl, ?_⟩
  with_reducible repeat' (first
    | assumption | apply State.issue_keeps | apply State.settleLoad_keeps | apply State.modTask_keeps | apply keeps_ite | split)

theorem State.endEffects_keeps {z s : State} (h : z.Keeps s) (k : Task) :
    z.Keeps (State.endEffects s k) := by
  unfold State.endEffects
  with_reducible repeat' (first
    | assumption | apply State.raise_keeps | apply State.bucketLanded_keeps | apply keeps_ite | split)

theorem execTaskEnd_keeps {z s : State} (h : z.Keeps s) (t : TileId) :
    ∃ u, execTaskEnd t s = .next u ∧ z.Keeps u := by
  refine ⟨_, rfl, ?_⟩
  with_reducible repeat' (first
    | assumption | apply State.countEligible_keeps | apply State.endEffects_keeps | apply State.considerSample_keeps | apply State.setTile_keeps
    | apply State.fetchFault_keeps | apply State.endTask_keeps | apply keeps_ite | split | apply yields_ok
    | refine ok_self (by assumption) ?_)

theorem execTaskSignal_keeps {z s : State} (h : z.Keeps s) (t : TileId) :
    ∃ u, execTaskSignal t s = .next u ∧ z.Keeps u := by
  refine ⟨_, rfl, ?_⟩
  with_reducible repeat' (first
    | assumption | intro _ | apply State.regrant_keeps | apply State.setTile_keeps | apply State.raise_keeps | apply keeps_ite
    | apply keeps_foldl | split)

theorem noWork_keeps {z s : State} (h : z.Keeps s) (t : Nat) (k : Task) : Yields (fun p => z.Keeps p.1) (noWork s t k) :=
  yields_ok h

theorem signalRun_keeps {z s : State} (h : z.Keeps s) (t : Nat) (k : Task) :
    Yields (fun p => z.Keeps p.1) (signalRun s t k) := by
  unfold signalRun
  with_reducible repeat' (first
    | assumption | apply State.sendXfer_keeps | apply State.newTid_keeps | apply State.awaits_keeps | split | apply yields_ok
    | apply yields_error | refine eq_snd (by assumption) ?_)

theorem execSignal_keeps {z s : State} (h : z.Keeps s) (t : TileId) :
    ∃ u, execSignal t s = .next u ∧ z.Keeps u := by
  refine ⟨_, rfl, ?_⟩
  with_reducible repeat' (first | assumption | intro _ | apply signalRun_keeps | apply State.runTask_keeps)

theorem execWait_keeps {z s : State} (h : z.Keeps s) (t : TileId) :
    ∃ u, execWait t s = .next u ∧ z.Keeps u := by
  refine ⟨_, rfl, ?_⟩
  with_reducible repeat' (first | assumption | intro _ | apply noWork_keeps | apply State.runTask_keeps)

theorem execFence_keeps {z s : State} (h : z.Keeps s) (t : TileId) :
    ∃ u, execFence t s = .next u ∧ z.Keeps u := by
  refine ⟨_, rfl, ?_⟩
  with_reducible repeat' (first
    | assumption | apply State.startedAs_keeps | apply State.regrant_keeps | apply State.setTask_keeps | apply State.work_keeps | apply keeps_ite | split)

theorem execFenceDone_keeps {z s : State} (h : z.Keeps s) (t : TileId) :
    ∃ u, execFenceDone t s = .next u ∧ z.Keeps u := by
  refine ⟨_, rfl, ?_⟩
  with_reducible repeat' (first | assumption | apply State.setTask_keeps | apply keeps_ite | split)

theorem State.realignOne_keeps {z s : State} (h : z.Keeps s) (c : Nat) (expect : Nat) (b : Nat) :
    z.Keeps (State.realignOne s c expect b) := by
  unfold State.realignOne
  with_reducible repeat' (first
    | assumption | apply State.grantGo_keeps | apply State.setBollard_keeps | apply State.settle_keeps | apply State.count_keeps | apply State.logEv_keeps
    | apply keeps_ite)

theorem State.realign_keeps {z s : State} (h : z.Keeps s) (c : Nat) :
    z.Keeps (State.realign s c) := by
  unfold State.realign
  with_reducible repeat' (first | assumption | apply State.count_keeps | intro _ | apply State.realignOne_keeps | apply keeps_foldl | split)

theorem State.takeMarks_keeps {z s : State} (h : z.Keeps s) (c : Nat) :
    z.Keeps (State.takeMarks s c) := by
  unfold State.takeMarks
  with_reducible repeat' (first
    | assumption | apply State.mark_keeps | apply State.count_keeps | intro _ | apply State.setBollard_keeps | apply State.setBerth_keeps | apply keeps_foldl)

theorem State.dropChunks_keeps {z s : State} (h : z.Keeps s) (c : Nat) :
    z.Keeps (State.dropChunks s c) := by
  unfold State.dropChunks
  with_reducible repeat' (first | assumption | apply State.emptyChains_keeps | apply State.logEv_keeps | apply keeps_ite)

theorem State.advanceStep_keeps {z s : State} (h : z.Keeps s) (c : Nat) :
    z.Keeps (State.advanceStep s c) := by
  unfold State.advanceStep
  with_reducible repeat' (first
    | assumption | apply State.count_keeps | apply State.dropChunks_keeps | apply State.endStep_keeps | apply State.discardHolds_keeps
    | apply State.put_keeps | apply State.openDue_keeps | apply State.takeMarks_keeps | extract_lets | dsimp +zetaDelta only
    | refine keeps_update ?_ rfl)

theorem State.barrierEnd_keeps {z s : State} (h : z.Keeps s) (b : Nat) :
    z.Keeps (State.barrierEnd s b) := by
  unfold State.barrierEnd
  with_reducible repeat' (first
    | assumption | apply State.bump_keeps | intro _ | apply State.dropTask_keeps | apply State.finish_keeps | apply State.raise_keeps
    | apply State.bookEnd_keeps | apply keeps_foldl | split)

theorem State.barrierJoin_keeps {z s : State} (h : z.Keeps s) (c : Nat) (x : BarSt) :
    z.Keeps (State.barrierJoin s c x) := by
  unfold State.barrierJoin
  with_reducible repeat' (first
    | assumption | apply State.advance_keeps | intro _ | apply State.advanceStep_keeps | apply State.barrierEnd_keeps | apply State.wakeCtx_keeps
    | apply State.put_keeps | apply State.setCtx_keeps | apply State.count_keeps | apply State.realign_keeps | apply keeps_ite
    | apply keeps_foldl)

theorem State.barrierArrive_keeps {z s : State} (h : z.Keeps s) (t : Nat) (k : Task) :
    z.Keeps (State.barrierArrive s t k) := by
  unfold State.barrierArrive
  with_reducible repeat' (first
    | assumption | apply State.advance_keeps | apply State.jobFault_keeps | apply State.regrant_keeps | apply State.setTask_keeps | apply State.work_keeps
    | apply State.barrierJoin_keeps | apply State.setCtx_keeps | apply keeps_ite)

theorem execBarrier_keeps {z s : State} (h : z.Keeps s) (t : TileId) :
    ∃ u, execBarrier t s = .next u ∧ z.Keeps u := by
  refine ⟨_, rfl, ?_⟩
  with_reducible repeat' (first | assumption | apply State.barrierArrive_keeps | apply keeps_ite | split)

theorem State.cancelSlot_keeps {z s : State} (h : z.Keeps s) (d : BerthDef) (m : ManBuf) (i : Nat) :
    z.Keeps (State.cancelSlot s d m i) := by
  unfold State.cancelSlot
  with_reducible repeat' (first | assumption | apply State.bookEnd_keeps | extract_lets | refine keeps_update ?_ rfl)

theorem State.flushBerth_keeps {z s : State} (h : z.Keeps s) (d : BerthDef) :
    z.Keeps (State.flushBerth s d) := by
  unfold State.flushBerth
  with_reducible repeat' (first
    | assumption | intro _ | apply State.setBollard_keeps | apply State.settle_keeps | apply State.finish_keeps
    | apply State.regrant_keeps | apply State.setTile_keeps | apply State.setBerth_keeps | apply State.cancel_keeps
    | apply State.cancelSlot_keeps | apply State.bookEnd_keeps | apply keeps_foldl | split)

theorem State.flushEff_keeps {z s : State} (h : z.Keeps s) (b : Nat) :
    Yields z.Keeps (State.flushEff s b) := by
  unfold State.flushEff
  with_reducible repeat' (first | assumption | apply State.flushBerth_keeps | split | apply yields_ok | apply yields_error)

theorem execBerthFlush_keeps {z s : State} (h : z.Keeps s) (src : Src) (berth : Nat) :
    ∃ u, execBerthFlush src berth s = .next u ∧ z.Keeps u := by
  refine ⟨_, rfl, ?_⟩
  with_reducible repeat' (first | assumption | intro _ | apply State.guarded_keeps | apply State.flushEff_keeps)

theorem State.hang_keeps {z s : State} (h : z.Keeps s) (c : Nat) (kind : Nat) (what : Nat) (slot : Nat) (tile : Nat) (opcode : Nat) :
    z.Keeps (State.hang s c kind what slot tile opcode) := by
  unfold State.hang
  with_reducible repeat' (first | assumption | apply State.jobFault_keeps)

theorem execHangTimeout_keeps {z s : State} (h : z.Keeps s) (w : HangKind) (t : TileId) :
    ∃ u, execHangTimeout w t s = .next u ∧ z.Keeps u := by
  refine ⟨_, rfl, ?_⟩
  with_reducible repeat' (first | assumption | apply State.hang_keeps | apply keeps_ite | split)

theorem execFerryForward_keeps {z s : State} (h : z.Keeps s) (chain : Nat) (member : Nat) :
    ∃ u, execFerryForward chain member s = .next u ∧ z.Keeps u := by
  refine ⟨_, rfl, ?_⟩
  with_reducible repeat' (first | assumption | apply State.forwarded_keeps | apply State.setMember_keeps | apply keeps_ite | split)

theorem State.moveBytes_keeps {z s : State} (h : z.Keeps s) (src : Nat) (dst : Nat) (n : Nat) :
    z.Keeps (State.moveBytes s src dst n) := by
  unfold State.moveBytes
  with_reducible repeat' (first
    | assumption | apply State.writeAt_keeps | extract_lets | dsimp +zetaDelta only | refine keeps_update ?_ rfl)

theorem execFerryForwardDone_keeps {z s : State} (h : z.Keeps s) (chain : Nat) (member : Nat) :
    ∃ u, execFerryForwardDone chain member s = .next u ∧ z.Keeps u := by
  refine ⟨_, rfl, ?_⟩
  with_reducible repeat' (first
    | assumption | apply State.forwarded_keeps | apply State.moveBytes_keeps | apply State.setMember_keeps | apply keeps_ite | split)

theorem execDoorbell_keeps {z s : State} (h : z.Keeps s) (port : HostPort) (offset : Nat) (size : Nat) (value : Option Nat) :
    ∃ u, execDoorbell port offset size value s = .next u ∧ z.Keeps u := by
  refine ⟨_, rfl, ?_⟩
  with_reducible repeat' (first
    | assumption | apply State.emit_keeps | apply State.acceptBell_keeps | apply State.work_keeps | apply State.refuseBell_keeps
    | apply State.napWake_keeps | apply keeps_ite | split)

end Sys2Proof.Machine
end

