-- ==== Sys2Proof/Laws/KeepsPlan.lean ====
section
/-! SUPPORT. What the operations of Machine/Plan.lean keep (State.Keeps). -/

namespace Sys2Proof.Machine

theorem State.planOutcome_keeps {z s : State} (h : z.Keeps s) (st : Nat) (code : Nat) (sec : Nat) (entry : Nat) :
    z.Keeps (State.planOutcome s st code sec entry) := by
  unfold State.planOutcome
  with_reducible repeat' (first | assumption | apply State.put_keeps)

theorem State.planFail_keeps {z s : State} (h : z.Keeps s) (e : PlanErr) :
    z.Keeps (State.planFail s e) := by
  unfold State.planFail
  with_reducible repeat' (first
    | assumption | apply State.heldSleep_keeps | apply State.planOutcome_keeps | apply State.logEv_keeps | extract_lets
    | dsimp +zetaDelta only | refine keeps_update ?_ rfl)

theorem State.loadPlan_keeps {z s : State} (h : z.Keeps s) :
    z.Keeps (State.loadPlan s) := by
  unfold State.loadPlan
  with_reducible repeat' (first
    | assumption | apply State.planOutcome_keeps | apply State.logEv_keeps | apply State.planFail_keeps | apply keeps_ite
    | split | extract_lets | dsimp +zetaDelta only | refine keeps_update ?_ rfl)

theorem State.planLoadEff_keeps {z s : State} (h : z.Keeps s) :
    Yields z.Keeps (State.planLoadEff s) := by
  unfold State.planLoadEff
  with_reducible repeat' (first | assumption | apply State.loadPlan_keeps | split | apply yields_ok | apply yields_error)

theorem execPlanLoad_keeps {z s : State} (h : z.Keeps s) (src : Src) :
    ∃ u, execPlanLoad src s = .next u ∧ z.Keeps u := by
  refine ⟨_, rfl, ?_⟩
  with_reducible repeat' (first | assumption | intro _ | apply State.planLoadEff_keeps | apply State.guarded_keeps)

theorem State.freshCtx_keeps {z s : State} (h : z.Keeps s) (c : Nat) :
    z.Keeps (State.freshCtx s c) := by
  unfold State.freshCtx
  with_reducible repeat' (first | assumption | apply State.put_keeps | apply State.setCtx_keeps)

theorem State.planPorts_keeps {z s : State} (h : z.Keeps s) (p : Plan) :
    z.Keeps (State.planPorts s p) := by
  unfold State.planPorts
  with_reducible repeat' (first
    | assumption | apply State.emit_keeps | intro _ | apply State.put_keeps | apply keeps_iter
    | extract_lets | apply State.put_keeps | apply keeps_ite)

theorem State.configure_keeps {z s : State} (h : z.Keeps s) (p : Plan) :
    z.Keeps (State.configure s p) := by
  unfold State.configure
  with_reducible repeat' (first
    | assumption | intro _ | apply State.freshCtx_keeps | apply State.planPorts_keeps | apply State.put_keeps
    | apply State.setLayer_keeps | apply keeps_foldl | extract_lets | dsimp +zetaDelta only | refine keeps_update ?_ rfl)

theorem execPlanLoadComplete_keeps {z s : State} (h : z.Keeps s) :
    ∃ u, execPlanLoadComplete s = .next u ∧ z.Keeps u := by
  refine ⟨_, rfl, ?_⟩
  with_reducible repeat' (first
    | assumption | apply State.heldSleep_keeps | apply State.idle_keeps | apply State.configure_keeps | apply State.setPst_keeps | apply State.put_keeps | apply keeps_ite | split)

theorem execPlanConfigWriteFail_keeps {z s : State} (h : z.Keeps s) :
    ∃ u, execPlanConfigWriteFail s = .next u ∧ z.Keeps u := by
  refine ⟨_, rfl, ?_⟩
  with_reducible repeat' (first | assumption | apply State.planFail_keeps | apply keeps_ite)

theorem State.unloadEff_keeps {z s : State} (h : z.Keeps s) :
    Yields z.Keeps (State.unloadEff s) := by
  unfold State.unloadEff
  with_reducible repeat' (first
    | assumption | apply State.abandonCopy_keeps | apply State.put_keeps | split | apply yields_ok | apply yields_error)

theorem execPlanUnload_keeps {z s : State} (h : z.Keeps s) (src : Src) :
    ∃ u, execPlanUnload src s = .next u ∧ z.Keeps u := by
  refine ⟨_, rfl, ?_⟩
  with_reducible repeat' (first | assumption | intro _ | apply State.unloadEff_keeps | apply State.guarded_keeps)

theorem State.planDefaults_keeps {z s : State} (h : z.Keeps s) :
    z.Keeps (State.planDefaults s) := by
  unfold State.planDefaults
  with_reducible repeat' (first
    | assumption | intro _ | apply State.put_keeps | apply keeps_iter | extract_lets | refine keeps_update ?_ rfl)

theorem State.unconfigure_keeps {z s : State} (h : z.Keeps s) :
    z.Keeps (State.unconfigure s) := by
  unfold State.unconfigure
  with_reducible repeat' (first
    | assumption | apply State.put_keeps | apply State.planDefaults_keeps | apply keeps_ite | extract_lets | dsimp only
    | dsimp +zetaDelta only | refine keeps_update ?_ rfl)

theorem State.discardAllHolds_keeps {z s : State} (h : z.Keeps s) :
    z.Keeps (State.discardAllHolds s) := by
  unfold State.discardAllHolds
  with_reducible repeat' (first | assumption | intro _ | apply State.discardHolds_keeps | apply keeps_foldl)

theorem State.swapOut_keeps {z s : State} (h : z.Keeps s) : z.Keeps (State.swapOut s) := by
  unfold State.swapOut
  with_reducible repeat' (first | assumption | apply State.swapEnd_keeps | split)

theorem execPlanUnloadComplete_keeps {z s : State} (h : z.Keeps s) :
    ∃ u, execPlanUnloadComplete s = .next u ∧ z.Keeps u := by
  refine ⟨_, rfl, ?_⟩
  with_reducible repeat' (first
    | assumption | apply State.idle_keeps | apply State.heldSleep_keeps | apply State.setPst_keeps | apply State.unconfigure_keeps
    | apply State.put_keeps | apply State.discardAllHolds_keeps | apply State.swapOut_keeps | apply keeps_ite)

end Sys2Proof.Machine
end

