-- ==== Sys2Proof/Laws/KeepsDict.lean ====
section
/-! SUPPORT. What the operations of Machine/Dict.lean keep (State.Keeps). -/

namespace Sys2Proof.Machine

theorem State.afterRead_keeps {z s : State} (h : z.Keeps s) (idx : Nat) (sub : Nat) :
    z.Keeps (State.afterRead s idx sub) := by
  unfold State.afterRead
  exact keeps_ite (State.put_keeps h _ _ _) (keeps_ite (State.put_keeps h _ _ _) (keeps_ite (keeps_drawn h 1) h))

theorem State.readObject_keeps {z s : State} (h : z.Keeps s) (src : Src) (idx : Nat) (sub : Nat) :
    Yields (fun p => z.Keeps p.2) (State.readObject s src idx sub) := by
  unfold State.readObject
  with_reducible repeat' (first | assumption | apply State.afterRead_keeps | split | apply yields_ok | apply yields_error)

end Sys2Proof.Machine
end

