-- ==== Sys2Proof/Laws/KeepsWrite.lean ====
section
/-! SUPPORT. What the operations of Machine/Write.lean keep (State.Keeps). -/

namespace Sys2Proof.Machine

theorem State.powerEff_keeps {z s : State} (h : z.Keeps s) (src : Src) (v : Nat) :
    Yields z.Keeps (State.powerEff s src v) := by
  unfold State.powerEff
  with_reducible repeat' (first
    | assumption | apply State.cmdShutdown_keeps | apply State.cmdStart_keeps | apply State.cmdWake_keeps
    | apply State.cmdSleep_keeps | apply State.cmdNap_keeps | split)

theorem State.bollardWrite_keeps {z s : State} (h : z.Keeps s) (v : Nat) :
    Yields z.Keeps (State.bollardWrite s v) := by
  unfold State.bollardWrite
  with_reducible repeat' (first
    | assumption | apply State.setBollard_keeps | apply State.settle_keeps | split | apply yields_ok | apply yields_error
    | extract_lets)

theorem State.ctxCommand_keeps {z s : State} (h : z.Keeps s) (c : Nat) (v : Nat) :
    Yields z.Keeps (State.ctxCommand s c v) := by
  unfold State.ctxCommand
  with_reducible repeat' (first
    | assumption | apply State.closeEff_keeps | apply State.haltEff_keeps | apply State.resumeEff_keeps | split)

theorem State.restoreCommand_keeps {z s : State} (h : z.Keeps s) (v : Nat) :
    Yields z.Keeps (State.restoreCommand s v) := by
  unfold State.restoreCommand
  with_reducible repeat' (first
    | assumption | apply State.draw_keeps | apply State.drawBytes_keeps | apply State.loadEff_keeps
    | apply State.verifyEff_keeps | split)

theorem State.fwCommand_keeps {z s : State} (h : z.Keeps s) (idx : Nat) :
    Yields z.Keeps (State.fwCommand s idx) := by
  unfold State.fwCommand
  with_reducible repeat' (first | assumption | apply State.activateEff_keeps | apply State.svnEff_keeps | split)

theorem State.writeEff_keeps {z s : State} (h : z.Keeps s) (src : Src) (idx sub v : Nat) : Yields z.Keeps (s.writeEff src idx sub v) := by
  unfold State.writeEff
  refine yields_ite (yields_ite yields_error (yields_ok (keeps_ite (State.startSave_keeps h)
    (State.startSave_keeps (State.savedDefaults_keeps h))))) ?_
  refine yields_ite (yields_ok (State.ringApply_keeps h _)) ?_
  refine yields_ite (State.consumerEff_keeps h _) ?_
  refine yields_ite (State.positionEff_keeps h _) ?_
  refine yields_ite (yields_ite (State.planLoadEff_keeps h) (State.unloadEff_keeps h)) ?_
  refine yields_ite (yields_ok (State.put_keeps h _ _ _)) ?_
  refine yields_ite (yields_ite (yields_ok (State.put_keeps h _ _ _)) yields_error) ?_
  refine yields_ite (State.ctxOpenEff_keeps h _) ?_
  refine yields_ite (State.invEff_keeps h _) ?_
  refine yields_ite (State.ctxCommand_keeps h _ _) ?_
  refine yields_ite (State.bollardWrite_keeps h _) ?_
  refine yields_ite (State.flushEff_keeps h _) ?_
  refine yields_ite (yields_ite (yields_ok (State.put_keeps h _ _ _)) yields_error) ?_
  refine yields_ite (State.requestEff_keeps h _) ?_
  refine yields_ite (State.restoreCommand_keeps h _) ?_
  refine yields_ite (yields_ok (State.filterEff_keeps h _ _ _)) ?_
  refine yields_ite (yields_ok (State.ruleEff_keeps h _ _)) ?_
  refine yields_ite (State.powerEff_keeps h _ _) ?_
  refine yields_ite (State.fwCommand_keeps h _) ?_
  refine yields_ite (yields_ok (State.debugStop_keeps h)) ?_
  cases objDef idx sub with
  | none => exact yields_ok h
  | some o => exact yields_ok (keeps_ite (keeps_update h rfl) (State.put_keeps h _ _ _))

theorem State.writeScalar_keeps {z s : State} (h : z.Keeps s) (src : Src) (idx : Nat) (sub : Nat) (bs : List Byte) :
    Yields z.Keeps (State.writeScalar s src idx sub bs) := by
  unfold State.writeScalar
  with_reducible repeat' (first | assumption | apply State.writeEff_keeps | split | apply yields_error)

theorem stateOf_keeps {z s : State} (h : z.Keeps s) (o : Host.Outcome State Fault Refusal)
    (ho : ∃ u, o = .next u ∧ z.Keeps u) : z.Keeps (stateOf o s) := by
  obtain ⟨u, rfl, hu⟩ := ho
  exact hu

theorem State.spdmRequest_keeps {z s : State} (h : z.Keeps s) (m : List Byte) :
    z.Keeps (State.spdmRequest s m) := by
  unfold State.spdmRequest
  with_reducible repeat' (first
    | assumption | apply execSpdmGetCapabilities_keeps | apply execSpdmNegotiateAlgorithms_keeps | apply stateOf_keeps
    | apply execSpdmGetDigests_keeps | apply execSpdmUnsupported_keeps | apply execSpdmGetMeasurements_keeps
    | apply execSpdmGetCertificate_keeps | apply execSpdmGetVersion_keeps | apply execSpdmChallenge_keeps | apply keeps_ite)

theorem State.applyDomain_keeps {z s : State} (h : z.Keeps s) (idx : Nat) (sub : Nat) (bs : List Byte) :
    z.Keeps (State.applyDomain s idx sub bs).1 := by
  unfold State.applyDomain
  with_reducible repeat' (first
    | assumption | apply State.debugKeySet_keeps | apply State.spdmRequest_keeps | apply State.loadHistory_keeps
    | apply State.fwImageClose_keeps | apply State.applyTrims_keeps | apply State.debugTokenWrite_keeps
    | apply State.logEv_keeps | split | refine ok_self (by assumption) ?_ | extract_lets | dsimp only | dsimp +zetaDelta only
    | refine keeps_update ?_ rfl)

theorem State.downloadEnd_keeps {z s : State} (h : z.Keeps s) (src : Src) (idx : Nat) (sub : Nat) (bs : List Byte) :
    z.Keeps (State.downloadEnd s src idx sub bs).1 := by
  unfold State.downloadEnd
  with_reducible repeat' (first
    | assumption | apply State.writeScalar_keeps | apply State.applyDomain_keeps | split | refine ok_self (by assumption) ?_)

theorem State.uploadCheck_keeps {z s : State} (h : z.Keeps s) (src : Src) (idx : Nat) (sub : Nat) :
    Yields (fun p => z.Keeps p.2) (State.uploadCheck s src idx sub) := by
  unfold State.uploadCheck
  with_reducible repeat' (first | assumption | apply State.readObject_keeps | split | apply yields_error)

end Sys2Proof.Machine
end

