-- ==== Sys2Proof/Laws/KeepsDac.lean ====
section
/-! SUPPORT. What the operations of Machine/Dac.lean keep (State.Keeps). -/

namespace Sys2Proof.Machine

theorem State.setDac_keeps {z s : State} (h : z.Keeps s) (p : Nat) (ch : Nat) (d : Dac) :
    z.Keeps (State.setDac s p ch d) := by
  unfold State.setDac
  with_reducible repeat' (first | assumption | apply State.setHl_keeps)

theorem State.dacRefuse_keeps {z s : State} (h : z.Keeps s) (p : Nat) (ch : Nat) (code : Nat) :
    z.Keeps (State.dacRefuse s p ch code) := by
  unfold State.dacRefuse
  with_reducible repeat' (first | assumption | apply State.abort_keeps | apply State.setDac_keeps)

theorem State.dacFail_keeps {z s : State} (h : z.Keeps s) (p : Nat) (ch : Nat) (code : Nat) :
    z.Keeps (State.dacFail s p ch code) := by
  unfold State.dacFail
  with_reducible repeat' (first | assumption | apply State.abort_keeps | apply State.setDac_keeps)

theorem State.dacTarget_keeps {z s : State} (h : z.Keeps s) (p : Nat) (ch : Nat) (v : Nat) :
    z.Keeps (State.dacTarget s p ch v) := by
  unfold State.dacTarget
  with_reducible repeat' (first | assumption | apply State.idle_keeps | apply State.dacRefuse_keeps | apply State.setDac_keeps | apply keeps_ite)

theorem State.dacOpenNow_keeps {z s : State} (h : z.Keeps s) (p : HostPort) (ch : Nat) :
    z.Keeps (State.dacOpenNow s p ch) := by
  unfold State.dacOpenNow
  with_reducible repeat' (first
    | assumption | apply State.uploadCheck_keeps | apply State.dacFail_keeps | apply State.setDac_keeps | apply keeps_ite
    | split | refine ok_snd (by assumption) ?_)

theorem State.dacCmdOpen_keeps {z s : State} (h : z.Keeps s) (p : HostPort) (ch : Nat) (v : Nat) :
    z.Keeps (State.dacCmdOpen s p ch v) := by
  unfold State.dacCmdOpen
  with_reducible repeat' (first
    | assumption | apply State.idle_keeps | apply State.dacRefuse_keeps | apply State.setDac_keeps | apply State.dacOpenNow_keeps | apply keeps_ite)

theorem State.dacCmdXfer_keeps {z s : State} (h : z.Keeps s) (p : Nat) (ch : Nat) (buf : List Byte) :
    z.Keeps (State.dacCmdXfer s p ch buf) := by
  unfold State.dacCmdXfer
  with_reducible repeat' (first | assumption | apply State.dacRefuse_keeps | apply State.setDac_keeps | apply keeps_ite)

theorem State.dacMoved_keeps {z s : State} (h : z.Keeps s) (p : Nat) (ch : Nat) :
    z.Keeps (State.dacMoved s p ch) := by
  unfold State.dacMoved
  with_reducible repeat' (first | assumption | apply State.setDac_keeps | apply keeps_ite | split | extract_lets)

theorem State.dacCmdClose_keeps {z s : State} (h : z.Keeps s) (p : HostPort) (ch : Nat) :
    z.Keeps (State.dacCmdClose s p ch) := by
  unfold State.dacCmdClose
  with_reducible repeat' (first
    | assumption | apply State.downloadEnd_keeps | apply State.dacRefuse_keeps | apply State.dacFail_keeps
    | apply State.setDac_keeps | apply keeps_ite | extract_lets | dsimp +zetaDelta only | refine keeps_update ?_ rfl)

theorem State.dacCmdAbort_keeps {z s : State} (h : z.Keeps s) (p : HostPort) (ch : Nat) :
    z.Keeps (State.dacCmdAbort s p ch) := by
  unfold State.dacCmdAbort
  with_reducible repeat' (first | assumption | apply State.fwCut_keeps | apply State.dacRefuse_keeps | apply State.dacFail_keeps | apply keeps_ite)

theorem State.dacCtrl_keeps {z s : State} (h : z.Keeps s) (p : HostPort) (ch : Nat) (v : Nat) (buf : List Byte) :
    z.Keeps (State.dacCtrl s p ch v buf) := by
  unfold State.dacCtrl
  with_reducible repeat' (first
    | assumption | apply State.dacCmdOpen_keeps | apply State.dacRefuse_keeps | apply State.dacCmdXfer_keeps
    | apply State.dacCmdAbort_keeps | apply State.dacTarget_keeps | apply State.dacCmdClose_keeps | apply keeps_ite)

theorem State.dacParam_keeps {z s : State} (h : z.Keeps s) (p : Nat) (ch : Nat) (reg : Nat) (v : Nat) :
    z.Keeps (State.dacParam s p ch reg v) := by
  unfold State.dacParam
  with_reducible repeat' (first | assumption | apply State.idle_keeps | apply State.dacRefuse_keeps | apply State.setDac_keeps | apply keeps_ite)

theorem State.ifReady_keeps {z s : State} (h : z.Keeps s) (p : HostPort) (f : State → State) (hf : ∀ u, z.Keeps u → z.Keeps (f u)) :
    z.Keeps (State.ifReady s p f) := by
  unfold State.ifReady
  with_reducible repeat' (first | assumption | apply hf | apply keeps_ite)

theorem execDacSetTarget_keeps {z s : State} (h : z.Keeps s) (port : HostPort) (ch : DacCh) (ctrl : Nat) :
    ∃ u, execDacSetTarget port ch ctrl s = .next u ∧ z.Keeps u := by
  refine ⟨_, rfl, ?_⟩
  with_reducible repeat' (first | assumption | intro _ | apply State.ifReady_keeps | apply State.dacCtrl_keeps)

theorem execDacParamWrite_keeps {z s : State} (h : z.Keeps s) (port : HostPort) (ch : DacCh) (reg : Nat) (value : Nat) :
    ∃ u, execDacParamWrite port ch reg value s = .next u ∧ z.Keeps u := by
  refine ⟨_, rfl, ?_⟩
  with_reducible repeat' (first | assumption | intro _ | apply State.dacParam_keeps | apply State.ifReady_keeps)

theorem execDacOpen_keeps {z s : State} (h : z.Keeps s) (port : HostPort) (ch : DacCh) (ctrl : Nat) :
    ∃ u, execDacOpen port ch ctrl s = .next u ∧ z.Keeps u := by
  refine ⟨_, rfl, ?_⟩
  with_reducible repeat' (first | assumption | intro _ | apply State.ifReady_keeps | apply State.dacCtrl_keeps)

theorem execDacXfer_keeps {z s : State} (h : z.Keeps s) (port : HostPort) (ch : DacCh) (ctrl : Nat) (buf : List Byte) :
    ∃ u, execDacXfer port ch ctrl buf s = .next u ∧ z.Keeps u := by
  refine ⟨_, rfl, ?_⟩
  with_reducible repeat' (first | assumption | intro _ | apply State.ifReady_keeps | apply State.dacCtrl_keeps)

theorem execDacSegmentDone_keeps {z s : State} (h : z.Keeps s) (port : HostPort) (ch : DacCh) :
    ∃ u, execDacSegmentDone port ch s = .next u ∧ z.Keeps u := by
  refine ⟨_, rfl, ?_⟩
  with_reducible repeat' (first | assumption | apply State.dacMoved_keeps | apply keeps_ite)

theorem execDacClose_keeps {z s : State} (h : z.Keeps s) (port : HostPort) (ch : DacCh) (ctrl : Nat) :
    ∃ u, execDacClose port ch ctrl s = .next u ∧ z.Keeps u := by
  refine ⟨_, rfl, ?_⟩
  with_reducible repeat' (first | assumption | intro _ | apply State.ifReady_keeps | apply State.dacCtrl_keeps)

theorem execDacAbort_keeps {z s : State} (h : z.Keeps s) (port : HostPort) (ch : DacCh) (ctrl : Nat) :
    ∃ u, execDacAbort port ch ctrl s = .next u ∧ z.Keeps u := by
  refine ⟨_, rfl, ?_⟩
  with_reducible repeat' (first | assumption | intro _ | apply State.ifReady_keeps | apply State.dacCtrl_keeps)

theorem execDacTimeout_keeps {z s : State} (h : z.Keeps s) (port : HostPort) (ch : DacCh) :
    ∃ u, execDacTimeout port ch s = .next u ∧ z.Keeps u := by
  refine ⟨_, rfl, ?_⟩
  with_reducible repeat' (first | assumption | apply State.dacFail_keeps | apply keeps_ite)

theorem State.directRead_keeps {z s : State} (h : z.Keeps s) (p : HostPort) (offset : Nat) (size : Nat) :
    z.Keeps (State.directRead s p offset size) := by
  unfold State.directRead
  with_reducible repeat' (first
    | assumption | apply State.refuse_keeps | apply State.afterRead_keeps | apply State.emit_keeps | apply keeps_ite | split)

theorem State.directWrite_keeps {z s : State} (h : z.Keeps s) (p : HostPort) (offset : Nat) (size : Nat) (value : Nat) :
    z.Keeps (State.directWrite s p offset size value) := by
  unfold State.directWrite
  with_reducible repeat' (first
    | assumption | apply State.writeScalar_keeps | apply State.refuse_keeps | apply keeps_ite | split
    | refine ok_self (by assumption) ?_)

theorem State.dacRead_keeps {z s : State} (h : z.Keeps s) (p : HostPort) (offset : Nat) (size : Nat) :
    z.Keeps (State.dacRead s p offset size) := by
  unfold State.dacRead
  with_reducible repeat' (first | assumption | apply State.dacRefuse_keeps | apply State.emit_keeps | apply keeps_ite)

theorem State.dacWrite_keeps {z s : State} (h : z.Keeps s) (p : HostPort) (offset : Nat) (size : Nat) (value : Nat) :
    z.Keeps (State.dacWrite s p offset size value) := by
  unfold State.dacWrite
  with_reducible repeat' (first
    | assumption | apply State.dacParam_keeps | apply State.dacRefuse_keeps | apply State.dacCtrl_keeps
    | apply State.setDac_keeps | apply keeps_ite)

theorem State.windowRead_keeps {z s : State} (h : z.Keeps s) (p : HostPort) (offset : Nat) (size : Nat) :
    z.Keeps (State.windowRead s p offset size) := by
  unfold State.windowRead
  with_reducible repeat' (first
    | assumption | apply State.directRead_keeps | apply State.dacRead_keeps | apply State.emit_keeps | apply keeps_ite)

theorem State.windowWrite_keeps {z s : State} (h : z.Keeps s) (p : HostPort) (offset : Nat) (size : Nat) (value : Nat) :
    z.Keeps (State.windowWrite s p offset size value) := by
  unfold State.windowWrite
  with_reducible repeat' (first
    | assumption | intro _ | apply State.ifReady_keeps | apply State.dacWrite_keeps | apply State.directWrite_keeps
    | apply keeps_ite)

theorem execDictWrite_keeps {z s : State} (h : z.Keeps s) (port : HostPort) (offset : Nat) (size : Nat) (value : Nat) :
    ∃ u, execDictWrite port offset size value s = .next u ∧ z.Keeps u := by
  refine ⟨_, rfl, ?_⟩
  with_reducible repeat' (first | assumption | apply State.windowWrite_keeps)

theorem execWindowAccessRefused_keeps {z s : State} (h : z.Keeps s) (port : HostPort) (offset : Nat) (size : Nat) (isWrite : Bool) (value : Nat) :
    ∃ u, execWindowAccessRefused port offset size isWrite value s = .next u ∧ z.Keeps u := by
  refine ⟨_, rfl, ?_⟩
  with_reducible repeat' (first | assumption | apply State.windowRead_keeps | apply State.windowWrite_keeps | apply keeps_ite)

theorem execLastAbortRead_keeps {z s : State} (h : z.Keeps s) (port : HostPort) :
    ∃ u, execLastAbortRead port s = .next u ∧ z.Keeps u := by
  refine ⟨_, rfl, ?_⟩
  with_reducible repeat' (first | assumption | apply State.windowRead_keeps)

end Sys2Proof.Machine
end

