-- ==== Sys2Proof/Laws/KeepsOdp.lean ====
section
/-! SUPPORT. What the operations of Machine/Odp.lean keep (State.Keeps). -/

namespace Sys2Proof.Machine

theorem State.odpReply_keeps {z s : State} (h : z.Keeps s) (f : OdpFrame) (typ : Nat) (r : OdpResp) :
    z.Keeps (State.odpReply s f typ r) := by
  unfold State.odpReply
  with_reducible repeat' (first
    | assumption | apply State.tx_keeps | extract_lets | dsimp +zetaDelta only | refine keeps_update ?_ rfl)

theorem State.plcaRefresh_keeps {z s : State} (h : z.Keeps s) :
    z.Keeps (State.plcaRefresh s) := by
  unfold State.plcaRefresh
  with_reducible repeat' (first | assumption | apply State.put_keeps)

theorem State.odpFrame_keeps {z s : State} (h : z.Keeps s) (f : OdpFrame) (typ : Nat) (act : OdpAct) (hact : ∀ u, z.Keeps u → z.Keeps (act u).1) :
    z.Keeps (State.odpFrame s f typ act) := by
  unfold State.odpFrame
  with_reducible repeat' (first
    | assumption | apply State.tx_keeps | apply State.plcaRefresh_keeps | apply State.rx_keeps | apply State.odpReply_keeps
    | apply hact | apply keeps_ite | split | refine eq_fst (by assumption) ?_)

theorem odpRead_keeps {z s : State} (h : z.Keeps s) (f : OdpFrame) :
    z.Keeps (odpRead f s).1 := by
  unfold odpRead
  with_reducible repeat' (first | assumption | apply State.afterRead_keeps | split | extract_lets)

theorem execOdpReadReq_keeps {z s : State} (h : z.Keeps s) (f : OdpFrame) :
    ∃ u, execOdpReadReq f s = .next u ∧ z.Keeps u := by
  refine ⟨_, rfl, ?_⟩
  with_reducible repeat' (first | assumption | intro _ | apply odpRead_keeps | apply State.odpFrame_keeps)

theorem odpWrite_keeps {z s : State} (h : z.Keeps s) (f : OdpFrame) :
    z.Keeps (odpWrite f s).1 := by
  unfold odpWrite
  with_reducible repeat' (first | assumption | apply State.writeScalar_keeps | split | refine ok_self (by assumption) ?_)

theorem execOdpWriteReq_keeps {z s : State} (h : z.Keeps s) (f : OdpFrame) :
    ∃ u, execOdpWriteReq f s = .next u ∧ z.Keeps u := by
  refine ⟨_, rfl, ?_⟩
  with_reducible repeat' (first | assumption | intro _ | apply odpWrite_keeps | apply State.odpFrame_keeps)

theorem State.odpOpen_keeps {z s : State} (h : z.Keeps s) (x : OdpXfer) :
    z.Keeps (State.odpOpen s x) := by
  unfold State.odpOpen
  with_reducible repeat' (first | assumption | extract_lets | dsimp +zetaDelta only | refine keeps_update ?_ rfl)

theorem State.odpDrop_keeps {z s : State} (h : z.Keeps s) (f : OdpFrame) :
    z.Keeps (State.odpDrop s f) := by
  unfold State.odpDrop
  with_reducible repeat' (first | assumption | extract_lets | dsimp +zetaDelta only | refine keeps_update ?_ rfl)

theorem State.odpSet_keeps {z s : State} (h : z.Keeps s) (f : OdpFrame) (x : OdpXfer) :
    z.Keeps (State.odpSet s f x) := by
  unfold State.odpSet
  with_reducible repeat' (first | assumption | extract_lets | dsimp +zetaDelta only | refine keeps_update ?_ rfl)

theorem odpGone_keeps {z s : State} (h : z.Keeps s) (f : OdpFrame) :
    z.Keeps (odpGone f s).1 := by
  unfold odpGone
  with_reducible repeat' (first
    | assumption | split | extract_lets | dsimp only | dsimp +zetaDelta only | refine keeps_update ?_ rfl)

theorem odpUpload_keeps {z s : State} (h : z.Keeps s) (f : OdpFrame) :
    z.Keeps (odpUpload f s).1 := by
  unfold odpUpload
  with_reducible repeat' (first
    | assumption | apply State.uploadCheck_keeps | apply State.odpOpen_keeps | split | refine ok_snd (by assumption) ?_)

theorem execOdpUploadInit_keeps {z s : State} (h : z.Keeps s) (f : OdpFrame) :
    ∃ u, execOdpUploadInit f s = .next u ∧ z.Keeps u := by
  refine ⟨_, rfl, ?_⟩
  with_reducible repeat' (first | assumption | intro _ | apply odpUpload_keeps | apply State.odpFrame_keeps)

theorem odpUploadSeg_keeps {z s : State} (h : z.Keeps s) (f : OdpFrame) :
    z.Keeps (odpUploadSeg f s).1 := by
  unfold odpUploadSeg
  with_reducible repeat' (first | assumption | apply odpGone_keeps | split)

theorem execOdpUploadSegReq_keeps {z s : State} (h : z.Keeps s) (f : OdpFrame) :
    ∃ u, execOdpUploadSegReq f s = .next u ∧ z.Keeps u := by
  refine ⟨_, rfl, ?_⟩
  with_reducible repeat' (first | assumption | intro _ | apply State.odpFrame_keeps | apply odpUploadSeg_keeps)

theorem odpDownload_keeps {z s : State} (h : z.Keeps s) (f : OdpFrame) :
    z.Keeps (odpDownload f s).1 := by
  unfold odpDownload
  with_reducible repeat' (first | assumption | apply State.odpOpen_keeps | split | extract_lets)

theorem execOdpDownloadInit_keeps {z s : State} (h : z.Keeps s) (f : OdpFrame) :
    ∃ u, execOdpDownloadInit f s = .next u ∧ z.Keeps u := by
  refine ⟨_, rfl, ?_⟩
  with_reducible repeat' (first | assumption | intro _ | apply odpDownload_keeps | apply State.odpFrame_keeps)

theorem odpFinish_keeps {z s : State} (h : z.Keeps s) (f : OdpFrame) (x : OdpXfer) (bs : List Byte) :
    z.Keeps (odpFinish f x bs s).1 := by
  unfold odpFinish
  with_reducible repeat' (first
    | assumption | apply State.downloadEnd_keeps | apply State.odpDrop_keeps | split | refine eq_fst (by assumption) ?_
    | extract_lets | dsimp only | dsimp +zetaDelta only | refine keeps_update ?_ rfl)

theorem odpDownloadSeg_keeps {z s : State} (h : z.Keeps s) (f : OdpFrame) :
    z.Keeps (odpDownloadSeg f s).1 := by
  unfold odpDownloadSeg
  with_reducible repeat' (first | assumption | apply odpFinish_keeps | apply State.odpSet_keeps | apply odpGone_keeps | split)

theorem execOdpDownloadSeg_keeps {z s : State} (h : z.Keeps s) (f : OdpFrame) :
    ∃ u, execOdpDownloadSeg f s = .next u ∧ z.Keeps u := by
  refine ⟨_, rfl, ?_⟩
  with_reducible repeat' (first | assumption | intro _ | apply State.odpFrame_keeps | apply odpDownloadSeg_keeps)

theorem odpAbort_keeps {z s : State} (h : z.Keeps s) (f : OdpFrame) :
    z.Keeps (odpAbort f s).1 := by
  unfold odpAbort
  with_reducible repeat' (first
    | assumption | apply State.fwCut_keeps | apply State.odpDrop_keeps | apply odpGone_keeps | split)

theorem execOdpTransferAbort_keeps {z s : State} (h : z.Keeps s) (f : OdpFrame) :
    ∃ u, execOdpTransferAbort f s = .next u ∧ z.Keeps u := by
  refine ⟨_, rfl, ?_⟩
  with_reducible repeat' (first | assumption | intro _ | apply State.odpFrame_keeps | apply odpAbort_keeps)

theorem execOdpTransferTimeout_keeps {z s : State} (h : z.Keeps s) (n : Nat) :
    ∃ u, execOdpTransferTimeout n s = .next u ∧ z.Keeps u := by
  refine ⟨_, rfl, ?_⟩
  with_reducible repeat' (first | assumption | split | extract_lets | dsimp +zetaDelta only | refine keeps_update ?_ rfl)

theorem execOdpDiscover_keeps {z s : State} (h : z.Keeps s) (f : OdpFrame) :
    ∃ u, execOdpDiscover f s = .next u ∧ z.Keeps u := by
  refine ⟨_, rfl, ?_⟩
  with_reducible repeat' (first | assumption | intro _ | apply State.odpFrame_keeps)

theorem execOdpUnknownFrame_keeps {z s : State} (h : z.Keeps s) (f : OdpFrame) :
    ∃ u, execOdpUnknownFrame f s = .next u ∧ z.Keeps u := by
  refine ⟨_, rfl, ?_⟩
  with_reducible repeat' (first | assumption | intro _ | apply State.odpFrame_keeps | apply keeps_ite)

theorem execFwWriteDone_keeps {z s : State} (h : z.Keeps s) (ok : Bool) :
    ∃ u, execFwWriteDone ok s = .next u ∧ z.Keeps u := by
  refine ⟨_, rfl, ?_⟩
  with_reducible repeat' (first
    | assumption | apply State.dacFail_keeps | apply State.tx_keeps | apply State.fwStatus_keeps | apply State.setDac_keeps | apply keeps_ite | split
    | extract_lets | dsimp only | dsimp +zetaDelta only | refine keeps_update ?_ rfl)

end Sys2Proof.Machine
end

