-- ==== Sys2Proof/Laws/State.lean ====
section
/-! SUPPORT. What each update of the state leaves alone, field by field, and what a read after a write gives. -/

namespace Sys2Proof.Machine

@[simp] theorem State.putK_pending (s : State) (k v : Nat) : (s.putK k v).pending = s.pending := rfl
@[simp] theorem State.putK_out (s : State) (k v : Nat) : (s.putK k v).out = s.out := rfl
@[simp] theorem State.putK_draws (s : State) (k v : Nat) : (s.putK k v).draws = s.draws := rfl
@[simp] theorem State.putK_timer (s : State) (k v : Nat) : (s.putK k v).timer = s.timer := rfl
@[simp] theorem State.putK_staged (s : State) (k v : Nat) : (s.putK k v).staged = s.staged := rfl
@[simp] theorem State.putK_blobs (s : State) (k v : Nat) : (s.putK k v).blobs = s.blobs := rfl
@[simp] theorem State.putK_mem (s : State) (k v : Nat) : (s.putK k v).mem = s.mem := rfl
@[simp] theorem State.putK_poison (s : State) (k v : Nat) : (s.putK k v).poison = s.poison := rfl
@[simp] theorem State.putK_power (s : State) (k v : Nat) : (s.putK k v).power = s.power := rfl
@[simp] theorem State.putK_store (s : State) (k v : Nat) : (s.putK k v).store = s.store := rfl
@[simp] theorem State.putK_log (s : State) (k v : Nat) : (s.putK k v).log = s.log := rfl
@[simp] theorem State.putK_hl0 (s : State) (k v : Nat) : (s.putK k v).hl0 = s.hl0 := rfl
@[simp] theorem State.putK_hl1 (s : State) (k v : Nat) : (s.putK k v).hl1 = s.hl1 := rfl
@[simp] theorem State.putK_notice (s : State) (k v : Nat) : (s.putK k v).notice = s.notice := rfl
@[simp] theorem State.putK_odp (s : State) (k v : Nat) : (s.putK k v).odp = s.odp := rfl
@[simp] theorem State.putK_mgmt (s : State) (k v : Nat) : (s.putK k v).mgmt = s.mgmt := rfl
@[simp] theorem State.putK_lh (s : State) (k v : Nat) : (s.putK k v).lh = s.lh := rfl
@[simp] theorem State.putK_fw (s : State) (k v : Nat) : (s.putK k v).fw = s.fw := rfl
@[simp] theorem State.putK_spdmHl0 (s : State) (k v : Nat) : (s.putK k v).spdmHl0 = s.spdmHl0 := rfl
@[simp] theorem State.putK_spdmHl1 (s : State) (k v : Nat) : (s.putK k v).spdmHl1 = s.spdmHl1 := rfl
@[simp] theorem State.putK_spdmOdp (s : State) (k v : Nat) : (s.putK k v).spdmOdp = s.spdmOdp := rfl
@[simp] theorem State.putK_tap (s : State) (k v : Nat) : (s.putK k v).tap = s.tap := rfl
@[simp] theorem State.putK_dbg (s : State) (k v : Nat) : (s.putK k v).dbg = s.dbg := rfl
@[simp] theorem State.putK_plan (s : State) (k v : Nat) : (s.putK k v).plan = s.plan := rfl
@[simp] theorem State.putK_tiles (s : State) (k v : Nat) : (s.putK k v).tiles = s.tiles := rfl
@[simp] theorem State.putK_tlbs (s : State) (k v : Nat) : (s.putK k v).tlbs = s.tlbs := rfl
@[simp] theorem State.putK_berths (s : State) (k v : Nat) : (s.putK k v).berths = s.berths := rfl
@[simp] theorem State.putK_bollards (s : State) (k v : Nat) : (s.putK k v).bollards = s.bollards := rfl
@[simp] theorem State.putK_chains (s : State) (k v : Nat) : (s.putK k v).chains = s.chains := rfl
@[simp] theorem State.putK_inval (s : State) (k v : Nat) : (s.putK k v).inval = s.inval := rfl
@[simp] theorem State.putK_nextTask (s : State) (k v : Nat) : (s.putK k v).nextTask = s.nextTask := rfl
@[simp] theorem State.putK_ctxs (s : State) (k v : Nat) : (s.putK k v).ctxs = s.ctxs := rfl
@[simp] theorem State.putK_secure (s : State) (k v : Nat) : (s.putK k v).secure = s.secure := rfl
@[simp] theorem State.putK_tallies (s : State) (k v : Nat) : (s.putK k v).tallies = s.tallies := rfl
@[simp] theorem State.putK_retiredDocks (s : State) (k v : Nat) : (s.putK k v).retiredDocks = s.retiredDocks := rfl
@[simp] theorem State.putK_failedPorts (s : State) (k v : Nat) : (s.putK k v).failedPorts = s.failedPorts := rfl
@[simp] theorem State.putK_outvoted (s : State) (k v : Nat) : (s.putK k v).outvoted = s.outvoted := rfl
@[simp] theorem State.putK_fabric (s : State) (k v : Nat) : (s.putK k v).fabric = s.fabric := rfl
@[simp] theorem State.putK_layers (s : State) (k v : Nat) : (s.putK k v).layers = s.layers := rfl
@[simp] theorem State.putK_stored (s : State) (k v : Nat) : (s.putK k v).stored = s.stored := rfl
@[simp] theorem State.putK_weigh (s : State) (k v : Nat) : (s.putK k v).weigh = s.weigh := rfl
@[simp] theorem State.putK_holds (s : State) (k v : Nat) : (s.putK k v).holds = s.holds := rfl
@[simp] theorem State.putK_docks (s : State) (k v : Nat) : (s.putK k v).docks = s.docks := rfl
@[simp] theorem State.putK_cals (s : State) (k v : Nat) : (s.putK k v).cals = s.cals := rfl
@[simp] theorem State.putK_dieCals (s : State) (k v : Nat) : (s.putK k v).dieCals = s.dieCals := rfl
@[simp] theorem State.putK_mvms (s : State) (k v : Nat) : (s.putK k v).mvms = s.mvms := rfl

@[simp] theorem State.put_pending (s : State) (idx sub v : Nat) : (s.put idx sub v).pending = s.pending := rfl
@[simp] theorem State.put_out (s : State) (idx sub v : Nat) : (s.put idx sub v).out = s.out := rfl
@[simp] theorem State.put_draws (s : State) (idx sub v : Nat) : (s.put idx sub v).draws = s.draws := rfl
@[simp] theorem State.put_timer (s : State) (idx sub v : Nat) : (s.put idx sub v).timer = s.timer := rfl
@[simp] theorem State.put_staged (s : State) (idx sub v : Nat) : (s.put idx sub v).staged = s.staged := rfl
@[simp] theorem State.put_blobs (s : State) (idx sub v : Nat) : (s.put idx sub v).blobs = s.blobs := rfl
@[simp] theorem State.put_mem (s : State) (idx sub v : Nat) : (s.put idx sub v).mem = s.mem := rfl
@[simp] theorem State.put_poison (s : State) (idx sub v : Nat) : (s.put idx sub v).poison = s.poison := rfl
@[simp] theorem State.put_power (s : State) (idx sub v : Nat) : (s.put idx sub v).power = s.power := rfl
@[simp] theorem State.put_store (s : State) (idx sub v : Nat) : (s.put idx sub v).store = s.store := rfl
@[simp] theorem State.put_log (s : State) (idx sub v : Nat) : (s.put idx sub v).log = s.log := rfl
@[simp] theorem State.put_hl0 (s : State) (idx sub v : Nat) : (s.put idx sub v).hl0 = s.hl0 := rfl
@[simp] theorem State.put_hl1 (s : State) (idx sub v : Nat) : (s.put idx sub v).hl1 = s.hl1 := rfl
@[simp] theorem State.put_notice (s : State) (idx sub v : Nat) : (s.put idx sub v).notice = s.notice := rfl
@[simp] theorem State.put_odp (s : State) (idx sub v : Nat) : (s.put idx sub v).odp = s.odp := rfl
@[simp] theorem State.put_mgmt (s : State) (idx sub v : Nat) : (s.put idx sub v).mgmt = s.mgmt := rfl
@[simp] theorem State.put_lh (s : State) (idx sub v : Nat) : (s.put idx sub v).lh = s.lh := rfl
@[simp] theorem State.put_fw (s : State) (idx sub v : Nat) : (s.put idx sub v).fw = s.fw := rfl
@[simp] theorem State.put_spdmHl0 (s : State) (idx sub v : Nat) : (s.put idx sub v).spdmHl0 = s.spdmHl0 := rfl
@[simp] theorem State.put_spdmHl1 (s : State) (idx sub v : Nat) : (s.put idx sub v).spdmHl1 = s.spdmHl1 := rfl
@[simp] theorem State.put_spdmOdp (s : State) (idx sub v : Nat) : (s.put idx sub v).spdmOdp = s.spdmOdp := rfl
@[simp] theorem State.put_tap (s : State) (idx sub v : Nat) : (s.put idx sub v).tap = s.tap := rfl
@[simp] theorem State.put_dbg (s : State) (idx sub v : Nat) : (s.put idx sub v).dbg = s.dbg := rfl
@[simp] theorem State.put_plan (s : State) (idx sub v : Nat) : (s.put idx sub v).plan = s.plan := rfl
@[simp] theorem State.put_tiles (s : State) (idx sub v : Nat) : (s.put idx sub v).tiles = s.tiles := rfl
@[simp] theorem State.put_tlbs (s : State) (idx sub v : Nat) : (s.put idx sub v).tlbs = s.tlbs := rfl
@[simp] theorem State.put_berths (s : State) (idx sub v : Nat) : (s.put idx sub v).berths = s.berths := rfl
@[simp] theorem State.put_bollards (s : State) (idx sub v : Nat) : (s.put idx sub v).bollards = s.bollards := rfl
@[simp] theorem State.put_chains (s : State) (idx sub v : Nat) : (s.put idx sub v).chains = s.chains := rfl
@[simp] theorem State.put_inval (s : State) (idx sub v : Nat) : (s.put idx sub v).inval = s.inval := rfl
@[simp] theorem State.put_nextTask (s : State) (idx sub v : Nat) : (s.put idx sub v).nextTask = s.nextTask := rfl
@[simp] theorem State.put_ctxs (s : State) (idx sub v : Nat) : (s.put idx sub v).ctxs = s.ctxs := rfl
@[simp] theorem State.put_secure (s : State) (idx sub v : Nat) : (s.put idx sub v).secure = s.secure := rfl
@[simp] theorem State.put_tallies (s : State) (idx sub v : Nat) : (s.put idx sub v).tallies = s.tallies := rfl
@[simp] theorem State.put_retiredDocks (s : State) (idx sub v : Nat) : (s.put idx sub v).retiredDocks = s.retiredDocks := rfl
@[simp] theorem State.put_failedPorts (s : State) (idx sub v : Nat) : (s.put idx sub v).failedPorts = s.failedPorts := rfl
@[simp] theorem State.put_outvoted (s : State) (idx sub v : Nat) : (s.put idx sub v).outvoted = s.outvoted := rfl
@[simp] theorem State.put_fabric (s : State) (idx sub v : Nat) : (s.put idx sub v).fabric = s.fabric := rfl
@[simp] theorem State.put_layers (s : State) (idx sub v : Nat) : (s.put idx sub v).layers = s.layers := rfl
@[simp] theorem State.put_stored (s : State) (idx sub v : Nat) : (s.put idx sub v).stored = s.stored := rfl
@[simp] theorem State.put_weigh (s : State) (idx sub v : Nat) : (s.put idx sub v).weigh = s.weigh := rfl
@[simp] theorem State.put_holds (s : State) (idx sub v : Nat) : (s.put idx sub v).holds = s.holds := rfl
@[simp] theorem State.put_docks (s : State) (idx sub v : Nat) : (s.put idx sub v).docks = s.docks := rfl
@[simp] theorem State.put_cals (s : State) (idx sub v : Nat) : (s.put idx sub v).cals = s.cals := rfl
@[simp] theorem State.put_dieCals (s : State) (idx sub v : Nat) : (s.put idx sub v).dieCals = s.dieCals := rfl
@[simp] theorem State.put_mvms (s : State) (idx sub v : Nat) : (s.put idx sub v).mvms = s.mvms := rfl

@[simp] theorem State.count_pending (s : State) (idx sub w n : Nat) : (s.count idx sub w n).pending = s.pending := rfl
@[simp] theorem State.count_out (s : State) (idx sub w n : Nat) : (s.count idx sub w n).out = s.out := rfl
@[simp] theorem State.count_draws (s : State) (idx sub w n : Nat) : (s.count idx sub w n).draws = s.draws := rfl
@[simp] theorem State.count_timer (s : State) (idx sub w n : Nat) : (s.count idx sub w n).timer = s.timer := rfl
@[simp] theorem State.count_staged (s : State) (idx sub w n : Nat) : (s.count idx sub w n).staged = s.staged := rfl
@[simp] theorem State.count_blobs (s : State) (idx sub w n : Nat) : (s.count idx sub w n).blobs = s.blobs := rfl
@[simp] theorem State.count_mem (s : State) (idx sub w n : Nat) : (s.count idx sub w n).mem = s.mem := rfl
@[simp] theorem State.count_poison (s : State) (idx sub w n : Nat) : (s.count idx sub w n).poison = s.poison := rfl
@[simp] theorem State.count_power (s : State) (idx sub w n : Nat) : (s.count idx sub w n).power = s.power := rfl
@[simp] theorem State.count_store (s : State) (idx sub w n : Nat) : (s.count idx sub w n).store = s.store := rfl
@[simp] theorem State.count_log (s : State) (idx sub w n : Nat) : (s.count idx sub w n).log = s.log := rfl
@[simp] theorem State.count_hl0 (s : State) (idx sub w n : Nat) : (s.count idx sub w n).hl0 = s.hl0 := rfl
@[simp] theorem State.count_hl1 (s : State) (idx sub w n : Nat) : (s.count idx sub w n).hl1 = s.hl1 := rfl
@[simp] theorem State.count_notice (s : State) (idx sub w n : Nat) : (s.count idx sub w n).notice = s.notice := rfl
@[simp] theorem State.count_odp (s : State) (idx sub w n : Nat) : (s.count idx sub w n).odp = s.odp := rfl
@[simp] theorem State.count_mgmt (s : State) (idx sub w n : Nat) : (s.count idx sub w n).mgmt = s.mgmt := rfl
@[simp] theorem State.count_lh (s : State) (idx sub w n : Nat) : (s.count idx sub w n).lh = s.lh := rfl
@[simp] theorem State.count_fw (s : State) (idx sub w n : Nat) : (s.count idx sub w n).fw = s.fw := rfl
@[simp] theorem State.count_spdmHl0 (s : State) (idx sub w n : Nat) : (s.count idx sub w n).spdmHl0 = s.spdmHl0 := rfl
@[simp] theorem State.count_spdmHl1 (s : State) (idx sub w n : Nat) : (s.count idx sub w n).spdmHl1 = s.spdmHl1 := rfl
@[simp] theorem State.count_spdmOdp (s : State) (idx sub w n : Nat) : (s.count idx sub w n).spdmOdp = s.spdmOdp := rfl
@[simp] theorem State.count_tap (s : State) (idx sub w n : Nat) : (s.count idx sub w n).tap = s.tap := rfl
@[simp] theorem State.count_dbg (s : State) (idx sub w n : Nat) : (s.count idx sub w n).dbg = s.dbg := rfl
@[simp] theorem State.count_plan (s : State) (idx sub w n : Nat) : (s.count idx sub w n).plan = s.plan := rfl
@[simp] theorem State.count_tiles (s : State) (idx sub w n : Nat) : (s.count idx sub w n).tiles = s.tiles := rfl
@[simp] theorem State.count_tlbs (s : State) (idx sub w n : Nat) : (s.count idx sub w n).tlbs = s.tlbs := rfl
@[simp] theorem State.count_berths (s : State) (idx sub w n : Nat) : (s.count idx sub w n).berths = s.berths := rfl
@[simp] theorem State.count_bollards (s : State) (idx sub w n : Nat) : (s.count idx sub w n).bollards = s.bollards := rfl
@[simp] theorem State.count_chains (s : State) (idx sub w n : Nat) : (s.count idx sub w n).chains = s.chains := rfl
@[simp] theorem State.count_inval (s : State) (idx sub w n : Nat) : (s.count idx sub w n).inval = s.inval := rfl
@[simp] theorem State.count_nextTask (s : State) (idx sub w n : Nat) : (s.count idx sub w n).nextTask = s.nextTask := rfl
@[simp] theorem State.count_ctxs (s : State) (idx sub w n : Nat) : (s.count idx sub w n).ctxs = s.ctxs := rfl
@[simp] theorem State.count_secure (s : State) (idx sub w n : Nat) : (s.count idx sub w n).secure = s.secure := rfl
@[simp] theorem State.count_tallies (s : State) (idx sub w n : Nat) : (s.count idx sub w n).tallies = s.tallies := rfl
@[simp] theorem State.count_retiredDocks (s : State) (idx sub w n : Nat) : (s.count idx sub w n).retiredDocks = s.retiredDocks := rfl
@[simp] theorem State.count_failedPorts (s : State) (idx sub w n : Nat) : (s.count idx sub w n).failedPorts = s.failedPorts := rfl
@[simp] theorem State.count_outvoted (s : State) (idx sub w n : Nat) : (s.count idx sub w n).outvoted = s.outvoted := rfl
@[simp] theorem State.count_fabric (s : State) (idx sub w n : Nat) : (s.count idx sub w n).fabric = s.fabric := rfl
@[simp] theorem State.count_layers (s : State) (idx sub w n : Nat) : (s.count idx sub w n).layers = s.layers := rfl
@[simp] theorem State.count_stored (s : State) (idx sub w n : Nat) : (s.count idx sub w n).stored = s.stored := rfl
@[simp] theorem State.count_weigh (s : State) (idx sub w n : Nat) : (s.count idx sub w n).weigh = s.weigh := rfl
@[simp] theorem State.count_holds (s : State) (idx sub w n : Nat) : (s.count idx sub w n).holds = s.holds := rfl
@[simp] theorem State.count_docks (s : State) (idx sub w n : Nat) : (s.count idx sub w n).docks = s.docks := rfl
@[simp] theorem State.count_cals (s : State) (idx sub w n : Nat) : (s.count idx sub w n).cals = s.cals := rfl
@[simp] theorem State.count_dieCals (s : State) (idx sub w n : Nat) : (s.count idx sub w n).dieCals = s.dieCals := rfl
@[simp] theorem State.count_mvms (s : State) (idx sub w n : Nat) : (s.count idx sub w n).mvms = s.mvms := rfl

@[simp] theorem State.emit_pending (s : State) (o : Output) : (s.emit o).pending = s.pending := rfl
@[simp] theorem State.emit_draws (s : State) (o : Output) : (s.emit o).draws = s.draws := rfl
@[simp] theorem State.emit_timer (s : State) (o : Output) : (s.emit o).timer = s.timer := rfl
@[simp] theorem State.emit_dict (s : State) (o : Output) : (s.emit o).dict = s.dict := rfl
@[simp] theorem State.emit_staged (s : State) (o : Output) : (s.emit o).staged = s.staged := rfl
@[simp] theorem State.emit_blobs (s : State) (o : Output) : (s.emit o).blobs = s.blobs := rfl
@[simp] theorem State.emit_mem (s : State) (o : Output) : (s.emit o).mem = s.mem := rfl
@[simp] theorem State.emit_poison (s : State) (o : Output) : (s.emit o).poison = s.poison := rfl
@[simp] theorem State.emit_power (s : State) (o : Output) : (s.emit o).power = s.power := rfl
@[simp] theorem State.emit_store (s : State) (o : Output) : (s.emit o).store = s.store := rfl
@[simp] theorem State.emit_log (s : State) (o : Output) : (s.emit o).log = s.log := rfl
@[simp] theorem State.emit_hl0 (s : State) (o : Output) : (s.emit o).hl0 = s.hl0 := rfl
@[simp] theorem State.emit_hl1 (s : State) (o : Output) : (s.emit o).hl1 = s.hl1 := rfl
@[simp] theorem State.emit_notice (s : State) (o : Output) : (s.emit o).notice = s.notice := rfl
@[simp] theorem State.emit_odp (s : State) (o : Output) : (s.emit o).odp = s.odp := rfl
@[simp] theorem State.emit_mgmt (s : State) (o : Output) : (s.emit o).mgmt = s.mgmt := rfl
@[simp] theorem State.emit_lh (s : State) (o : Output) : (s.emit o).lh = s.lh := rfl
@[simp] theorem State.emit_fw (s : State) (o : Output) : (s.emit o).fw = s.fw := rfl
@[simp] theorem State.emit_spdmHl0 (s : State) (o : Output) : (s.emit o).spdmHl0 = s.spdmHl0 := rfl
@[simp] theorem State.emit_spdmHl1 (s : State) (o : Output) : (s.emit o).spdmHl1 = s.spdmHl1 := rfl
@[simp] theorem State.emit_spdmOdp (s : State) (o : Output) : (s.emit o).spdmOdp = s.spdmOdp := rfl
@[simp] theorem State.emit_tap (s : State) (o : Output) : (s.emit o).tap = s.tap := rfl
@[simp] theorem State.emit_dbg (s : State) (o : Output) : (s.emit o).dbg = s.dbg := rfl
@[simp] theorem State.emit_plan (s : State) (o : Output) : (s.emit o).plan = s.plan := rfl
@[simp] theorem State.emit_tiles (s : State) (o : Output) : (s.emit o).tiles = s.tiles := rfl
@[simp] theorem State.emit_tlbs (s : State) (o : Output) : (s.emit o).tlbs = s.tlbs := rfl
@[simp] theorem State.emit_berths (s : State) (o : Output) : (s.emit o).berths = s.berths := rfl
@[simp] theorem State.emit_bollards (s : State) (o : Output) : (s.emit o).bollards = s.bollards := rfl
@[simp] theorem State.emit_chains (s : State) (o : Output) : (s.emit o).chains = s.chains := rfl
@[simp] theorem State.emit_inval (s : State) (o : Output) : (s.emit o).inval = s.inval := rfl
@[simp] theorem State.emit_nextTask (s : State) (o : Output) : (s.emit o).nextTask = s.nextTask := rfl
@[simp] theorem State.emit_ctxs (s : State) (o : Output) : (s.emit o).ctxs = s.ctxs := rfl
@[simp] theorem State.emit_secure (s : State) (o : Output) : (s.emit o).secure = s.secure := rfl
@[simp] theorem State.emit_tallies (s : State) (o : Output) : (s.emit o).tallies = s.tallies := rfl
@[simp] theorem State.emit_retiredDocks (s : State) (o : Output) : (s.emit o).retiredDocks = s.retiredDocks := rfl
@[simp] theorem State.emit_failedPorts (s : State) (o : Output) : (s.emit o).failedPorts = s.failedPorts := rfl
@[simp] theorem State.emit_outvoted (s : State) (o : Output) : (s.emit o).outvoted = s.outvoted := rfl
@[simp] theorem State.emit_fabric (s : State) (o : Output) : (s.emit o).fabric = s.fabric := rfl
@[simp] theorem State.emit_layers (s : State) (o : Output) : (s.emit o).layers = s.layers := rfl
@[simp] theorem State.emit_stored (s : State) (o : Output) : (s.emit o).stored = s.stored := rfl
@[simp] theorem State.emit_weigh (s : State) (o : Output) : (s.emit o).weigh = s.weigh := rfl
@[simp] theorem State.emit_holds (s : State) (o : Output) : (s.emit o).holds = s.holds := rfl
@[simp] theorem State.emit_docks (s : State) (o : Output) : (s.emit o).docks = s.docks := rfl
@[simp] theorem State.emit_cals (s : State) (o : Output) : (s.emit o).cals = s.cals := rfl
@[simp] theorem State.emit_dieCals (s : State) (o : Output) : (s.emit o).dieCals = s.dieCals := rfl
@[simp] theorem State.emit_mvms (s : State) (o : Output) : (s.emit o).mvms = s.mvms := rfl

@[simp] theorem State.writeAt_pending (s : State) (a : Nat) (bs : List Byte) : (s.writeAt a bs).pending = s.pending := rfl
@[simp] theorem State.writeAt_out (s : State) (a : Nat) (bs : List Byte) : (s.writeAt a bs).out = s.out := rfl
@[simp] theorem State.writeAt_draws (s : State) (a : Nat) (bs : List Byte) : (s.writeAt a bs).draws = s.draws := rfl
@[simp] theorem State.writeAt_timer (s : State) (a : Nat) (bs : List Byte) : (s.writeAt a bs).timer = s.timer := rfl
@[simp] theorem State.writeAt_dict (s : State) (a : Nat) (bs : List Byte) : (s.writeAt a bs).dict = s.dict := rfl
@[simp] theorem State.writeAt_staged (s : State) (a : Nat) (bs : List Byte) : (s.writeAt a bs).staged = s.staged := rfl
@[simp] theorem State.writeAt_blobs (s : State) (a : Nat) (bs : List Byte) : (s.writeAt a bs).blobs = s.blobs := rfl
@[simp] theorem State.writeAt_power (s : State) (a : Nat) (bs : List Byte) : (s.writeAt a bs).power = s.power := rfl
@[simp] theorem State.writeAt_store (s : State) (a : Nat) (bs : List Byte) : (s.writeAt a bs).store = s.store := rfl
@[simp] theorem State.writeAt_log (s : State) (a : Nat) (bs : List Byte) : (s.writeAt a bs).log = s.log := rfl
@[simp] theorem State.writeAt_hl0 (s : State) (a : Nat) (bs : List Byte) : (s.writeAt a bs).hl0 = s.hl0 := rfl
@[simp] theorem State.writeAt_hl1 (s : State) (a : Nat) (bs : List Byte) : (s.writeAt a bs).hl1 = s.hl1 := rfl
@[simp] theorem State.writeAt_notice (s : State) (a : Nat) (bs : List Byte) : (s.writeAt a bs).notice = s.notice := rfl
@[simp] theorem State.writeAt_odp (s : State) (a : Nat) (bs : List Byte) : (s.writeAt a bs).odp = s.odp := rfl
@[simp] theorem State.writeAt_mgmt (s : State) (a : Nat) (bs : List Byte) : (s.writeAt a bs).mgmt = s.mgmt := rfl
@[simp] theorem State.writeAt_lh (s : State) (a : Nat) (bs : List Byte) : (s.writeAt a bs).lh = s.lh := rfl
@[simp] theorem State.writeAt_fw (s : State) (a : Nat) (bs : List Byte) : (s.writeAt a bs).fw = s.fw := rfl
@[simp] theorem State.writeAt_spdmHl0 (s : State) (a : Nat) (bs : List Byte) : (s.writeAt a bs).spdmHl0 = s.spdmHl0 := rfl
@[simp] theorem State.writeAt_spdmHl1 (s : State) (a : Nat) (bs : List Byte) : (s.writeAt a bs).spdmHl1 = s.spdmHl1 := rfl
@[simp] theorem State.writeAt_spdmOdp (s : State) (a : Nat) (bs : List Byte) : (s.writeAt a bs).spdmOdp = s.spdmOdp := rfl
@[simp] theorem State.writeAt_tap (s : State) (a : Nat) (bs : List Byte) : (s.writeAt a bs).tap = s.tap := rfl
@[simp] theorem State.writeAt_dbg (s : State) (a : Nat) (bs : List Byte) : (s.writeAt a bs).dbg = s.dbg := rfl
@[simp] theorem State.writeAt_plan (s : State) (a : Nat) (bs : List Byte) : (s.writeAt a bs).plan = s.plan := rfl
@[simp] theorem State.writeAt_tiles (s : State) (a : Nat) (bs : List Byte) : (s.writeAt a bs).tiles = s.tiles := rfl
@[simp] theorem State.writeAt_tlbs (s : State) (a : Nat) (bs : List Byte) : (s.writeAt a bs).tlbs = s.tlbs := rfl
@[simp] theorem State.writeAt_berths (s : State) (a : Nat) (bs : List Byte) : (s.writeAt a bs).berths = s.berths := rfl
@[simp] theorem State.writeAt_bollards (s : State) (a : Nat) (bs : List Byte) : (s.writeAt a bs).bollards = s.bollards := rfl
@[simp] theorem State.writeAt_chains (s : State) (a : Nat) (bs : List Byte) : (s.writeAt a bs).chains = s.chains := rfl
@[simp] theorem State.writeAt_inval (s : State) (a : Nat) (bs : List Byte) : (s.writeAt a bs).inval = s.inval := rfl
@[simp] theorem State.writeAt_nextTask (s : State) (a : Nat) (bs : List Byte) : (s.writeAt a bs).nextTask = s.nextTask := rfl
@[simp] theorem State.writeAt_ctxs (s : State) (a : Nat) (bs : List Byte) : (s.writeAt a bs).ctxs = s.ctxs := rfl
@[simp] theorem State.writeAt_secure (s : State) (a : Nat) (bs : List Byte) : (s.writeAt a bs).secure = s.secure := rfl
@[simp] theorem State.writeAt_tallies (s : State) (a : Nat) (bs : List Byte) : (s.writeAt a bs).tallies = s.tallies := rfl
@[simp] theorem State.writeAt_retiredDocks (s : State) (a : Nat) (bs : List Byte) : (s.writeAt a bs).retiredDocks = s.retiredDocks := rfl
@[simp] theorem State.writeAt_failedPorts (s : State) (a : Nat) (bs : List Byte) : (s.writeAt a bs).failedPorts = s.failedPorts := rfl
@[simp] theorem State.writeAt_outvoted (s : State) (a : Nat) (bs : List Byte) : (s.writeAt a bs).outvoted = s.outvoted := rfl
@[simp] theorem State.writeAt_fabric (s : State) (a : Nat) (bs : List Byte) : (s.writeAt a bs).fabric = s.fabric := rfl
@[simp] theorem State.writeAt_layers (s : State) (a : Nat) (bs : List Byte) : (s.writeAt a bs).layers = s.layers := rfl
@[simp] theorem State.writeAt_weigh (s : State) (a : Nat) (bs : List Byte) : (s.writeAt a bs).weigh = s.weigh := rfl
@[simp] theorem State.writeAt_holds (s : State) (a : Nat) (bs : List Byte) : (s.writeAt a bs).holds = s.holds := rfl
@[simp] theorem State.writeAt_docks (s : State) (a : Nat) (bs : List Byte) : (s.writeAt a bs).docks = s.docks := rfl
@[simp] theorem State.writeAt_cals (s : State) (a : Nat) (bs : List Byte) : (s.writeAt a bs).cals = s.cals := rfl
@[simp] theorem State.writeAt_dieCals (s : State) (a : Nat) (bs : List Byte) : (s.writeAt a bs).dieCals = s.dieCals := rfl
@[simp] theorem State.writeAt_mvms (s : State) (a : Nat) (bs : List Byte) : (s.writeAt a bs).mvms = s.mvms := rfl

@[simp] theorem State.setTile_pending (s : State) (t : Nat) (x : Tile) : (s.setTile t x).pending = s.pending := rfl
@[simp] theorem State.setTile_out (s : State) (t : Nat) (x : Tile) : (s.setTile t x).out = s.out := rfl
@[simp] theorem State.setTile_draws (s : State) (t : Nat) (x : Tile) : (s.setTile t x).draws = s.draws := rfl
@[simp] theorem State.setTile_timer (s : State) (t : Nat) (x : Tile) : (s.setTile t x).timer = s.timer := rfl
@[simp] theorem State.setTile_dict (s : State) (t : Nat) (x : Tile) : (s.setTile t x).dict = s.dict := rfl
@[simp] theorem State.setTile_staged (s : State) (t : Nat) (x : Tile) : (s.setTile t x).staged = s.staged := rfl
@[simp] theorem State.setTile_blobs (s : State) (t : Nat) (x : Tile) : (s.setTile t x).blobs = s.blobs := rfl
@[simp] theorem State.setTile_mem (s : State) (t : Nat) (x : Tile) : (s.setTile t x).mem = s.mem := rfl
@[simp] theorem State.setTile_poison (s : State) (t : Nat) (x : Tile) : (s.setTile t x).poison = s.poison := rfl
@[simp] theorem State.setTile_power (s : State) (t : Nat) (x : Tile) : (s.setTile t x).power = s.power := rfl
@[simp] theorem State.setTile_store (s : State) (t : Nat) (x : Tile) : (s.setTile t x).store = s.store := rfl
@[simp] theorem State.setTile_log (s : State) (t : Nat) (x : Tile) : (s.setTile t x).log = s.log := rfl
@[simp] theorem State.setTile_hl0 (s : State) (t : Nat) (x : Tile) : (s.setTile t x).hl0 = s.hl0 := rfl
@[simp] theorem State.setTile_hl1 (s : State) (t : Nat) (x : Tile) : (s.setTile t x).hl1 = s.hl1 := rfl
@[simp] theorem State.setTile_notice (s : State) (t : Nat) (x : Tile) : (s.setTile t x).notice = s.notice := rfl
@[simp] theorem State.setTile_odp (s : State) (t : Nat) (x : Tile) : (s.setTile t x).odp = s.odp := rfl
@[simp] theorem State.setTile_mgmt (s : State) (t : Nat) (x : Tile) : (s.setTile t x).mgmt = s.mgmt := rfl
@[simp] theorem State.setTile_lh (s : State) (t : Nat) (x : Tile) : (s.setTile t x).lh = s.lh := rfl
@[simp] theorem State.setTile_fw (s : State) (t : Nat) (x : Tile) : (s.setTile t x).fw = s.fw := rfl
@[simp] theorem State.setTile_spdmHl0 (s : State) (t : Nat) (x : Tile) : (s.setTile t x).spdmHl0 = s.spdmHl0 := rfl
@[simp] theorem State.setTile_spdmHl1 (s : State) (t : Nat) (x : Tile) : (s.setTile t x).spdmHl1 = s.spdmHl1 := rfl
@[simp] theorem State.setTile_spdmOdp (s : State) (t : Nat) (x : Tile) : (s.setTile t x).spdmOdp = s.spdmOdp := rfl
@[simp] theorem State.setTile_tap (s : State) (t : Nat) (x : Tile) : (s.setTile t x).tap = s.tap := rfl
@[simp] theorem State.setTile_dbg (s : State) (t : Nat) (x : Tile) : (s.setTile t x).dbg = s.dbg := rfl
@[simp] theorem State.setTile_plan (s : State) (t : Nat) (x : Tile) : (s.setTile t x).plan = s.plan := rfl
@[simp] theorem State.setTile_tlbs (s : State) (t : Nat) (x : Tile) : (s.setTile t x).tlbs = s.tlbs := rfl
@[simp] theorem State.setTile_berths (s : State) (t : Nat) (x : Tile) : (s.setTile t x).berths = s.berths := rfl
@[simp] theorem State.setTile_bollards (s : State) (t : Nat) (x : Tile) : (s.setTile t x).bollards = s.bollards := rfl
@[simp] theorem State.setTile_chains (s : State) (t : Nat) (x : Tile) : (s.setTile t x).chains = s.chains := rfl
@[simp] theorem State.setTile_inval (s : State) (t : Nat) (x : Tile) : (s.setTile t x).inval = s.inval := rfl
@[simp] theorem State.setTile_nextTask (s : State) (t : Nat) (x : Tile) : (s.setTile t x).nextTask = s.nextTask := rfl
@[simp] theorem State.setTile_ctxs (s : State) (t : Nat) (x : Tile) : (s.setTile t x).ctxs = s.ctxs := rfl
@[simp] theorem State.setTile_secure (s : State) (t : Nat) (x : Tile) : (s.setTile t x).secure = s.secure := rfl
@[simp] theorem State.setTile_tallies (s : State) (t : Nat) (x : Tile) : (s.setTile t x).tallies = s.tallies := rfl
@[simp] theorem State.setTile_retiredDocks (s : State) (t : Nat) (x : Tile) : (s.setTile t x).retiredDocks = s.retiredDocks := rfl
@[simp] theorem State.setTile_failedPorts (s : State) (t : Nat) (x : Tile) : (s.setTile t x).failedPorts = s.failedPorts := rfl
@[simp] theorem State.setTile_outvoted (s : State) (t : Nat) (x : Tile) : (s.setTile t x).outvoted = s.outvoted := rfl
@[simp] theorem State.setTile_fabric (s : State) (t : Nat) (x : Tile) : (s.setTile t x).fabric = s.fabric := rfl
@[simp] theorem State.setTile_layers (s : State) (t : Nat) (x : Tile) : (s.setTile t x).layers = s.layers := rfl
@[simp] theorem State.setTile_stored (s : State) (t : Nat) (x : Tile) : (s.setTile t x).stored = s.stored := rfl
@[simp] theorem State.setTile_weigh (s : State) (t : Nat) (x : Tile) : (s.setTile t x).weigh = s.weigh := rfl
@[simp] theorem State.setTile_holds (s : State) (t : Nat) (x : Tile) : (s.setTile t x).holds = s.holds := rfl
@[simp] theorem State.setTile_docks (s : State) (t : Nat) (x : Tile) : (s.setTile t x).docks = s.docks := rfl
@[simp] theorem State.setTile_cals (s : State) (t : Nat) (x : Tile) : (s.setTile t x).cals = s.cals := rfl
@[simp] theorem State.setTile_dieCals (s : State) (t : Nat) (x : Tile) : (s.setTile t x).dieCals = s.dieCals := rfl
@[simp] theorem State.setTile_mvms (s : State) (t : Nat) (x : Tile) : (s.setTile t x).mvms = s.mvms := rfl

@[simp] theorem State.setBerth_pending (s : State) (b : Nat) (x : Berth) : (s.setBerth b x).pending = s.pending := rfl
@[simp] theorem State.setBerth_out (s : State) (b : Nat) (x : Berth) : (s.setBerth b x).out = s.out := rfl
@[simp] theorem State.setBerth_draws (s : State) (b : Nat) (x : Berth) : (s.setBerth b x).draws = s.draws := rfl
@[simp] theorem State.setBerth_timer (s : State) (b : Nat) (x : Berth) : (s.setBerth b x).timer = s.timer := rfl
@[simp] theorem State.setBerth_dict (s : State) (b : Nat) (x : Berth) : (s.setBerth b x).dict = s.dict := rfl
@[simp] theorem State.setBerth_staged (s : State) (b : Nat) (x : Berth) : (s.setBerth b x).staged = s.staged := rfl
@[simp] theorem State.setBerth_blobs (s : State) (b : Nat) (x : Berth) : (s.setBerth b x).blobs = s.blobs := rfl
@[simp] theorem State.setBerth_mem (s : State) (b : Nat) (x : Berth) : (s.setBerth b x).mem = s.mem := rfl
@[simp] theorem State.setBerth_poison (s : State) (b : Nat) (x : Berth) : (s.setBerth b x).poison = s.poison := rfl
@[simp] theorem State.setBerth_power (s : State) (b : Nat) (x : Berth) : (s.setBerth b x).power = s.power := rfl
@[simp] theorem State.setBerth_store (s : State) (b : Nat) (x : Berth) : (s.setBerth b x).store = s.store := rfl
@[simp] theorem State.setBerth_log (s : State) (b : Nat) (x : Berth) : (s.setBerth b x).log = s.log := rfl
@[simp] theorem State.setBerth_hl0 (s : State) (b : Nat) (x : Berth) : (s.setBerth b x).hl0 = s.hl0 := rfl
@[simp] theorem State.setBerth_hl1 (s : State) (b : Nat) (x : Berth) : (s.setBerth b x).hl1 = s.hl1 := rfl
@[simp] theorem State.setBerth_notice (s : State) (b : Nat) (x : Berth) : (s.setBerth b x).notice = s.notice := rfl
@[simp] theorem State.setBerth_odp (s : State) (b : Nat) (x : Berth) : (s.setBerth b x).odp = s.odp := rfl
@[simp] theorem State.setBerth_mgmt (s : State) (b : Nat) (x : Berth) : (s.setBerth b x).mgmt = s.mgmt := rfl
@[simp] theorem State.setBerth_lh (s : State) (b : Nat) (x : Berth) : (s.setBerth b x).lh = s.lh := rfl
@[simp] theorem State.setBerth_fw (s : State) (b : Nat) (x : Berth) : (s.setBerth b x).fw = s.fw := rfl
@[simp] theorem State.setBerth_spdmHl0 (s : State) (b : Nat) (x : Berth) : (s.setBerth b x).spdmHl0 = s.spdmHl0 := rfl
@[simp] theorem State.setBerth_spdmHl1 (s : State) (b : Nat) (x : Berth) : (s.setBerth b x).spdmHl1 = s.spdmHl1 := rfl
@[simp] theorem State.setBerth_spdmOdp (s : State) (b : Nat) (x : Berth) : (s.setBerth b x).spdmOdp = s.spdmOdp := rfl
@[simp] theorem State.setBerth_tap (s : State) (b : Nat) (x : Berth) : (s.setBerth b x).tap = s.tap := rfl
@[simp] theorem State.setBerth_dbg (s : State) (b : Nat) (x : Berth) : (s.setBerth b x).dbg = s.dbg := rfl
@[simp] theorem State.setBerth_plan (s : State) (b : Nat) (x : Berth) : (s.setBerth b x).plan = s.plan := rfl
@[simp] theorem State.setBerth_tiles (s : State) (b : Nat) (x : Berth) : (s.setBerth b x).tiles = s.tiles := rfl
@[simp] theorem State.setBerth_tlbs (s : State) (b : Nat) (x : Berth) : (s.setBerth b x).tlbs = s.tlbs := rfl
@[simp] theorem State.setBerth_bollards (s : State) (b : Nat) (x : Berth) : (s.setBerth b x).bollards = s.bollards := rfl
@[simp] theorem State.setBerth_chains (s : State) (b : Nat) (x : Berth) : (s.setBerth b x).chains = s.chains := rfl
@[simp] theorem State.setBerth_inval (s : State) (b : Nat) (x : Berth) : (s.setBerth b x).inval = s.inval := rfl
@[simp] theorem State.setBerth_nextTask (s : State) (b : Nat) (x : Berth) : (s.setBerth b x).nextTask = s.nextTask := rfl
@[simp] theorem State.setBerth_ctxs (s : State) (b : Nat) (x : Berth) : (s.setBerth b x).ctxs = s.ctxs := rfl
@[simp] theorem State.setBerth_secure (s : State) (b : Nat) (x : Berth) : (s.setBerth b x).secure = s.secure := rfl
@[simp] theorem State.setBerth_tallies (s : State) (b : Nat) (x : Berth) : (s.setBerth b x).tallies = s.tallies := rfl
@[simp] theorem State.setBerth_retiredDocks (s : State) (b : Nat) (x : Berth) : (s.setBerth b x).retiredDocks = s.retiredDocks := rfl
@[simp] theorem State.setBerth_failedPorts (s : State) (b : Nat) (x : Berth) : (s.setBerth b x).failedPorts = s.failedPorts := rfl
@[simp] theorem State.setBerth_outvoted (s : State) (b : Nat) (x : Berth) : (s.setBerth b x).outvoted = s.outvoted := rfl
@[simp] theorem State.setBerth_fabric (s : State) (b : Nat) (x : Berth) : (s.setBerth b x).fabric = s.fabric := rfl
@[simp] theorem State.setBerth_layers (s : State) (b : Nat) (x : Berth) : (s.setBerth b x).layers = s.layers := rfl
@[simp] theorem State.setBerth_stored (s : State) (b : Nat) (x : Berth) : (s.setBerth b x).stored = s.stored := rfl
@[simp] theorem State.setBerth_weigh (s : State) (b : Nat) (x : Berth) : (s.setBerth b x).weigh = s.weigh := rfl
@[simp] theorem State.setBerth_holds (s : State) (b : Nat) (x : Berth) : (s.setBerth b x).holds = s.holds := rfl
@[simp] theorem State.setBerth_docks (s : State) (b : Nat) (x : Berth) : (s.setBerth b x).docks = s.docks := rfl
@[simp] theorem State.setBerth_cals (s : State) (b : Nat) (x : Berth) : (s.setBerth b x).cals = s.cals := rfl
@[simp] theorem State.setBerth_dieCals (s : State) (b : Nat) (x : Berth) : (s.setBerth b x).dieCals = s.dieCals := rfl
@[simp] theorem State.setBerth_mvms (s : State) (b : Nat) (x : Berth) : (s.setBerth b x).mvms = s.mvms := rfl

@[simp] theorem State.setBollard_pending (s : State) (b : Nat) (x : Bollard) : (s.setBollard b x).pending = s.pending := rfl
@[simp] theorem State.setBollard_out (s : State) (b : Nat) (x : Bollard) : (s.setBollard b x).out = s.out := rfl
@[simp] theorem State.setBollard_draws (s : State) (b : Nat) (x : Bollard) : (s.setBollard b x).draws = s.draws := rfl
@[simp] theorem State.setBollard_timer (s : State) (b : Nat) (x : Bollard) : (s.setBollard b x).timer = s.timer := rfl
@[simp] theorem State.setBollard_dict (s : State) (b : Nat) (x : Bollard) : (s.setBollard b x).dict = s.dict := rfl
@[simp] theorem State.setBollard_staged (s : State) (b : Nat) (x : Bollard) : (s.setBollard b x).staged = s.staged := rfl
@[simp] theorem State.setBollard_blobs (s : State) (b : Nat) (x : Bollard) : (s.setBollard b x).blobs = s.blobs := rfl
@[simp] theorem State.setBollard_mem (s : State) (b : Nat) (x : Bollard) : (s.setBollard b x).mem = s.mem := rfl
@[simp] theorem State.setBollard_poison (s : State) (b : Nat) (x : Bollard) : (s.setBollard b x).poison = s.poison := rfl
@[simp] theorem State.setBollard_power (s : State) (b : Nat) (x : Bollard) : (s.setBollard b x).power = s.power := rfl
@[simp] theorem State.setBollard_store (s : State) (b : Nat) (x : Bollard) : (s.setBollard b x).store = s.store := rfl
@[simp] theorem State.setBollard_log (s : State) (b : Nat) (x : Bollard) : (s.setBollard b x).log = s.log := rfl
@[simp] theorem State.setBollard_hl0 (s : State) (b : Nat) (x : Bollard) : (s.setBollard b x).hl0 = s.hl0 := rfl
@[simp] theorem State.setBollard_hl1 (s : State) (b : Nat) (x : Bollard) : (s.setBollard b x).hl1 = s.hl1 := rfl
@[simp] theorem State.setBollard_notice (s : State) (b : Nat) (x : Bollard) : (s.setBollard b x).notice = s.notice := rfl
@[simp] theorem State.setBollard_odp (s : State) (b : Nat) (x : Bollard) : (s.setBollard b x).odp = s.odp := rfl
@[simp] theorem State.setBollard_mgmt (s : State) (b : Nat) (x : Bollard) : (s.setBollard b x).mgmt = s.mgmt := rfl
@[simp] theorem State.setBollard_lh (s : State) (b : Nat) (x : Bollard) : (s.setBollard b x).lh = s.lh := rfl
@[simp] theorem State.setBollard_fw (s : State) (b : Nat) (x : Bollard) : (s.setBollard b x).fw = s.fw := rfl
@[simp] theorem State.setBollard_spdmHl0 (s : State) (b : Nat) (x : Bollard) : (s.setBollard b x).spdmHl0 = s.spdmHl0 := rfl
@[simp] theorem State.setBollard_spdmHl1 (s : State) (b : Nat) (x : Bollard) : (s.setBollard b x).spdmHl1 = s.spdmHl1 := rfl
@[simp] theorem State.setBollard_spdmOdp (s : State) (b : Nat) (x : Bollard) : (s.setBollard b x).spdmOdp = s.spdmOdp := rfl
@[simp] theorem State.setBollard_tap (s : State) (b : Nat) (x : Bollard) : (s.setBollard b x).tap = s.tap := rfl
@[simp] theorem State.setBollard_dbg (s : State) (b : Nat) (x : Bollard) : (s.setBollard b x).dbg = s.dbg := rfl
@[simp] theorem State.setBollard_plan (s : State) (b : Nat) (x : Bollard) : (s.setBollard b x).plan = s.plan := rfl
@[simp] theorem State.setBollard_tiles (s : State) (b : Nat) (x : Bollard) : (s.setBollard b x).tiles = s.tiles := rfl
@[simp] theorem State.setBollard_tlbs (s : State) (b : Nat) (x : Bollard) : (s.setBollard b x).tlbs = s.tlbs := rfl
@[simp] theorem State.setBollard_berths (s : State) (b : Nat) (x : Bollard) : (s.setBollard b x).berths = s.berths := rfl
@[simp] theorem State.setBollard_chains (s : State) (b : Nat) (x : Bollard) : (s.setBollard b x).chains = s.chains := rfl
@[simp] theorem State.setBollard_inval (s : State) (b : Nat) (x : Bollard) : (s.setBollard b x).inval = s.inval := rfl
@[simp] theorem State.setBollard_nextTask (s : State) (b : Nat) (x : Bollard) : (s.setBollard b x).nextTask = s.nextTask := rfl
@[simp] theorem State.setBollard_ctxs (s : State) (b : Nat) (x : Bollard) : (s.setBollard b x).ctxs = s.ctxs := rfl
@[simp] theorem State.setBollard_secure (s : State) (b : Nat) (x : Bollard) : (s.setBollard b x).secure = s.secure := rfl
@[simp] theorem State.setBollard_tallies (s : State) (b : Nat) (x : Bollard) : (s.setBollard b x).tallies = s.tallies := rfl
@[simp] theorem State.setBollard_retiredDocks (s : State) (b : Nat) (x : Bollard) : (s.setBollard b x).retiredDocks = s.retiredDocks := rfl
@[simp] theorem State.setBollard_failedPorts (s : State) (b : Nat) (x : Bollard) : (s.setBollard b x).failedPorts = s.failedPorts := rfl
@[simp] theorem State.setBollard_outvoted (s : State) (b : Nat) (x : Bollard) : (s.setBollard b x).outvoted = s.outvoted := rfl
@[simp] theorem State.setBollard_fabric (s : State) (b : Nat) (x : Bollard) : (s.setBollard b x).fabric = s.fabric := rfl
@[simp] theorem State.setBollard_layers (s : State) (b : Nat) (x : Bollard) : (s.setBollard b x).layers = s.layers := rfl
@[simp] theorem State.setBollard_stored (s : State) (b : Nat) (x : Bollard) : (s.setBollard b x).stored = s.stored := rfl
@[simp] theorem State.setBollard_weigh (s : State) (b : Nat) (x : Bollard) : (s.setBollard b x).weigh = s.weigh := rfl
@[simp] theorem State.setBollard_holds (s : State) (b : Nat) (x : Bollard) : (s.setBollard b x).holds = s.holds := rfl
@[simp] theorem State.setBollard_docks (s : State) (b : Nat) (x : Bollard) : (s.setBollard b x).docks = s.docks := rfl
@[simp] theorem State.setBollard_cals (s : State) (b : Nat) (x : Bollard) : (s.setBollard b x).cals = s.cals := rfl
@[simp] theorem State.setBollard_dieCals (s : State) (b : Nat) (x : Bollard) : (s.setBollard b x).dieCals = s.dieCals := rfl
@[simp] theorem State.setBollard_mvms (s : State) (b : Nat) (x : Bollard) : (s.setBollard b x).mvms = s.mvms := rfl

@[simp] theorem State.setCtx_pending (s : State) (c : Nat) (x : CtxSt) : (s.setCtx c x).pending = s.pending := rfl
@[simp] theorem State.setCtx_out (s : State) (c : Nat) (x : CtxSt) : (s.setCtx c x).out = s.out := rfl
@[simp] theorem State.setCtx_draws (s : State) (c : Nat) (x : CtxSt) : (s.setCtx c x).draws = s.draws := rfl
@[simp] theorem State.setCtx_timer (s : State) (c : Nat) (x : CtxSt) : (s.setCtx c x).timer = s.timer := rfl
@[simp] theorem State.setCtx_dict (s : State) (c : Nat) (x : CtxSt) : (s.setCtx c x).dict = s.dict := rfl
@[simp] theorem State.setCtx_staged (s : State) (c : Nat) (x : CtxSt) : (s.setCtx c x).staged = s.staged := rfl
@[simp] theorem State.setCtx_blobs (s : State) (c : Nat) (x : CtxSt) : (s.setCtx c x).blobs = s.blobs := rfl
@[simp] theorem State.setCtx_mem (s : State) (c : Nat) (x : CtxSt) : (s.setCtx c x).mem = s.mem := rfl
@[simp] theorem State.setCtx_poison (s : State) (c : Nat) (x : CtxSt) : (s.setCtx c x).poison = s.poison := rfl
@[simp] theorem State.setCtx_power (s : State) (c : Nat) (x : CtxSt) : (s.setCtx c x).power = s.power := rfl
@[simp] theorem State.setCtx_store (s : State) (c : Nat) (x : CtxSt) : (s.setCtx c x).store = s.store := rfl
@[simp] theorem State.setCtx_log (s : State) (c : Nat) (x : CtxSt) : (s.setCtx c x).log = s.log := rfl
@[simp] theorem State.setCtx_hl0 (s : State) (c : Nat) (x : CtxSt) : (s.setCtx c x).hl0 = s.hl0 := rfl
@[simp] theorem State.setCtx_hl1 (s : State) (c : Nat) (x : CtxSt) : (s.setCtx c x).hl1 = s.hl1 := rfl
@[simp] theorem State.setCtx_notice (s : State) (c : Nat) (x : CtxSt) : (s.setCtx c x).notice = s.notice := rfl
@[simp] theorem State.setCtx_odp (s : State) (c : Nat) (x : CtxSt) : (s.setCtx c x).odp = s.odp := rfl
@[simp] theorem State.setCtx_mgmt (s : State) (c : Nat) (x : CtxSt) : (s.setCtx c x).mgmt = s.mgmt := rfl
@[simp] theorem State.setCtx_lh (s : State) (c : Nat) (x : CtxSt) : (s.setCtx c x).lh = s.lh := rfl
@[simp] theorem State.setCtx_fw (s : State) (c : Nat) (x : CtxSt) : (s.setCtx c x).fw = s.fw := rfl
@[simp] theorem State.setCtx_spdmHl0 (s : State) (c : Nat) (x : CtxSt) : (s.setCtx c x).spdmHl0 = s.spdmHl0 := rfl
@[simp] theorem State.setCtx_spdmHl1 (s : State) (c : Nat) (x : CtxSt) : (s.setCtx c x).spdmHl1 = s.spdmHl1 := rfl
@[simp] theorem State.setCtx_spdmOdp (s : State) (c : Nat) (x : CtxSt) : (s.setCtx c x).spdmOdp = s.spdmOdp := rfl
@[simp] theorem State.setCtx_tap (s : State) (c : Nat) (x : CtxSt) : (s.setCtx c x).tap = s.tap := rfl
@[simp] theorem State.setCtx_dbg (s : State) (c : Nat) (x : CtxSt) : (s.setCtx c x).dbg = s.dbg := rfl
@[simp] theorem State.setCtx_plan (s : State) (c : Nat) (x : CtxSt) : (s.setCtx c x).plan = s.plan := rfl
@[simp] theorem State.setCtx_tiles (s : State) (c : Nat) (x : CtxSt) : (s.setCtx c x).tiles = s.tiles := rfl
@[simp] theorem State.setCtx_tlbs (s : State) (c : Nat) (x : CtxSt) : (s.setCtx c x).tlbs = s.tlbs := rfl
@[simp] theorem State.setCtx_berths (s : State) (c : Nat) (x : CtxSt) : (s.setCtx c x).berths = s.berths := rfl
@[simp] theorem State.setCtx_bollards (s : State) (c : Nat) (x : CtxSt) : (s.setCtx c x).bollards = s.bollards := rfl
@[simp] theorem State.setCtx_chains (s : State) (c : Nat) (x : CtxSt) : (s.setCtx c x).chains = s.chains := rfl
@[simp] theorem State.setCtx_inval (s : State) (c : Nat) (x : CtxSt) : (s.setCtx c x).inval = s.inval := rfl
@[simp] theorem State.setCtx_nextTask (s : State) (c : Nat) (x : CtxSt) : (s.setCtx c x).nextTask = s.nextTask := rfl
@[simp] theorem State.setCtx_secure (s : State) (c : Nat) (x : CtxSt) : (s.setCtx c x).secure = s.secure := rfl
@[simp] theorem State.setCtx_tallies (s : State) (c : Nat) (x : CtxSt) : (s.setCtx c x).tallies = s.tallies := rfl
@[simp] theorem State.setCtx_retiredDocks (s : State) (c : Nat) (x : CtxSt) : (s.setCtx c x).retiredDocks = s.retiredDocks := rfl
@[simp] theorem State.setCtx_failedPorts (s : State) (c : Nat) (x : CtxSt) : (s.setCtx c x).failedPorts = s.failedPorts := rfl
@[simp] theorem State.setCtx_outvoted (s : State) (c : Nat) (x : CtxSt) : (s.setCtx c x).outvoted = s.outvoted := rfl
@[simp] theorem State.setCtx_fabric (s : State) (c : Nat) (x : CtxSt) : (s.setCtx c x).fabric = s.fabric := rfl
@[simp] theorem State.setCtx_layers (s : State) (c : Nat) (x : CtxSt) : (s.setCtx c x).layers = s.layers := rfl
@[simp] theorem State.setCtx_stored (s : State) (c : Nat) (x : CtxSt) : (s.setCtx c x).stored = s.stored := rfl
@[simp] theorem State.setCtx_weigh (s : State) (c : Nat) (x : CtxSt) : (s.setCtx c x).weigh = s.weigh := rfl
@[simp] theorem State.setCtx_holds (s : State) (c : Nat) (x : CtxSt) : (s.setCtx c x).holds = s.holds := rfl
@[simp] theorem State.setCtx_docks (s : State) (c : Nat) (x : CtxSt) : (s.setCtx c x).docks = s.docks := rfl
@[simp] theorem State.setCtx_cals (s : State) (c : Nat) (x : CtxSt) : (s.setCtx c x).cals = s.cals := rfl
@[simp] theorem State.setCtx_dieCals (s : State) (c : Nat) (x : CtxSt) : (s.setCtx c x).dieCals = s.dieCals := rfl
@[simp] theorem State.setCtx_mvms (s : State) (c : Nat) (x : CtxSt) : (s.setCtx c x).mvms = s.mvms := rfl

@[simp] theorem State.setLayer_pending (s : State) (i : Nat) (x : LayerSt) : (s.setLayer i x).pending = s.pending := rfl
@[simp] theorem State.setLayer_out (s : State) (i : Nat) (x : LayerSt) : (s.setLayer i x).out = s.out := rfl
@[simp] theorem State.setLayer_draws (s : State) (i : Nat) (x : LayerSt) : (s.setLayer i x).draws = s.draws := rfl
@[simp] theorem State.setLayer_timer (s : State) (i : Nat) (x : LayerSt) : (s.setLayer i x).timer = s.timer := rfl
@[simp] theorem State.setLayer_dict (s : State) (i : Nat) (x : LayerSt) : (s.setLayer i x).dict = s.dict := rfl
@[simp] theorem State.setLayer_staged (s : State) (i : Nat) (x : LayerSt) : (s.setLayer i x).staged = s.staged := rfl
@[simp] theorem State.setLayer_blobs (s : State) (i : Nat) (x : LayerSt) : (s.setLayer i x).blobs = s.blobs := rfl
@[simp] theorem State.setLayer_mem (s : State) (i : Nat) (x : LayerSt) : (s.setLayer i x).mem = s.mem := rfl
@[simp] theorem State.setLayer_poison (s : State) (i : Nat) (x : LayerSt) : (s.setLayer i x).poison = s.poison := rfl
@[simp] theorem State.setLayer_power (s : State) (i : Nat) (x : LayerSt) : (s.setLayer i x).power = s.power := rfl
@[simp] theorem State.setLayer_store (s : State) (i : Nat) (x : LayerSt) : (s.setLayer i x).store = s.store := rfl
@[simp] theorem State.setLayer_log (s : State) (i : Nat) (x : LayerSt) : (s.setLayer i x).log = s.log := rfl
@[simp] theorem State.setLayer_hl0 (s : State) (i : Nat) (x : LayerSt) : (s.setLayer i x).hl0 = s.hl0 := rfl
@[simp] theorem State.setLayer_hl1 (s : State) (i : Nat) (x : LayerSt) : (s.setLayer i x).hl1 = s.hl1 := rfl
@[simp] theorem State.setLayer_notice (s : State) (i : Nat) (x : LayerSt) : (s.setLayer i x).notice = s.notice := rfl
@[simp] theorem State.setLayer_odp (s : State) (i : Nat) (x : LayerSt) : (s.setLayer i x).odp = s.odp := rfl
@[simp] theorem State.setLayer_mgmt (s : State) (i : Nat) (x : LayerSt) : (s.setLayer i x).mgmt = s.mgmt := rfl
@[simp] theorem State.setLayer_lh (s : State) (i : Nat) (x : LayerSt) : (s.setLayer i x).lh = s.lh := rfl
@[simp] theorem State.setLayer_fw (s : State) (i : Nat) (x : LayerSt) : (s.setLayer i x).fw = s.fw := rfl
@[simp] theorem State.setLayer_spdmHl0 (s : State) (i : Nat) (x : LayerSt) : (s.setLayer i x).spdmHl0 = s.spdmHl0 := rfl
@[simp] theorem State.setLayer_spdmHl1 (s : State) (i : Nat) (x : LayerSt) : (s.setLayer i x).spdmHl1 = s.spdmHl1 := rfl
@[simp] theorem State.setLayer_spdmOdp (s : State) (i : Nat) (x : LayerSt) : (s.setLayer i x).spdmOdp = s.spdmOdp := rfl
@[simp] theorem State.setLayer_tap (s : State) (i : Nat) (x : LayerSt) : (s.setLayer i x).tap = s.tap := rfl
@[simp] theorem State.setLayer_dbg (s : State) (i : Nat) (x : LayerSt) : (s.setLayer i x).dbg = s.dbg := rfl
@[simp] theorem State.setLayer_plan (s : State) (i : Nat) (x : LayerSt) : (s.setLayer i x).plan = s.plan := rfl
@[simp] theorem State.setLayer_tiles (s : State) (i : Nat) (x : LayerSt) : (s.setLayer i x).tiles = s.tiles := rfl
@[simp] theorem State.setLayer_tlbs (s : State) (i : Nat) (x : LayerSt) : (s.setLayer i x).tlbs = s.tlbs := rfl
@[simp] theorem State.setLayer_berths (s : State) (i : Nat) (x : LayerSt) : (s.setLayer i x).berths = s.berths := rfl
@[simp] theorem State.setLayer_bollards (s : State) (i : Nat) (x : LayerSt) : (s.setLayer i x).bollards = s.bollards := rfl
@[simp] theorem State.setLayer_chains (s : State) (i : Nat) (x : LayerSt) : (s.setLayer i x).chains = s.chains := rfl
@[simp] theorem State.setLayer_inval (s : State) (i : Nat) (x : LayerSt) : (s.setLayer i x).inval = s.inval := rfl
@[simp] theorem State.setLayer_nextTask (s : State) (i : Nat) (x : LayerSt) : (s.setLayer i x).nextTask = s.nextTask := rfl
@[simp] theorem State.setLayer_ctxs (s : State) (i : Nat) (x : LayerSt) : (s.setLayer i x).ctxs = s.ctxs := rfl
@[simp] theorem State.setLayer_secure (s : State) (i : Nat) (x : LayerSt) : (s.setLayer i x).secure = s.secure := rfl
@[simp] theorem State.setLayer_tallies (s : State) (i : Nat) (x : LayerSt) : (s.setLayer i x).tallies = s.tallies := rfl
@[simp] theorem State.setLayer_retiredDocks (s : State) (i : Nat) (x : LayerSt) : (s.setLayer i x).retiredDocks = s.retiredDocks := rfl
@[simp] theorem State.setLayer_failedPorts (s : State) (i : Nat) (x : LayerSt) : (s.setLayer i x).failedPorts = s.failedPorts := rfl
@[simp] theorem State.setLayer_outvoted (s : State) (i : Nat) (x : LayerSt) : (s.setLayer i x).outvoted = s.outvoted := rfl
@[simp] theorem State.setLayer_fabric (s : State) (i : Nat) (x : LayerSt) : (s.setLayer i x).fabric = s.fabric := rfl
@[simp] theorem State.setLayer_stored (s : State) (i : Nat) (x : LayerSt) : (s.setLayer i x).stored = s.stored := rfl
@[simp] theorem State.setLayer_weigh (s : State) (i : Nat) (x : LayerSt) : (s.setLayer i x).weigh = s.weigh := rfl
@[simp] theorem State.setLayer_holds (s : State) (i : Nat) (x : LayerSt) : (s.setLayer i x).holds = s.holds := rfl
@[simp] theorem State.setLayer_docks (s : State) (i : Nat) (x : LayerSt) : (s.setLayer i x).docks = s.docks := rfl
@[simp] theorem State.setLayer_cals (s : State) (i : Nat) (x : LayerSt) : (s.setLayer i x).cals = s.cals := rfl
@[simp] theorem State.setLayer_dieCals (s : State) (i : Nat) (x : LayerSt) : (s.setLayer i x).dieCals = s.dieCals := rfl
@[simp] theorem State.setLayer_mvms (s : State) (i : Nat) (x : LayerSt) : (s.setLayer i x).mvms = s.mvms := rfl

@[simp] theorem State.setDock_pending (s : State) (d : Nat) (x : Dock) : (s.setDock d x).pending = s.pending := rfl
@[simp] theorem State.setDock_out (s : State) (d : Nat) (x : Dock) : (s.setDock d x).out = s.out := rfl
@[simp] theorem State.setDock_draws (s : State) (d : Nat) (x : Dock) : (s.setDock d x).draws = s.draws := rfl
@[simp] theorem State.setDock_timer (s : State) (d : Nat) (x : Dock) : (s.setDock d x).timer = s.timer := rfl
@[simp] theorem State.setDock_dict (s : State) (d : Nat) (x : Dock) : (s.setDock d x).dict = s.dict := rfl
@[simp] theorem State.setDock_staged (s : State) (d : Nat) (x : Dock) : (s.setDock d x).staged = s.staged := rfl
@[simp] theorem State.setDock_blobs (s : State) (d : Nat) (x : Dock) : (s.setDock d x).blobs = s.blobs := rfl
@[simp] theorem State.setDock_mem (s : State) (d : Nat) (x : Dock) : (s.setDock d x).mem = s.mem := rfl
@[simp] theorem State.setDock_poison (s : State) (d : Nat) (x : Dock) : (s.setDock d x).poison = s.poison := rfl
@[simp] theorem State.setDock_power (s : State) (d : Nat) (x : Dock) : (s.setDock d x).power = s.power := rfl
@[simp] theorem State.setDock_store (s : State) (d : Nat) (x : Dock) : (s.setDock d x).store = s.store := rfl
@[simp] theorem State.setDock_log (s : State) (d : Nat) (x : Dock) : (s.setDock d x).log = s.log := rfl
@[simp] theorem State.setDock_hl0 (s : State) (d : Nat) (x : Dock) : (s.setDock d x).hl0 = s.hl0 := rfl
@[simp] theorem State.setDock_hl1 (s : State) (d : Nat) (x : Dock) : (s.setDock d x).hl1 = s.hl1 := rfl
@[simp] theorem State.setDock_notice (s : State) (d : Nat) (x : Dock) : (s.setDock d x).notice = s.notice := rfl
@[simp] theorem State.setDock_odp (s : State) (d : Nat) (x : Dock) : (s.setDock d x).odp = s.odp := rfl
@[simp] theorem State.setDock_mgmt (s : State) (d : Nat) (x : Dock) : (s.setDock d x).mgmt = s.mgmt := rfl
@[simp] theorem State.setDock_lh (s : State) (d : Nat) (x : Dock) : (s.setDock d x).lh = s.lh := rfl
@[simp] theorem State.setDock_fw (s : State) (d : Nat) (x : Dock) : (s.setDock d x).fw = s.fw := rfl
@[simp] theorem State.setDock_spdmHl0 (s : State) (d : Nat) (x : Dock) : (s.setDock d x).spdmHl0 = s.spdmHl0 := rfl
@[simp] theorem State.setDock_spdmHl1 (s : State) (d : Nat) (x : Dock) : (s.setDock d x).spdmHl1 = s.spdmHl1 := rfl
@[simp] theorem State.setDock_spdmOdp (s : State) (d : Nat) (x : Dock) : (s.setDock d x).spdmOdp = s.spdmOdp := rfl
@[simp] theorem State.setDock_tap (s : State) (d : Nat) (x : Dock) : (s.setDock d x).tap = s.tap := rfl
@[simp] theorem State.setDock_dbg (s : State) (d : Nat) (x : Dock) : (s.setDock d x).dbg = s.dbg := rfl
@[simp] theorem State.setDock_plan (s : State) (d : Nat) (x : Dock) : (s.setDock d x).plan = s.plan := rfl
@[simp] theorem State.setDock_tiles (s : State) (d : Nat) (x : Dock) : (s.setDock d x).tiles = s.tiles := rfl
@[simp] theorem State.setDock_tlbs (s : State) (d : Nat) (x : Dock) : (s.setDock d x).tlbs = s.tlbs := rfl
@[simp] theorem State.setDock_berths (s : State) (d : Nat) (x : Dock) : (s.setDock d x).berths = s.berths := rfl
@[simp] theorem State.setDock_bollards (s : State) (d : Nat) (x : Dock) : (s.setDock d x).bollards = s.bollards := rfl
@[simp] theorem State.setDock_chains (s : State) (d : Nat) (x : Dock) : (s.setDock d x).chains = s.chains := rfl
@[simp] theorem State.setDock_inval (s : State) (d : Nat) (x : Dock) : (s.setDock d x).inval = s.inval := rfl
@[simp] theorem State.setDock_nextTask (s : State) (d : Nat) (x : Dock) : (s.setDock d x).nextTask = s.nextTask := rfl
@[simp] theorem State.setDock_ctxs (s : State) (d : Nat) (x : Dock) : (s.setDock d x).ctxs = s.ctxs := rfl
@[simp] theorem State.setDock_secure (s : State) (d : Nat) (x : Dock) : (s.setDock d x).secure = s.secure := rfl
@[simp] theorem State.setDock_tallies (s : State) (d : Nat) (x : Dock) : (s.setDock d x).tallies = s.tallies := rfl
@[simp] theorem State.setDock_retiredDocks (s : State) (d : Nat) (x : Dock) : (s.setDock d x).retiredDocks = s.retiredDocks := rfl
@[simp] theorem State.setDock_failedPorts (s : State) (d : Nat) (x : Dock) : (s.setDock d x).failedPorts = s.failedPorts := rfl
@[simp] theorem State.setDock_outvoted (s : State) (d : Nat) (x : Dock) : (s.setDock d x).outvoted = s.outvoted := rfl
@[simp] theorem State.setDock_fabric (s : State) (d : Nat) (x : Dock) : (s.setDock d x).fabric = s.fabric := rfl
@[simp] theorem State.setDock_layers (s : State) (d : Nat) (x : Dock) : (s.setDock d x).layers = s.layers := rfl
@[simp] theorem State.setDock_stored (s : State) (d : Nat) (x : Dock) : (s.setDock d x).stored = s.stored := rfl
@[simp] theorem State.setDock_weigh (s : State) (d : Nat) (x : Dock) : (s.setDock d x).weigh = s.weigh := rfl
@[simp] theorem State.setDock_holds (s : State) (d : Nat) (x : Dock) : (s.setDock d x).holds = s.holds := rfl
@[simp] theorem State.setDock_cals (s : State) (d : Nat) (x : Dock) : (s.setDock d x).cals = s.cals := rfl
@[simp] theorem State.setDock_dieCals (s : State) (d : Nat) (x : Dock) : (s.setDock d x).dieCals = s.dieCals := rfl
@[simp] theorem State.setDock_mvms (s : State) (d : Nat) (x : Dock) : (s.setDock d x).mvms = s.mvms := rfl

@[simp] theorem State.setHold_pending (s : State) (t : Nat) (h : HoldSt) : (s.setHold t h).pending = s.pending := rfl
@[simp] theorem State.setHold_out (s : State) (t : Nat) (h : HoldSt) : (s.setHold t h).out = s.out := rfl
@[simp] theorem State.setHold_draws (s : State) (t : Nat) (h : HoldSt) : (s.setHold t h).draws = s.draws := rfl
@[simp] theorem State.setHold_timer (s : State) (t : Nat) (h : HoldSt) : (s.setHold t h).timer = s.timer := rfl
@[simp] theorem State.setHold_dict (s : State) (t : Nat) (h : HoldSt) : (s.setHold t h).dict = s.dict := rfl
@[simp] theorem State.setHold_staged (s : State) (t : Nat) (h : HoldSt) : (s.setHold t h).staged = s.staged := rfl
@[simp] theorem State.setHold_blobs (s : State) (t : Nat) (h : HoldSt) : (s.setHold t h).blobs = s.blobs := rfl
@[simp] theorem State.setHold_mem (s : State) (t : Nat) (h : HoldSt) : (s.setHold t h).mem = s.mem := rfl
@[simp] theorem State.setHold_poison (s : State) (t : Nat) (h : HoldSt) : (s.setHold t h).poison = s.poison := rfl
@[simp] theorem State.setHold_power (s : State) (t : Nat) (h : HoldSt) : (s.setHold t h).power = s.power := rfl
@[simp] theorem State.setHold_store (s : State) (t : Nat) (h : HoldSt) : (s.setHold t h).store = s.store := rfl
@[simp] theorem State.setHold_log (s : State) (t : Nat) (h : HoldSt) : (s.setHold t h).log = s.log := rfl
@[simp] theorem State.setHold_hl0 (s : State) (t : Nat) (h : HoldSt) : (s.setHold t h).hl0 = s.hl0 := rfl
@[simp] theorem State.setHold_hl1 (s : State) (t : Nat) (h : HoldSt) : (s.setHold t h).hl1 = s.hl1 := rfl
@[simp] theorem State.setHold_notice (s : State) (t : Nat) (h : HoldSt) : (s.setHold t h).notice = s.notice := rfl
@[simp] theorem State.setHold_odp (s : State) (t : Nat) (h : HoldSt) : (s.setHold t h).odp = s.odp := rfl
@[simp] theorem State.setHold_mgmt (s : State) (t : Nat) (h : HoldSt) : (s.setHold t h).mgmt = s.mgmt := rfl
@[simp] theorem State.setHold_lh (s : State) (t : Nat) (h : HoldSt) : (s.setHold t h).lh = s.lh := rfl
@[simp] theorem State.setHold_fw (s : State) (t : Nat) (h : HoldSt) : (s.setHold t h).fw = s.fw := rfl
@[simp] theorem State.setHold_spdmHl0 (s : State) (t : Nat) (h : HoldSt) : (s.setHold t h).spdmHl0 = s.spdmHl0 := rfl
@[simp] theorem State.setHold_spdmHl1 (s : State) (t : Nat) (h : HoldSt) : (s.setHold t h).spdmHl1 = s.spdmHl1 := rfl
@[simp] theorem State.setHold_spdmOdp (s : State) (t : Nat) (h : HoldSt) : (s.setHold t h).spdmOdp = s.spdmOdp := rfl
@[simp] theorem State.setHold_tap (s : State) (t : Nat) (h : HoldSt) : (s.setHold t h).tap = s.tap := rfl
@[simp] theorem State.setHold_dbg (s : State) (t : Nat) (h : HoldSt) : (s.setHold t h).dbg = s.dbg := rfl
@[simp] theorem State.setHold_plan (s : State) (t : Nat) (h : HoldSt) : (s.setHold t h).plan = s.plan := rfl
@[simp] theorem State.setHold_tiles (s : State) (t : Nat) (h : HoldSt) : (s.setHold t h).tiles = s.tiles := rfl
@[simp] theorem State.setHold_tlbs (s : State) (t : Nat) (h : HoldSt) : (s.setHold t h).tlbs = s.tlbs := rfl
@[simp] theorem State.setHold_berths (s : State) (t : Nat) (h : HoldSt) : (s.setHold t h).berths = s.berths := rfl
@[simp] theorem State.setHold_bollards (s : State) (t : Nat) (h : HoldSt) : (s.setHold t h).bollards = s.bollards := rfl
@[simp] theorem State.setHold_chains (s : State) (t : Nat) (h : HoldSt) : (s.setHold t h).chains = s.chains := rfl
@[simp] theorem State.setHold_inval (s : State) (t : Nat) (h : HoldSt) : (s.setHold t h).inval = s.inval := rfl
@[simp] theorem State.setHold_nextTask (s : State) (t : Nat) (h : HoldSt) : (s.setHold t h).nextTask = s.nextTask := rfl
@[simp] theorem State.setHold_ctxs (s : State) (t : Nat) (h : HoldSt) : (s.setHold t h).ctxs = s.ctxs := rfl
@[simp] theorem State.setHold_secure (s : State) (t : Nat) (h : HoldSt) : (s.setHold t h).secure = s.secure := rfl
@[simp] theorem State.setHold_tallies (s : State) (t : Nat) (h : HoldSt) : (s.setHold t h).tallies = s.tallies := rfl
@[simp] theorem State.setHold_retiredDocks (s : State) (t : Nat) (h : HoldSt) : (s.setHold t h).retiredDocks = s.retiredDocks := rfl
@[simp] theorem State.setHold_failedPorts (s : State) (t : Nat) (h : HoldSt) : (s.setHold t h).failedPorts = s.failedPorts := rfl
@[simp] theorem State.setHold_outvoted (s : State) (t : Nat) (h : HoldSt) : (s.setHold t h).outvoted = s.outvoted := rfl
@[simp] theorem State.setHold_fabric (s : State) (t : Nat) (h : HoldSt) : (s.setHold t h).fabric = s.fabric := rfl
@[simp] theorem State.setHold_layers (s : State) (t : Nat) (h : HoldSt) : (s.setHold t h).layers = s.layers := rfl
@[simp] theorem State.setHold_stored (s : State) (t : Nat) (h : HoldSt) : (s.setHold t h).stored = s.stored := rfl
@[simp] theorem State.setHold_weigh (s : State) (t : Nat) (h : HoldSt) : (s.setHold t h).weigh = s.weigh := rfl
@[simp] theorem State.setHold_docks (s : State) (t : Nat) (h : HoldSt) : (s.setHold t h).docks = s.docks := rfl
@[simp] theorem State.setHold_cals (s : State) (t : Nat) (h : HoldSt) : (s.setHold t h).cals = s.cals := rfl
@[simp] theorem State.setHold_dieCals (s : State) (t : Nat) (h : HoldSt) : (s.setHold t h).dieCals = s.dieCals := rfl
@[simp] theorem State.setHold_mvms (s : State) (t : Nat) (h : HoldSt) : (s.setHold t h).mvms = s.mvms := rfl

@[simp] theorem State.setTally_pending (s : State) (k : Nat) (e : TallySlot) : (s.setTally k e).pending = s.pending := rfl
@[simp] theorem State.setTally_out (s : State) (k : Nat) (e : TallySlot) : (s.setTally k e).out = s.out := rfl
@[simp] theorem State.setTally_draws (s : State) (k : Nat) (e : TallySlot) : (s.setTally k e).draws = s.draws := rfl
@[simp] theorem State.setTally_timer (s : State) (k : Nat) (e : TallySlot) : (s.setTally k e).timer = s.timer := rfl
@[simp] theorem State.setTally_dict (s : State) (k : Nat) (e : TallySlot) : (s.setTally k e).dict = s.dict := rfl
@[simp] theorem State.setTally_staged (s : State) (k : Nat) (e : TallySlot) : (s.setTally k e).staged = s.staged := rfl
@[simp] theorem State.setTally_blobs (s : State) (k : Nat) (e : TallySlot) : (s.setTally k e).blobs = s.blobs := rfl
@[simp] theorem State.setTally_mem (s : State) (k : Nat) (e : TallySlot) : (s.setTally k e).mem = s.mem := rfl
@[simp] theorem State.setTally_poison (s : State) (k : Nat) (e : TallySlot) : (s.setTally k e).poison = s.poison := rfl
@[simp] theorem State.setTally_power (s : State) (k : Nat) (e : TallySlot) : (s.setTally k e).power = s.power := rfl
@[simp] theorem State.setTally_store (s : State) (k : Nat) (e : TallySlot) : (s.setTally k e).store = s.store := rfl
@[simp] theorem State.setTally_log (s : State) (k : Nat) (e : TallySlot) : (s.setTally k e).log = s.log := rfl
@[simp] theorem State.setTally_hl0 (s : State) (k : Nat) (e : TallySlot) : (s.setTally k e).hl0 = s.hl0 := rfl
@[simp] theorem State.setTally_hl1 (s : State) (k : Nat) (e : TallySlot) : (s.setTally k e).hl1 = s.hl1 := rfl
@[simp] theorem State.setTally_notice (s : State) (k : Nat) (e : TallySlot) : (s.setTally k e).notice = s.notice := rfl
@[simp] theorem State.setTally_odp (s : State) (k : Nat) (e : TallySlot) : (s.setTally k e).odp = s.odp := rfl
@[simp] theorem State.setTally_mgmt (s : State) (k : Nat) (e : TallySlot) : (s.setTally k e).mgmt = s.mgmt := rfl
@[simp] theorem State.setTally_lh (s : State) (k : Nat) (e : TallySlot) : (s.setTally k e).lh = s.lh := rfl
@[simp] theorem State.setTally_fw (s : State) (k : Nat) (e : TallySlot) : (s.setTally k e).fw = s.fw := rfl
@[simp] theorem State.setTally_spdmHl0 (s : State) (k : Nat) (e : TallySlot) : (s.setTally k e).spdmHl0 = s.spdmHl0 := rfl
@[simp] theorem State.setTally_spdmHl1 (s : State) (k : Nat) (e : TallySlot) : (s.setTally k e).spdmHl1 = s.spdmHl1 := rfl
@[simp] theorem State.setTally_spdmOdp (s : State) (k : Nat) (e : TallySlot) : (s.setTally k e).spdmOdp = s.spdmOdp := rfl
@[simp] theorem State.setTally_tap (s : State) (k : Nat) (e : TallySlot) : (s.setTally k e).tap = s.tap := rfl
@[simp] theorem State.setTally_dbg (s : State) (k : Nat) (e : TallySlot) : (s.setTally k e).dbg = s.dbg := rfl
@[simp] theorem State.setTally_plan (s : State) (k : Nat) (e : TallySlot) : (s.setTally k e).plan = s.plan := rfl
@[simp] theorem State.setTally_tiles (s : State) (k : Nat) (e : TallySlot) : (s.setTally k e).tiles = s.tiles := rfl
@[simp] theorem State.setTally_tlbs (s : State) (k : Nat) (e : TallySlot) : (s.setTally k e).tlbs = s.tlbs := rfl
@[simp] theorem State.setTally_berths (s : State) (k : Nat) (e : TallySlot) : (s.setTally k e).berths = s.berths := rfl
@[simp] theorem State.setTally_bollards (s : State) (k : Nat) (e : TallySlot) : (s.setTally k e).bollards = s.bollards := rfl
@[simp] theorem State.setTally_chains (s : State) (k : Nat) (e : TallySlot) : (s.setTally k e).chains = s.chains := rfl
@[simp] theorem State.setTally_inval (s : State) (k : Nat) (e : TallySlot) : (s.setTally k e).inval = s.inval := rfl
@[simp] theorem State.setTally_nextTask (s : State) (k : Nat) (e : TallySlot) : (s.setTally k e).nextTask = s.nextTask := rfl
@[simp] theorem State.setTally_ctxs (s : State) (k : Nat) (e : TallySlot) : (s.setTally k e).ctxs = s.ctxs := rfl
@[simp] theorem State.setTally_secure (s : State) (k : Nat) (e : TallySlot) : (s.setTally k e).secure = s.secure := rfl
@[simp] theorem State.setTally_retiredDocks (s : State) (k : Nat) (e : TallySlot) : (s.setTally k e).retiredDocks = s.retiredDocks := rfl
@[simp] theorem State.setTally_failedPorts (s : State) (k : Nat) (e : TallySlot) : (s.setTally k e).failedPorts = s.failedPorts := rfl
@[simp] theorem State.setTally_outvoted (s : State) (k : Nat) (e : TallySlot) : (s.setTally k e).outvoted = s.outvoted := rfl
@[simp] theorem State.setTally_fabric (s : State) (k : Nat) (e : TallySlot) : (s.setTally k e).fabric = s.fabric := rfl
@[simp] theorem State.setTally_layers (s : State) (k : Nat) (e : TallySlot) : (s.setTally k e).layers = s.layers := rfl
@[simp] theorem State.setTally_stored (s : State) (k : Nat) (e : TallySlot) : (s.setTally k e).stored = s.stored := rfl
@[simp] theorem State.setTally_weigh (s : State) (k : Nat) (e : TallySlot) : (s.setTally k e).weigh = s.weigh := rfl
@[simp] theorem State.setTally_holds (s : State) (k : Nat) (e : TallySlot) : (s.setTally k e).holds = s.holds := rfl
@[simp] theorem State.setTally_docks (s : State) (k : Nat) (e : TallySlot) : (s.setTally k e).docks = s.docks := rfl
@[simp] theorem State.setTally_cals (s : State) (k : Nat) (e : TallySlot) : (s.setTally k e).cals = s.cals := rfl
@[simp] theorem State.setTally_dieCals (s : State) (k : Nat) (e : TallySlot) : (s.setTally k e).dieCals = s.dieCals := rfl
@[simp] theorem State.setTally_mvms (s : State) (k : Nat) (e : TallySlot) : (s.setTally k e).mvms = s.mvms := rfl

@[simp] theorem State.setPort_pending (s : State) (p : Nat) (x : Port) : (s.setPort p x).pending = s.pending := rfl
@[simp] theorem State.setPort_out (s : State) (p : Nat) (x : Port) : (s.setPort p x).out = s.out := rfl
@[simp] theorem State.setPort_draws (s : State) (p : Nat) (x : Port) : (s.setPort p x).draws = s.draws := rfl
@[simp] theorem State.setPort_timer (s : State) (p : Nat) (x : Port) : (s.setPort p x).timer = s.timer := rfl
@[simp] theorem State.setPort_dict (s : State) (p : Nat) (x : Port) : (s.setPort p x).dict = s.dict := rfl
@[simp] theorem State.setPort_staged (s : State) (p : Nat) (x : Port) : (s.setPort p x).staged = s.staged := rfl
@[simp] theorem State.setPort_blobs (s : State) (p : Nat) (x : Port) : (s.setPort p x).blobs = s.blobs := rfl
@[simp] theorem State.setPort_mem (s : State) (p : Nat) (x : Port) : (s.setPort p x).mem = s.mem := rfl
@[simp] theorem State.setPort_poison (s : State) (p : Nat) (x : Port) : (s.setPort p x).poison = s.poison := rfl
@[simp] theorem State.setPort_power (s : State) (p : Nat) (x : Port) : (s.setPort p x).power = s.power := rfl
@[simp] theorem State.setPort_store (s : State) (p : Nat) (x : Port) : (s.setPort p x).store = s.store := rfl
@[simp] theorem State.setPort_log (s : State) (p : Nat) (x : Port) : (s.setPort p x).log = s.log := rfl
@[simp] theorem State.setPort_hl0 (s : State) (p : Nat) (x : Port) : (s.setPort p x).hl0 = s.hl0 := rfl
@[simp] theorem State.setPort_hl1 (s : State) (p : Nat) (x : Port) : (s.setPort p x).hl1 = s.hl1 := rfl
@[simp] theorem State.setPort_notice (s : State) (p : Nat) (x : Port) : (s.setPort p x).notice = s.notice := rfl
@[simp] theorem State.setPort_odp (s : State) (p : Nat) (x : Port) : (s.setPort p x).odp = s.odp := rfl
@[simp] theorem State.setPort_mgmt (s : State) (p : Nat) (x : Port) : (s.setPort p x).mgmt = s.mgmt := rfl
@[simp] theorem State.setPort_lh (s : State) (p : Nat) (x : Port) : (s.setPort p x).lh = s.lh := rfl
@[simp] theorem State.setPort_fw (s : State) (p : Nat) (x : Port) : (s.setPort p x).fw = s.fw := rfl
@[simp] theorem State.setPort_spdmHl0 (s : State) (p : Nat) (x : Port) : (s.setPort p x).spdmHl0 = s.spdmHl0 := rfl
@[simp] theorem State.setPort_spdmHl1 (s : State) (p : Nat) (x : Port) : (s.setPort p x).spdmHl1 = s.spdmHl1 := rfl
@[simp] theorem State.setPort_spdmOdp (s : State) (p : Nat) (x : Port) : (s.setPort p x).spdmOdp = s.spdmOdp := rfl
@[simp] theorem State.setPort_tap (s : State) (p : Nat) (x : Port) : (s.setPort p x).tap = s.tap := rfl
@[simp] theorem State.setPort_dbg (s : State) (p : Nat) (x : Port) : (s.setPort p x).dbg = s.dbg := rfl
@[simp] theorem State.setPort_plan (s : State) (p : Nat) (x : Port) : (s.setPort p x).plan = s.plan := rfl
@[simp] theorem State.setPort_tiles (s : State) (p : Nat) (x : Port) : (s.setPort p x).tiles = s.tiles := rfl
@[simp] theorem State.setPort_tlbs (s : State) (p : Nat) (x : Port) : (s.setPort p x).tlbs = s.tlbs := rfl
@[simp] theorem State.setPort_berths (s : State) (p : Nat) (x : Port) : (s.setPort p x).berths = s.berths := rfl
@[simp] theorem State.setPort_bollards (s : State) (p : Nat) (x : Port) : (s.setPort p x).bollards = s.bollards := rfl
@[simp] theorem State.setPort_chains (s : State) (p : Nat) (x : Port) : (s.setPort p x).chains = s.chains := rfl
@[simp] theorem State.setPort_inval (s : State) (p : Nat) (x : Port) : (s.setPort p x).inval = s.inval := rfl
@[simp] theorem State.setPort_nextTask (s : State) (p : Nat) (x : Port) : (s.setPort p x).nextTask = s.nextTask := rfl
@[simp] theorem State.setPort_ctxs (s : State) (p : Nat) (x : Port) : (s.setPort p x).ctxs = s.ctxs := rfl
@[simp] theorem State.setPort_secure (s : State) (p : Nat) (x : Port) : (s.setPort p x).secure = s.secure := rfl
@[simp] theorem State.setPort_tallies (s : State) (p : Nat) (x : Port) : (s.setPort p x).tallies = s.tallies := rfl
@[simp] theorem State.setPort_retiredDocks (s : State) (p : Nat) (x : Port) : (s.setPort p x).retiredDocks = s.retiredDocks := rfl
@[simp] theorem State.setPort_failedPorts (s : State) (p : Nat) (x : Port) : (s.setPort p x).failedPorts = s.failedPorts := rfl
@[simp] theorem State.setPort_outvoted (s : State) (p : Nat) (x : Port) : (s.setPort p x).outvoted = s.outvoted := rfl
@[simp] theorem State.setPort_layers (s : State) (p : Nat) (x : Port) : (s.setPort p x).layers = s.layers := rfl
@[simp] theorem State.setPort_stored (s : State) (p : Nat) (x : Port) : (s.setPort p x).stored = s.stored := rfl
@[simp] theorem State.setPort_weigh (s : State) (p : Nat) (x : Port) : (s.setPort p x).weigh = s.weigh := rfl
@[simp] theorem State.setPort_holds (s : State) (p : Nat) (x : Port) : (s.setPort p x).holds = s.holds := rfl
@[simp] theorem State.setPort_docks (s : State) (p : Nat) (x : Port) : (s.setPort p x).docks = s.docks := rfl
@[simp] theorem State.setPort_cals (s : State) (p : Nat) (x : Port) : (s.setPort p x).cals = s.cals := rfl
@[simp] theorem State.setPort_dieCals (s : State) (p : Nat) (x : Port) : (s.setPort p x).dieCals = s.dieCals := rfl
@[simp] theorem State.setPort_mvms (s : State) (p : Nat) (x : Port) : (s.setPort p x).mvms = s.mvms := rfl

@[simp] theorem State.setInst_pending (s : State) (k : Nat) (x : Inst) : (s.setInst k x).pending = s.pending := rfl
@[simp] theorem State.setInst_out (s : State) (k : Nat) (x : Inst) : (s.setInst k x).out = s.out := rfl
@[simp] theorem State.setInst_draws (s : State) (k : Nat) (x : Inst) : (s.setInst k x).draws = s.draws := rfl
@[simp] theorem State.setInst_timer (s : State) (k : Nat) (x : Inst) : (s.setInst k x).timer = s.timer := rfl
@[simp] theorem State.setInst_dict (s : State) (k : Nat) (x : Inst) : (s.setInst k x).dict = s.dict := rfl
@[simp] theorem State.setInst_staged (s : State) (k : Nat) (x : Inst) : (s.setInst k x).staged = s.staged := rfl
@[simp] theorem State.setInst_blobs (s : State) (k : Nat) (x : Inst) : (s.setInst k x).blobs = s.blobs := rfl
@[simp] theorem State.setInst_mem (s : State) (k : Nat) (x : Inst) : (s.setInst k x).mem = s.mem := rfl
@[simp] theorem State.setInst_poison (s : State) (k : Nat) (x : Inst) : (s.setInst k x).poison = s.poison := rfl
@[simp] theorem State.setInst_power (s : State) (k : Nat) (x : Inst) : (s.setInst k x).power = s.power := rfl
@[simp] theorem State.setInst_store (s : State) (k : Nat) (x : Inst) : (s.setInst k x).store = s.store := rfl
@[simp] theorem State.setInst_log (s : State) (k : Nat) (x : Inst) : (s.setInst k x).log = s.log := rfl
@[simp] theorem State.setInst_hl0 (s : State) (k : Nat) (x : Inst) : (s.setInst k x).hl0 = s.hl0 := rfl
@[simp] theorem State.setInst_hl1 (s : State) (k : Nat) (x : Inst) : (s.setInst k x).hl1 = s.hl1 := rfl
@[simp] theorem State.setInst_notice (s : State) (k : Nat) (x : Inst) : (s.setInst k x).notice = s.notice := rfl
@[simp] theorem State.setInst_odp (s : State) (k : Nat) (x : Inst) : (s.setInst k x).odp = s.odp := rfl
@[simp] theorem State.setInst_mgmt (s : State) (k : Nat) (x : Inst) : (s.setInst k x).mgmt = s.mgmt := rfl
@[simp] theorem State.setInst_lh (s : State) (k : Nat) (x : Inst) : (s.setInst k x).lh = s.lh := rfl
@[simp] theorem State.setInst_fw (s : State) (k : Nat) (x : Inst) : (s.setInst k x).fw = s.fw := rfl
@[simp] theorem State.setInst_spdmHl0 (s : State) (k : Nat) (x : Inst) : (s.setInst k x).spdmHl0 = s.spdmHl0 := rfl
@[simp] theorem State.setInst_spdmHl1 (s : State) (k : Nat) (x : Inst) : (s.setInst k x).spdmHl1 = s.spdmHl1 := rfl
@[simp] theorem State.setInst_spdmOdp (s : State) (k : Nat) (x : Inst) : (s.setInst k x).spdmOdp = s.spdmOdp := rfl
@[simp] theorem State.setInst_tap (s : State) (k : Nat) (x : Inst) : (s.setInst k x).tap = s.tap := rfl
@[simp] theorem State.setInst_dbg (s : State) (k : Nat) (x : Inst) : (s.setInst k x).dbg = s.dbg := rfl
@[simp] theorem State.setInst_plan (s : State) (k : Nat) (x : Inst) : (s.setInst k x).plan = s.plan := rfl
@[simp] theorem State.setInst_tiles (s : State) (k : Nat) (x : Inst) : (s.setInst k x).tiles = s.tiles := rfl
@[simp] theorem State.setInst_tlbs (s : State) (k : Nat) (x : Inst) : (s.setInst k x).tlbs = s.tlbs := rfl
@[simp] theorem State.setInst_berths (s : State) (k : Nat) (x : Inst) : (s.setInst k x).berths = s.berths := rfl
@[simp] theorem State.setInst_bollards (s : State) (k : Nat) (x : Inst) : (s.setInst k x).bollards = s.bollards := rfl
@[simp] theorem State.setInst_chains (s : State) (k : Nat) (x : Inst) : (s.setInst k x).chains = s.chains := rfl
@[simp] theorem State.setInst_inval (s : State) (k : Nat) (x : Inst) : (s.setInst k x).inval = s.inval := rfl
@[simp] theorem State.setInst_nextTask (s : State) (k : Nat) (x : Inst) : (s.setInst k x).nextTask = s.nextTask := rfl
@[simp] theorem State.setInst_ctxs (s : State) (k : Nat) (x : Inst) : (s.setInst k x).ctxs = s.ctxs := rfl
@[simp] theorem State.setInst_secure (s : State) (k : Nat) (x : Inst) : (s.setInst k x).secure = s.secure := rfl
@[simp] theorem State.setInst_tallies (s : State) (k : Nat) (x : Inst) : (s.setInst k x).tallies = s.tallies := rfl
@[simp] theorem State.setInst_retiredDocks (s : State) (k : Nat) (x : Inst) : (s.setInst k x).retiredDocks = s.retiredDocks := rfl
@[simp] theorem State.setInst_failedPorts (s : State) (k : Nat) (x : Inst) : (s.setInst k x).failedPorts = s.failedPorts := rfl
@[simp] theorem State.setInst_outvoted (s : State) (k : Nat) (x : Inst) : (s.setInst k x).outvoted = s.outvoted := rfl
@[simp] theorem State.setInst_fabric (s : State) (k : Nat) (x : Inst) : (s.setInst k x).fabric = s.fabric := rfl
@[simp] theorem State.setInst_layers (s : State) (k : Nat) (x : Inst) : (s.setInst k x).layers = s.layers := rfl
@[simp] theorem State.setInst_stored (s : State) (k : Nat) (x : Inst) : (s.setInst k x).stored = s.stored := rfl
@[simp] theorem State.setInst_holds (s : State) (k : Nat) (x : Inst) : (s.setInst k x).holds = s.holds := rfl
@[simp] theorem State.setInst_docks (s : State) (k : Nat) (x : Inst) : (s.setInst k x).docks = s.docks := rfl
@[simp] theorem State.setInst_cals (s : State) (k : Nat) (x : Inst) : (s.setInst k x).cals = s.cals := rfl
@[simp] theorem State.setInst_dieCals (s : State) (k : Nat) (x : Inst) : (s.setInst k x).dieCals = s.dieCals := rfl
@[simp] theorem State.setInst_mvms (s : State) (k : Nat) (x : Inst) : (s.setInst k x).mvms = s.mvms := rfl

@[simp] theorem State.setHl_pending (s : State) (p : Nat) (h : HostSt) : (s.setHl p h).pending = s.pending := by
  unfold State.setHl; split <;> rfl
@[simp] theorem State.setHl_out (s : State) (p : Nat) (h : HostSt) : (s.setHl p h).out = s.out := by
  unfold State.setHl; split <;> rfl
@[simp] theorem State.setHl_draws (s : State) (p : Nat) (h : HostSt) : (s.setHl p h).draws = s.draws := by
  unfold State.setHl; split <;> rfl
@[simp] theorem State.setHl_timer (s : State) (p : Nat) (h : HostSt) : (s.setHl p h).timer = s.timer := by
  unfold State.setHl; split <;> rfl
@[simp] theorem State.setHl_dict (s : State) (p : Nat) (h : HostSt) : (s.setHl p h).dict = s.dict := by
  unfold State.setHl; split <;> rfl
@[simp] theorem State.setHl_staged (s : State) (p : Nat) (h : HostSt) : (s.setHl p h).staged = s.staged := by
  unfold State.setHl; split <;> rfl
@[simp] theorem State.setHl_blobs (s : State) (p : Nat) (h : HostSt) : (s.setHl p h).blobs = s.blobs := by
  unfold State.setHl; split <;> rfl
@[simp] theorem State.setHl_mem (s : State) (p : Nat) (h : HostSt) : (s.setHl p h).mem = s.mem := by
  unfold State.setHl; split <;> rfl
@[simp] theorem State.setHl_poison (s : State) (p : Nat) (h : HostSt) : (s.setHl p h).poison = s.poison := by
  unfold State.setHl; split <;> rfl
@[simp] theorem State.setHl_power (s : State) (p : Nat) (h : HostSt) : (s.setHl p h).power = s.power := by
  unfold State.setHl; split <;> rfl
@[simp] theorem State.setHl_store (s : State) (p : Nat) (h : HostSt) : (s.setHl p h).store = s.store := by
  unfold State.setHl; split <;> rfl
@[simp] theorem State.setHl_log (s : State) (p : Nat) (h : HostSt) : (s.setHl p h).log = s.log := by
  unfold State.setHl; split <;> rfl
@[simp] theorem State.setHl_notice (s : State) (p : Nat) (h : HostSt) : (s.setHl p h).notice = s.notice := by
  unfold State.setHl; split <;> rfl
@[simp] theorem State.setHl_odp (s : State) (p : Nat) (h : HostSt) : (s.setHl p h).odp = s.odp := by
  unfold State.setHl; split <;> rfl
@[simp] theorem State.setHl_mgmt (s : State) (p : Nat) (h : HostSt) : (s.setHl p h).mgmt = s.mgmt := by
  unfold State.setHl; split <;> rfl
@[simp] theorem State.setHl_lh (s : State) (p : Nat) (h : HostSt) : (s.setHl p h).lh = s.lh := by
  unfold State.setHl; split <;> rfl
@[simp] theorem State.setHl_fw (s : State) (p : Nat) (h : HostSt) : (s.setHl p h).fw = s.fw := by
  unfold State.setHl; split <;> rfl
@[simp] theorem State.setHl_spdmHl0 (s : State) (p : Nat) (h : HostSt) : (s.setHl p h).spdmHl0 = s.spdmHl0 := by
  unfold State.setHl; split <;> rfl
@[simp] theorem State.setHl_spdmHl1 (s : State) (p : Nat) (h : HostSt) : (s.setHl p h).spdmHl1 = s.spdmHl1 := by
  unfold State.setHl; split <;> rfl
@[simp] theorem State.setHl_spdmOdp (s : State) (p : Nat) (h : HostSt) : (s.setHl p h).spdmOdp = s.spdmOdp := by
  unfold State.setHl; split <;> rfl
@[simp] theorem State.setHl_tap (s : State) (p : Nat) (h : HostSt) : (s.setHl p h).tap = s.tap := by
  unfold State.setHl; split <;> rfl
@[simp] theorem State.setHl_dbg (s : State) (p : Nat) (h : HostSt) : (s.setHl p h).dbg = s.dbg := by
  unfold State.setHl; split <;> rfl
@[simp] theorem State.setHl_plan (s : State) (p : Nat) (h : HostSt) : (s.setHl p h).plan = s.plan := by
  unfold State.setHl; split <;> rfl
@[simp] theorem State.setHl_tiles (s : State) (p : Nat) (h : HostSt) : (s.setHl p h).tiles = s.tiles := by
  unfold State.setHl; split <;> rfl
@[simp] theorem State.setHl_tlbs (s : State) (p : Nat) (h : HostSt) : (s.setHl p h).tlbs = s.tlbs := by
  unfold State.setHl; split <;> rfl
@[simp] theorem State.setHl_berths (s : State) (p : Nat) (h : HostSt) : (s.setHl p h).berths = s.berths := by
  unfold State.setHl; split <;> rfl
@[simp] theorem State.setHl_bollards (s : State) (p : Nat) (h : HostSt) : (s.setHl p h).bollards = s.bollards := by
  unfold State.setHl; split <;> rfl
@[simp] theorem State.setHl_chains (s : State) (p : Nat) (h : HostSt) : (s.setHl p h).chains = s.chains := by
  unfold State.setHl; split <;> rfl
@[simp] theorem State.setHl_inval (s : State) (p : Nat) (h : HostSt) : (s.setHl p h).inval = s.inval := by
  unfold State.setHl; split <;> rfl
@[simp] theorem State.setHl_nextTask (s : State) (p : Nat) (h : HostSt) : (s.setHl p h).nextTask = s.nextTask := by
  unfold State.setHl; split <;> rfl
@[simp] theorem State.setHl_ctxs (s : State) (p : Nat) (h : HostSt) : (s.setHl p h).ctxs = s.ctxs := by
  unfold State.setHl; split <;> rfl
@[simp] theorem State.setHl_secure (s : State) (p : Nat) (h : HostSt) : (s.setHl p h).secure = s.secure := by
  unfold State.setHl; split <;> rfl
@[simp] theorem State.setHl_tallies (s : State) (p : Nat) (h : HostSt) : (s.setHl p h).tallies = s.tallies := by
  unfold State.setHl; split <;> rfl
@[simp] theorem State.setHl_retiredDocks (s : State) (p : Nat) (h : HostSt) : (s.setHl p h).retiredDocks = s.retiredDocks := by
  unfold State.setHl; split <;> rfl
@[simp] theorem State.setHl_failedPorts (s : State) (p : Nat) (h : HostSt) : (s.setHl p h).failedPorts = s.failedPorts := by
  unfold State.setHl; split <;> rfl
@[simp] theorem State.setHl_outvoted (s : State) (p : Nat) (h : HostSt) : (s.setHl p h).outvoted = s.outvoted := by
  unfold State.setHl; split <;> rfl
@[simp] theorem State.setHl_fabric (s : State) (p : Nat) (h : HostSt) : (s.setHl p h).fabric = s.fabric := by
  unfold State.setHl; split <;> rfl
@[simp] theorem State.setHl_layers (s : State) (p : Nat) (h : HostSt) : (s.setHl p h).layers = s.layers := by
  unfold State.setHl; split <;> rfl
@[simp] theorem State.setHl_stored (s : State) (p : Nat) (h : HostSt) : (s.setHl p h).stored = s.stored := by
  unfold State.setHl; split <;> rfl
@[simp] theorem State.setHl_weigh (s : State) (p : Nat) (h : HostSt) : (s.setHl p h).weigh = s.weigh := by
  unfold State.setHl; split <;> rfl
@[simp] theorem State.setHl_holds (s : State) (p : Nat) (h : HostSt) : (s.setHl p h).holds = s.holds := by
  unfold State.setHl; split <;> rfl
@[simp] theorem State.setHl_docks (s : State) (p : Nat) (h : HostSt) : (s.setHl p h).docks = s.docks := by
  unfold State.setHl; split <;> rfl
@[simp] theorem State.setHl_cals (s : State) (p : Nat) (h : HostSt) : (s.setHl p h).cals = s.cals := by
  unfold State.setHl; split <;> rfl
@[simp] theorem State.setHl_dieCals (s : State) (p : Nat) (h : HostSt) : (s.setHl p h).dieCals = s.dieCals := by
  unfold State.setHl; split <;> rfl
@[simp] theorem State.setHl_mvms (s : State) (p : Nat) (h : HostSt) : (s.setHl p h).mvms = s.mvms := by
  unfold State.setHl; split <;> rfl

@[simp] theorem State.msix_pending (s : State) (p v : Nat) : (s.msix p v).pending = s.pending := by
  unfold State.msix; dsimp only; repeat' split
  all_goals simp
@[simp] theorem State.msix_draws (s : State) (p v : Nat) : (s.msix p v).draws = s.draws := by
  unfold State.msix; dsimp only; repeat' split
  all_goals simp
@[simp] theorem State.msix_timer (s : State) (p v : Nat) : (s.msix p v).timer = s.timer := by
  unfold State.msix; dsimp only; repeat' split
  all_goals simp
@[simp] theorem State.msix_dict (s : State) (p v : Nat) : (s.msix p v).dict = s.dict := by
  unfold State.msix; dsimp only; repeat' split
  all_goals simp
@[simp] theorem State.msix_staged (s : State) (p v : Nat) : (s.msix p v).staged = s.staged := by
  unfold State.msix; dsimp only; repeat' split
  all_goals simp
@[simp] theorem State.msix_blobs (s : State) (p v : Nat) : (s.msix p v).blobs = s.blobs := by
  unfold State.msix; dsimp only; repeat' split
  all_goals simp
@[simp] theorem State.msix_mem (s : State) (p v : Nat) : (s.msix p v).mem = s.mem := by
  unfold State.msix; dsimp only; repeat' split
  all_goals simp
@[simp] theorem State.msix_poison (s : State) (p v : Nat) : (s.msix p v).poison = s.poison := by
  unfold State.msix; dsimp only; repeat' split
  all_goals simp
@[simp] theorem State.msix_power (s : State) (p v : Nat) : (s.msix p v).power = s.power := by
  unfold State.msix; dsimp only; repeat' split
  all_goals simp
@[simp] theorem State.msix_store (s : State) (p v : Nat) : (s.msix p v).store = s.store := by
  unfold State.msix; dsimp only; repeat' split
  all_goals simp
@[simp] theorem State.msix_log (s : State) (p v : Nat) : (s.msix p v).log = s.log := by
  unfold State.msix; dsimp only; repeat' split
  all_goals simp
@[simp] theorem State.msix_notice (s : State) (p v : Nat) : (s.msix p v).notice = s.notice := by
  unfold State.msix; dsimp only; repeat' split
  all_goals simp
@[simp] theorem State.msix_odp (s : State) (p v : Nat) : (s.msix p v).odp = s.odp := by
  unfold State.msix; dsimp only; repeat' split
  all_goals simp
@[simp] theorem State.msix_mgmt (s : State) (p v : Nat) : (s.msix p v).mgmt = s.mgmt := by
  unfold State.msix; dsimp only; repeat' split
  all_goals simp
@[simp] theorem State.msix_lh (s : State) (p v : Nat) : (s.msix p v).lh = s.lh := by
  unfold State.msix; dsimp only; repeat' split
  all_goals simp
@[simp] theorem State.msix_fw (s : State) (p v : Nat) : (s.msix p v).fw = s.fw := by
  unfold State.msix; dsimp only; repeat' split
  all_goals simp
@[simp] theorem State.msix_spdmHl0 (s : State) (p v : Nat) : (s.msix p v).spdmHl0 = s.spdmHl0 := by
  unfold State.msix; dsimp only; repeat' split
  all_goals simp
@[simp] theorem State.msix_spdmHl1 (s : State) (p v : Nat) : (s.msix p v).spdmHl1 = s.spdmHl1 := by
  unfold State.msix; dsimp only; repeat' split
  all_goals simp
@[simp] theorem State.msix_spdmOdp (s : State) (p v : Nat) : (s.msix p v).spdmOdp = s.spdmOdp := by
  unfold State.msix; dsimp only; repeat' split
  all_goals simp
@[simp] theorem State.msix_tap (s : State) (p v : Nat) : (s.msix p v).tap = s.tap := by
  unfold State.msix; dsimp only; repeat' split
  all_goals simp
@[simp] theorem State.msix_dbg (s : State) (p v : Nat) : (s.msix p v).dbg = s.dbg := by
  unfold State.msix; dsimp only; repeat' split
  all_goals simp
@[simp] theorem State.msix_plan (s : State) (p v : Nat) : (s.msix p v).plan = s.plan := by
  unfold State.msix; dsimp only; repeat' split
  all_goals simp
@[simp] theorem State.msix_tiles (s : State) (p v : Nat) : (s.msix p v).tiles = s.tiles := by
  unfold State.msix; dsimp only; repeat' split
  all_goals simp
@[simp] theorem State.msix_tlbs (s : State) (p v : Nat) : (s.msix p v).tlbs = s.tlbs := by
  unfold State.msix; dsimp only; repeat' split
  all_goals simp
@[simp] theorem State.msix_berths (s : State) (p v : Nat) : (s.msix p v).berths = s.berths := by
  unfold State.msix; dsimp only; repeat' split
  all_goals simp
@[simp] theorem State.msix_bollards (s : State) (p v : Nat) : (s.msix p v).bollards = s.bollards := by
  unfold State.msix; dsimp only; repeat' split
  all_goals simp
@[simp] theorem State.msix_chains (s : State) (p v : Nat) : (s.msix p v).chains = s.chains := by
  unfold State.msix; dsimp only; repeat' split
  all_goals simp
@[simp] theorem State.msix_inval (s : State) (p v : Nat) : (s.msix p v).inval = s.inval := by
  unfold State.msix; dsimp only; repeat' split
  all_goals simp
@[simp] theorem State.msix_nextTask (s : State) (p v : Nat) : (s.msix p v).nextTask = s.nextTask := by
  unfold State.msix; dsimp only; repeat' split
  all_goals simp
@[simp] theorem State.msix_ctxs (s : State) (p v : Nat) : (s.msix p v).ctxs = s.ctxs := by
  unfold State.msix; dsimp only; repeat' split
  all_goals simp
@[simp] theorem State.msix_secure (s : State) (p v : Nat) : (s.msix p v).secure = s.secure := by
  unfold State.msix; dsimp only; repeat' split
  all_goals simp
@[simp] theorem State.msix_tallies (s : State) (p v : Nat) : (s.msix p v).tallies = s.tallies := by
  unfold State.msix; dsimp only; repeat' split
  all_goals simp
@[simp] theorem State.msix_retiredDocks (s : State) (p v : Nat) : (s.msix p v).retiredDocks = s.retiredDocks := by
  unfold State.msix; dsimp only; repeat' split
  all_goals simp
@[simp] theorem State.msix_failedPorts (s : State) (p v : Nat) : (s.msix p v).failedPorts = s.failedPorts := by
  unfold State.msix; dsimp only; repeat' split
  all_goals simp
@[simp] theorem State.msix_outvoted (s : State) (p v : Nat) : (s.msix p v).outvoted = s.outvoted := by
  unfold State.msix; dsimp only; repeat' split
  all_goals simp
@[simp] theorem State.msix_fabric (s : State) (p v : Nat) : (s.msix p v).fabric = s.fabric := by
  unfold State.msix; dsimp only; repeat' split
  all_goals simp
@[simp] theorem State.msix_layers (s : State) (p v : Nat) : (s.msix p v).layers = s.layers := by
  unfold State.msix; dsimp only; repeat' split
  all_goals simp
@[simp] theorem State.msix_stored (s : State) (p v : Nat) : (s.msix p v).stored = s.stored := by
  unfold State.msix; dsimp only; repeat' split
  all_goals simp
@[simp] theorem State.msix_weigh (s : State) (p v : Nat) : (s.msix p v).weigh = s.weigh := by
  unfold State.msix; dsimp only; repeat' split
  all_goals simp
@[simp] theorem State.msix_holds (s : State) (p v : Nat) : (s.msix p v).holds = s.holds := by
  unfold State.msix; dsimp only; repeat' split
  all_goals simp
@[simp] theorem State.msix_docks (s : State) (p v : Nat) : (s.msix p v).docks = s.docks := by
  unfold State.msix; dsimp only; repeat' split
  all_goals simp
@[simp] theorem State.msix_cals (s : State) (p v : Nat) : (s.msix p v).cals = s.cals := by
  unfold State.msix; dsimp only; repeat' split
  all_goals simp
@[simp] theorem State.msix_dieCals (s : State) (p v : Nat) : (s.msix p v).dieCals = s.dieCals := by
  unfold State.msix; dsimp only; repeat' split
  all_goals simp
@[simp] theorem State.msix_mvms (s : State) (p v : Nat) : (s.msix p v).mvms = s.mvms := by
  unfold State.msix; dsimp only; repeat' split
  all_goals simp

@[simp] theorem State.logEv_pending (s : State) (e : Ev) : (s.logEv e).pending = s.pending := by
  unfold State.logEv; dsimp only; repeat' split
  all_goals simp
@[simp] theorem State.logEv_draws (s : State) (e : Ev) : (s.logEv e).draws = s.draws := by
  unfold State.logEv; dsimp only; repeat' split
  all_goals simp
@[simp] theorem State.logEv_timer (s : State) (e : Ev) : (s.logEv e).timer = s.timer := by
  unfold State.logEv; dsimp only; repeat' split
  all_goals simp
@[simp] theorem State.logEv_staged (s : State) (e : Ev) : (s.logEv e).staged = s.staged := by
  unfold State.logEv; dsimp only; repeat' split
  all_goals simp
@[simp] theorem State.logEv_blobs (s : State) (e : Ev) : (s.logEv e).blobs = s.blobs := by
  unfold State.logEv; dsimp only; repeat' split
  all_goals simp
@[simp] theorem State.logEv_mem (s : State) (e : Ev) : (s.logEv e).mem = s.mem := by
  unfold State.logEv; dsimp only; repeat' split
  all_goals simp
@[simp] theorem State.logEv_poison (s : State) (e : Ev) : (s.logEv e).poison = s.poison := by
  unfold State.logEv; dsimp only; repeat' split
  all_goals simp
@[simp] theorem State.logEv_power (s : State) (e : Ev) : (s.logEv e).power = s.power := by
  unfold State.logEv; dsimp only; repeat' split
  all_goals simp
@[simp] theorem State.logEv_store (s : State) (e : Ev) : (s.logEv e).store = s.store := by
  unfold State.logEv; dsimp only; repeat' split
  all_goals simp
@[simp] theorem State.logEv_notice (s : State) (e : Ev) : (s.logEv e).notice = s.notice := by
  unfold State.logEv; dsimp only; repeat' split
  all_goals simp
@[simp] theorem State.logEv_odp (s : State) (e : Ev) : (s.logEv e).odp = s.odp := by
  unfold State.logEv; dsimp only; repeat' split
  all_goals simp
@[simp] theorem State.logEv_mgmt (s : State) (e : Ev) : (s.logEv e).mgmt = s.mgmt := by
  unfold State.logEv; dsimp only; repeat' split
  all_goals simp
@[simp] theorem State.logEv_lh (s : State) (e : Ev) : (s.logEv e).lh = s.lh := by
  unfold State.logEv; dsimp only; repeat' split
  all_goals simp
@[simp] theorem State.logEv_fw (s : State) (e : Ev) : (s.logEv e).fw = s.fw := by
  unfold State.logEv; dsimp only; repeat' split
  all_goals simp
@[simp] theorem State.logEv_spdmHl0 (s : State) (e : Ev) : (s.logEv e).spdmHl0 = s.spdmHl0 := by
  unfold State.logEv; dsimp only; repeat' split
  all_goals simp
@[simp] theorem State.logEv_spdmHl1 (s : State) (e : Ev) : (s.logEv e).spdmHl1 = s.spdmHl1 := by
  unfold State.logEv; dsimp only; repeat' split
  all_goals simp
@[simp] theorem State.logEv_spdmOdp (s : State) (e : Ev) : (s.logEv e).spdmOdp = s.spdmOdp := by
  unfold State.logEv; dsimp only; repeat' split
  all_goals simp
@[simp] theorem State.logEv_tap (s : State) (e : Ev) : (s.logEv e).tap = s.tap := by
  unfold State.logEv; dsimp only; repeat' split
  all_goals simp
@[simp] theorem State.logEv_dbg (s : State) (e : Ev) : (s.logEv e).dbg = s.dbg := by
  unfold State.logEv; dsimp only; repeat' split
  all_goals simp
@[simp] theorem State.logEv_plan (s : State) (e : Ev) : (s.logEv e).plan = s.plan := by
  unfold State.logEv; dsimp only; repeat' split
  all_goals simp
@[simp] theorem State.logEv_tiles (s : State) (e : Ev) : (s.logEv e).tiles = s.tiles := by
  unfold State.logEv; dsimp only; repeat' split
  all_goals simp
@[simp] theorem State.logEv_tlbs (s : State) (e : Ev) : (s.logEv e).tlbs = s.tlbs := by
  unfold State.logEv; dsimp only; repeat' split
  all_goals simp
@[simp] theorem State.logEv_berths (s : State) (e : Ev) : (s.logEv e).berths = s.berths := by
  unfold State.logEv; dsimp only; repeat' split
  all_goals simp
@[simp] theorem State.logEv_bollards (s : State) (e : Ev) : (s.logEv e).bollards = s.bollards := by
  unfold State.logEv; dsimp only; repeat' split
  all_goals simp
@[simp] theorem State.logEv_chains (s : State) (e : Ev) : (s.logEv e).chains = s.chains := by
  unfold State.logEv; dsimp only; repeat' split
  all_goals simp
@[simp] theorem State.logEv_inval (s : State) (e : Ev) : (s.logEv e).inval = s.inval := by
  unfold State.logEv; dsimp only; repeat' split
  all_goals simp
@[simp] theorem State.logEv_nextTask (s : State) (e : Ev) : (s.logEv e).nextTask = s.nextTask := by
  unfold State.logEv; dsimp only; repeat' split
  all_goals simp
@[simp] theorem State.logEv_ctxs (s : State) (e : Ev) : (s.logEv e).ctxs = s.ctxs := by
  unfold State.logEv; dsimp only; repeat' split
  all_goals simp
@[simp] theorem State.logEv_secure (s : State) (e : Ev) : (s.logEv e).secure = s.secure := by
  unfold State.logEv; dsimp only; repeat' split
  all_goals simp
@[simp] theorem State.logEv_tallies (s : State) (e : Ev) : (s.logEv e).tallies = s.tallies := by
  unfold State.logEv; dsimp only; repeat' split
  all_goals simp
@[simp] theorem State.logEv_retiredDocks (s : State) (e : Ev) : (s.logEv e).retiredDocks = s.retiredDocks := by
  unfold State.logEv; dsimp only; repeat' split
  all_goals simp
@[simp] theorem State.logEv_failedPorts (s : State) (e : Ev) : (s.logEv e).failedPorts = s.failedPorts := by
  unfold State.logEv; dsimp only; repeat' split
  all_goals simp
@[simp] theorem State.logEv_outvoted (s : State) (e : Ev) : (s.logEv e).outvoted = s.outvoted := by
  unfold State.logEv; dsimp only; repeat' split
  all_goals simp
@[simp] theorem State.logEv_fabric (s : State) (e : Ev) : (s.logEv e).fabric = s.fabric := by
  unfold State.logEv; dsimp only; repeat' split
  all_goals simp
@[simp] theorem State.logEv_layers (s : State) (e : Ev) : (s.logEv e).layers = s.layers := by
  unfold State.logEv; dsimp only; repeat' split
  all_goals simp
@[simp] theorem State.logEv_stored (s : State) (e : Ev) : (s.logEv e).stored = s.stored := by
  unfold State.logEv; dsimp only; repeat' split
  all_goals simp
@[simp] theorem State.logEv_weigh (s : State) (e : Ev) : (s.logEv e).weigh = s.weigh := by
  unfold State.logEv; dsimp only; repeat' split
  all_goals simp
@[simp] theorem State.logEv_holds (s : State) (e : Ev) : (s.logEv e).holds = s.holds := by
  unfold State.logEv; dsimp only; repeat' split
  all_goals simp
@[simp] theorem State.logEv_docks (s : State) (e : Ev) : (s.logEv e).docks = s.docks := by
  unfold State.logEv; dsimp only; repeat' split
  all_goals simp
@[simp] theorem State.logEv_cals (s : State) (e : Ev) : (s.logEv e).cals = s.cals := by
  unfold State.logEv; dsimp only; repeat' split
  all_goals simp
@[simp] theorem State.logEv_dieCals (s : State) (e : Ev) : (s.logEv e).dieCals = s.dieCals := by
  unfold State.logEv; dsimp only; repeat' split
  all_goals simp
@[simp] theorem State.logEv_mvms (s : State) (e : Ev) : (s.logEv e).mvms = s.mvms := by
  unfold State.logEv; dsimp only; repeat' split
  all_goals simp

@[simp] theorem State.abandonCopy_pending (s : State) : s.abandonCopy.pending = s.pending := by
  unfold State.abandonCopy; split <;> (try split) <;> simp
@[simp] theorem State.jobFault_pending (s : State) (c code kind id : Nat) (f : FaultAt) (d : List Byte) :
    (s.jobFault c code kind id f d).pending = s.pending := by
  unfold State.jobFault State.recordFault; dsimp only; repeat' split
  all_goals simp
@[simp] theorem State.abandonCopy_draws (s : State) : s.abandonCopy.draws = s.draws := by
  unfold State.abandonCopy; split <;> (try split) <;> simp
@[simp] theorem State.jobFault_draws (s : State) (c code kind id : Nat) (f : FaultAt) (d : List Byte) :
    (s.jobFault c code kind id f d).draws = s.draws := by
  unfold State.jobFault State.recordFault; dsimp only; repeat' split
  all_goals simp
@[simp] theorem State.abandonCopy_timer (s : State) : s.abandonCopy.timer = s.timer := by
  unfold State.abandonCopy; split <;> (try split) <;> simp
@[simp] theorem State.jobFault_timer (s : State) (c code kind id : Nat) (f : FaultAt) (d : List Byte) :
    (s.jobFault c code kind id f d).timer = s.timer := by
  unfold State.jobFault State.recordFault; dsimp only; repeat' split
  all_goals simp
@[simp] theorem State.abandonCopy_staged (s : State) : s.abandonCopy.staged = s.staged := by
  unfold State.abandonCopy; split <;> (try split) <;> simp
@[simp] theorem State.jobFault_staged (s : State) (c code kind id : Nat) (f : FaultAt) (d : List Byte) :
    (s.jobFault c code kind id f d).staged = s.staged := by
  unfold State.jobFault State.recordFault; dsimp only; repeat' split
  all_goals simp
@[simp] theorem State.abandonCopy_blobs (s : State) : s.abandonCopy.blobs = s.blobs := by
  unfold State.abandonCopy; split <;> (try split) <;> simp
@[simp] theorem State.jobFault_blobs (s : State) (c code kind id : Nat) (f : FaultAt) (d : List Byte) :
    (s.jobFault c code kind id f d).blobs = s.blobs := by
  unfold State.jobFault State.recordFault; dsimp only; repeat' split
  all_goals simp
@[simp] theorem State.abandonCopy_mem (s : State) : s.abandonCopy.mem = s.mem := by
  unfold State.abandonCopy; split <;> (try split) <;> simp
@[simp] theorem State.jobFault_mem (s : State) (c code kind id : Nat) (f : FaultAt) (d : List Byte) :
    (s.jobFault c code kind id f d).mem = s.mem := by
  unfold State.jobFault State.recordFault; dsimp only; repeat' split
  all_goals simp
@[simp] theorem State.abandonCopy_poison (s : State) : s.abandonCopy.poison = s.poison := by
  unfold State.abandonCopy; split <;> (try split) <;> simp
@[simp] theorem State.jobFault_poison (s : State) (c code kind id : Nat) (f : FaultAt) (d : List Byte) :
    (s.jobFault c code kind id f d).poison = s.poison := by
  unfold State.jobFault State.recordFault; dsimp only; repeat' split
  all_goals simp
@[simp] theorem State.abandonCopy_power (s : State) : s.abandonCopy.power = s.power := by
  unfold State.abandonCopy; split <;> (try split) <;> simp
@[simp] theorem State.jobFault_power (s : State) (c code kind id : Nat) (f : FaultAt) (d : List Byte) :
    (s.jobFault c code kind id f d).power = s.power := by
  unfold State.jobFault State.recordFault; dsimp only; repeat' split
  all_goals simp
@[simp] theorem State.abandonCopy_store (s : State) : s.abandonCopy.store = s.store := by
  unfold State.abandonCopy; split <;> (try split) <;> simp
@[simp] theorem State.jobFault_store (s : State) (c code kind id : Nat) (f : FaultAt) (d : List Byte) :
    (s.jobFault c code kind id f d).store = s.store := by
  unfold State.jobFault State.recordFault; dsimp only; repeat' split
  all_goals simp
@[simp] theorem State.abandonCopy_notice (s : State) : s.abandonCopy.notice = s.notice := by
  unfold State.abandonCopy; split <;> (try split) <;> simp
@[simp] theorem State.jobFault_notice (s : State) (c code kind id : Nat) (f : FaultAt) (d : List Byte) :
    (s.jobFault c code kind id f d).notice = s.notice := by
  unfold State.jobFault State.recordFault; dsimp only; repeat' split
  all_goals simp
@[simp] theorem State.abandonCopy_odp (s : State) : s.abandonCopy.odp = s.odp := by
  unfold State.abandonCopy; split <;> (try split) <;> simp
@[simp] theorem State.jobFault_odp (s : State) (c code kind id : Nat) (f : FaultAt) (d : List Byte) :
    (s.jobFault c code kind id f d).odp = s.odp := by
  unfold State.jobFault State.recordFault; dsimp only; repeat' split
  all_goals simp
@[simp] theorem State.abandonCopy_mgmt (s : State) : s.abandonCopy.mgmt = s.mgmt := by
  unfold State.abandonCopy; split <;> (try split) <;> simp
@[simp] theorem State.jobFault_mgmt (s : State) (c code kind id : Nat) (f : FaultAt) (d : List Byte) :
    (s.jobFault c code kind id f d).mgmt = s.mgmt := by
  unfold State.jobFault State.recordFault; dsimp only; repeat' split
  all_goals simp
@[simp] theorem State.abandonCopy_lh (s : State) : s.abandonCopy.lh = s.lh := by
  unfold State.abandonCopy; split <;> (try split) <;> simp
@[simp] theorem State.jobFault_lh (s : State) (c code kind id : Nat) (f : FaultAt) (d : List Byte) :
    (s.jobFault c code kind id f d).lh = s.lh := by
  unfold State.jobFault State.recordFault; dsimp only; repeat' split
  all_goals simp
@[simp] theorem State.abandonCopy_fw (s : State) : s.abandonCopy.fw = s.fw := by
  unfold State.abandonCopy; split <;> (try split) <;> simp
@[simp] theorem State.jobFault_fw (s : State) (c code kind id : Nat) (f : FaultAt) (d : List Byte) :
    (s.jobFault c code kind id f d).fw = s.fw := by
  unfold State.jobFault State.recordFault; dsimp only; repeat' split
  all_goals simp
@[simp] theorem State.abandonCopy_spdmHl0 (s : State) : s.abandonCopy.spdmHl0 = s.spdmHl0 := by
  unfold State.abandonCopy; split <;> (try split) <;> simp
@[simp] theorem State.jobFault_spdmHl0 (s : State) (c code kind id : Nat) (f : FaultAt) (d : List Byte) :
    (s.jobFault c code kind id f d).spdmHl0 = s.spdmHl0 := by
  unfold State.jobFault State.recordFault; dsimp only; repeat' split
  all_goals simp
@[simp] theorem State.abandonCopy_spdmHl1 (s : State) : s.abandonCopy.spdmHl1 = s.spdmHl1 := by
  unfold State.abandonCopy; split <;> (try split) <;> simp
@[simp] theorem State.jobFault_spdmHl1 (s : State) (c code kind id : Nat) (f : FaultAt) (d : List Byte) :
    (s.jobFault c code kind id f d).spdmHl1 = s.spdmHl1 := by
  unfold State.jobFault State.recordFault; dsimp only; repeat' split
  all_goals simp
@[simp] theorem State.abandonCopy_spdmOdp (s : State) : s.abandonCopy.spdmOdp = s.spdmOdp := by
  unfold State.abandonCopy; split <;> (try split) <;> simp
@[simp] theorem State.jobFault_spdmOdp (s : State) (c code kind id : Nat) (f : FaultAt) (d : List Byte) :
    (s.jobFault c code kind id f d).spdmOdp = s.spdmOdp := by
  unfold State.jobFault State.recordFault; dsimp only; repeat' split
  all_goals simp
@[simp] theorem State.abandonCopy_tap (s : State) : s.abandonCopy.tap = s.tap := by
  unfold State.abandonCopy; split <;> (try split) <;> simp
@[simp] theorem State.jobFault_tap (s : State) (c code kind id : Nat) (f : FaultAt) (d : List Byte) :
    (s.jobFault c code kind id f d).tap = s.tap := by
  unfold State.jobFault State.recordFault; dsimp only; repeat' split
  all_goals simp
@[simp] theorem State.abandonCopy_dbg (s : State) : s.abandonCopy.dbg = s.dbg := by
  unfold State.abandonCopy; split <;> (try split) <;> simp
@[simp] theorem State.jobFault_dbg (s : State) (c code kind id : Nat) (f : FaultAt) (d : List Byte) :
    (s.jobFault c code kind id f d).dbg = s.dbg := by
  unfold State.jobFault State.recordFault; dsimp only; repeat' split
  all_goals simp
@[simp] theorem State.abandonCopy_plan (s : State) : s.abandonCopy.plan = s.plan := by
  unfold State.abandonCopy; split <;> (try split) <;> simp
@[simp] theorem State.jobFault_plan (s : State) (c code kind id : Nat) (f : FaultAt) (d : List Byte) :
    (s.jobFault c code kind id f d).plan = s.plan := by
  unfold State.jobFault State.recordFault; dsimp only; repeat' split
  all_goals simp
@[simp] theorem State.abandonCopy_tiles (s : State) : s.abandonCopy.tiles = s.tiles := by
  unfold State.abandonCopy; split <;> (try split) <;> simp
@[simp] theorem State.jobFault_tiles (s : State) (c code kind id : Nat) (f : FaultAt) (d : List Byte) :
    (s.jobFault c code kind id f d).tiles = s.tiles := by
  unfold State.jobFault State.recordFault; dsimp only; repeat' split
  all_goals simp
@[simp] theorem State.abandonCopy_tlbs (s : State) : s.abandonCopy.tlbs = s.tlbs := by
  unfold State.abandonCopy; split <;> (try split) <;> simp
@[simp] theorem State.jobFault_tlbs (s : State) (c code kind id : Nat) (f : FaultAt) (d : List Byte) :
    (s.jobFault c code kind id f d).tlbs = s.tlbs := by
  unfold State.jobFault State.recordFault; dsimp only; repeat' split
  all_goals simp
@[simp] theorem State.abandonCopy_berths (s : State) : s.abandonCopy.berths = s.berths := by
  unfold State.abandonCopy; split <;> (try split) <;> simp
@[simp] theorem State.jobFault_berths (s : State) (c code kind id : Nat) (f : FaultAt) (d : List Byte) :
    (s.jobFault c code kind id f d).berths = s.berths := by
  unfold State.jobFault State.recordFault; dsimp only; repeat' split
  all_goals simp
@[simp] theorem State.abandonCopy_bollards (s : State) : s.abandonCopy.bollards = s.bollards := by
  unfold State.abandonCopy; split <;> (try split) <;> simp
@[simp] theorem State.jobFault_bollards (s : State) (c code kind id : Nat) (f : FaultAt) (d : List Byte) :
    (s.jobFault c code kind id f d).bollards = s.bollards := by
  unfold State.jobFault State.recordFault; dsimp only; repeat' split
  all_goals simp
@[simp] theorem State.abandonCopy_chains (s : State) : s.abandonCopy.chains = s.chains := by
  unfold State.abandonCopy; split <;> (try split) <;> simp
@[simp] theorem State.jobFault_chains (s : State) (c code kind id : Nat) (f : FaultAt) (d : List Byte) :
    (s.jobFault c code kind id f d).chains = s.chains := by
  unfold State.jobFault State.recordFault; dsimp only; repeat' split
  all_goals simp
@[simp] theorem State.abandonCopy_inval (s : State) : s.abandonCopy.inval = s.inval := by
  unfold State.abandonCopy; split <;> (try split) <;> simp
@[simp] theorem State.jobFault_inval (s : State) (c code kind id : Nat) (f : FaultAt) (d : List Byte) :
    (s.jobFault c code kind id f d).inval = s.inval := by
  unfold State.jobFault State.recordFault; dsimp only; repeat' split
  all_goals simp
@[simp] theorem State.abandonCopy_nextTask (s : State) : s.abandonCopy.nextTask = s.nextTask := by
  unfold State.abandonCopy; split <;> (try split) <;> simp
@[simp] theorem State.jobFault_nextTask (s : State) (c code kind id : Nat) (f : FaultAt) (d : List Byte) :
    (s.jobFault c code kind id f d).nextTask = s.nextTask := by
  unfold State.jobFault State.recordFault; dsimp only; repeat' split
  all_goals simp
@[simp] theorem State.abandonCopy_ctxs (s : State) : s.abandonCopy.ctxs = s.ctxs := by
  unfold State.abandonCopy; split <;> (try split) <;> simp
@[simp] theorem State.jobFault_ctxs (s : State) (c code kind id : Nat) (f : FaultAt) (d : List Byte) :
    (s.jobFault c code kind id f d).ctxs = s.ctxs := by
  unfold State.jobFault State.recordFault; dsimp only; repeat' split
  all_goals simp
@[simp] theorem State.abandonCopy_tallies (s : State) : s.abandonCopy.tallies = s.tallies := by
  unfold State.abandonCopy; split <;> (try split) <;> simp
@[simp] theorem State.jobFault_tallies (s : State) (c code kind id : Nat) (f : FaultAt) (d : List Byte) :
    (s.jobFault c code kind id f d).tallies = s.tallies := by
  unfold State.jobFault State.recordFault; dsimp only; repeat' split
  all_goals simp
@[simp] theorem State.abandonCopy_retiredDocks (s : State) : s.abandonCopy.retiredDocks = s.retiredDocks := by
  unfold State.abandonCopy; split <;> (try split) <;> simp
@[simp] theorem State.jobFault_retiredDocks (s : State) (c code kind id : Nat) (f : FaultAt) (d : List Byte) :
    (s.jobFault c code kind id f d).retiredDocks = s.retiredDocks := by
  unfold State.jobFault State.recordFault; dsimp only; repeat' split
  all_goals simp
@[simp] theorem State.abandonCopy_failedPorts (s : State) : s.abandonCopy.failedPorts = s.failedPorts := by
  unfold State.abandonCopy; split <;> (try split) <;> simp
@[simp] theorem State.jobFault_failedPorts (s : State) (c code kind id : Nat) (f : FaultAt) (d : List Byte) :
    (s.jobFault c code kind id f d).failedPorts = s.failedPorts := by
  unfold State.jobFault State.recordFault; dsimp only; repeat' split
  all_goals simp
@[simp] theorem State.abandonCopy_outvoted (s : State) : s.abandonCopy.outvoted = s.outvoted := by
  unfold State.abandonCopy; split <;> (try split) <;> simp
@[simp] theorem State.jobFault_outvoted (s : State) (c code kind id : Nat) (f : FaultAt) (d : List Byte) :
    (s.jobFault c code kind id f d).outvoted = s.outvoted := by
  unfold State.jobFault State.recordFault; dsimp only; repeat' split
  all_goals simp
@[simp] theorem State.abandonCopy_layers (s : State) : s.abandonCopy.layers = s.layers := by
  unfold State.abandonCopy; split <;> (try split) <;> simp
@[simp] theorem State.jobFault_layers (s : State) (c code kind id : Nat) (f : FaultAt) (d : List Byte) :
    (s.jobFault c code kind id f d).layers = s.layers := by
  unfold State.jobFault State.recordFault; dsimp only; repeat' split
  all_goals simp
@[simp] theorem State.abandonCopy_stored (s : State) : s.abandonCopy.stored = s.stored := by
  unfold State.abandonCopy; split <;> (try split) <;> simp
@[simp] theorem State.jobFault_stored (s : State) (c code kind id : Nat) (f : FaultAt) (d : List Byte) :
    (s.jobFault c code kind id f d).stored = s.stored := by
  unfold State.jobFault State.recordFault; dsimp only; repeat' split
  all_goals simp
@[simp] theorem State.abandonCopy_weigh (s : State) : s.abandonCopy.weigh = s.weigh := by
  unfold State.abandonCopy; split <;> (try split) <;> simp
@[simp] theorem State.jobFault_weigh (s : State) (c code kind id : Nat) (f : FaultAt) (d : List Byte) :
    (s.jobFault c code kind id f d).weigh = s.weigh := by
  unfold State.jobFault State.recordFault; dsimp only; repeat' split
  all_goals simp
@[simp] theorem State.abandonCopy_holds (s : State) : s.abandonCopy.holds = s.holds := by
  unfold State.abandonCopy; split <;> (try split) <;> simp
@[simp] theorem State.jobFault_holds (s : State) (c code kind id : Nat) (f : FaultAt) (d : List Byte) :
    (s.jobFault c code kind id f d).holds = s.holds := by
  unfold State.jobFault State.recordFault; dsimp only; repeat' split
  all_goals simp
@[simp] theorem State.abandonCopy_docks (s : State) : s.abandonCopy.docks = s.docks := by
  unfold State.abandonCopy; split <;> (try split) <;> simp
@[simp] theorem State.jobFault_docks (s : State) (c code kind id : Nat) (f : FaultAt) (d : List Byte) :
    (s.jobFault c code kind id f d).docks = s.docks := by
  unfold State.jobFault State.recordFault; dsimp only; repeat' split
  all_goals simp
@[simp] theorem State.abandonCopy_cals (s : State) : s.abandonCopy.cals = s.cals := by
  unfold State.abandonCopy; split <;> (try split) <;> simp
@[simp] theorem State.jobFault_cals (s : State) (c code kind id : Nat) (f : FaultAt) (d : List Byte) :
    (s.jobFault c code kind id f d).cals = s.cals := by
  unfold State.jobFault State.recordFault; dsimp only; repeat' split
  all_goals simp
@[simp] theorem State.abandonCopy_dieCals (s : State) : s.abandonCopy.dieCals = s.dieCals := by
  unfold State.abandonCopy; split <;> (try split) <;> simp
@[simp] theorem State.jobFault_dieCals (s : State) (c code kind id : Nat) (f : FaultAt) (d : List Byte) :
    (s.jobFault c code kind id f d).dieCals = s.dieCals := by
  unfold State.jobFault State.recordFault; dsimp only; repeat' split
  all_goals simp
@[simp] theorem State.abandonCopy_mvms (s : State) : s.abandonCopy.mvms = s.mvms := by
  unfold State.abandonCopy; split <;> (try split) <;> simp
@[simp] theorem State.jobFault_mvms (s : State) (c code kind id : Nat) (f : FaultAt) (d : List Byte) :
    (s.jobFault c code kind id f d).mvms = s.mvms := by
  unfold State.jobFault State.recordFault; dsimp only; repeat' split
  all_goals simp

/-! ## Tables -/

theorem mget?_mset {α : Type} (m : AMap α) (k : Nat) (v : α) : mget? (mset m k v) k = some v := by
  induction m with
  | nil => simp [mset, mget?]
  | cons e r ih =>
    obtain ⟨j, w⟩ := e
    simp only [mset]
    split
    · simp [mget?]
    · split
      · simp [mget?]
      · simp [mget?, *]

theorem mget?_mset_ne {α : Type} (m : AMap α) {k i : Nat} (v : α) (h : i ≠ k) : mget? (mset m k v) i = mget? m i := by
  induction m with
  | nil => simp [mset, mget?, Ne.symm h]
  | cons e r ih =>
    obtain ⟨j, w⟩ := e
    simp only [mset]
    split
    · simp [mget?, Ne.symm h]
    · split
      · next hj => subst hj; simp [mget?, Ne.symm h]
      · simp [mget?, ih]

theorem mget?_merase {α : Type} (m : AMap α) (k : Nat) : mget? (merase m k) k = none := by
  induction m with
  | nil => rfl
  | cons e r ih =>
    obtain ⟨j, w⟩ := e
    simp only [merase]
    split
    · exact ih
    · simp [mget?, *]

theorem mget?_merase_ne {α : Type} (m : AMap α) {k i : Nat} (h : i ≠ k) : mget? (merase m k) i = mget? m i := by
  induction m with
  | nil => rfl
  | cons e r ih =>
    obtain ⟨j, w⟩ := e
    simp only [merase]
    split
    · next hj => subst hj; simp [mget?, Ne.symm h, ih]
    · simp [mget?, ih]

/-! ## Objects (R39) -/

theorem key_eq {i a j b : Nat} (ha : a < 256) (hb : b < 256) : key i a = key j b ↔ i = j ∧ a = b := by
  unfold key; omega

theorem State.getK_putK (s : State) (k v : Nat) : (s.putK k v).getK k = v := by simp [State.getK, State.putK, mget?_mset]
theorem State.getK_putK_ne (s : State) {k i : Nat} (v : Nat) (h : i ≠ k) : (s.putK k v).getK i = s.getK i := by
  simp [State.getK, State.putK, mget?_mset_ne _ _ h]
@[simp] theorem State.get_put (s : State) (idx sub v : Nat) : (s.put idx sub v).get idx sub = v := s.getK_putK _ v
theorem State.get_put_ne (s : State) {i a j b : Nat} (v : Nat) (h : key i a ≠ key j b) : (s.put j b v).get i a = s.get i a :=
  s.getK_putK_ne v h
theorem State.get_count (s : State) (idx sub w n : Nat) : (s.count idx sub w n).get idx sub = satAdd w (s.get idx sub) n :=
  s.get_put _ _ _
theorem State.get_count_ne (s : State) {i a j b : Nat} (w n : Nat) (h : key i a ≠ key j b) :
    (s.count j b w n).get i a = s.get i a := s.get_put_ne _ h

theorem State.get_of_dict {s t : State} (h : s.dict = t.dict) (i a : Nat) : s.get i a = t.get i a := by
  simp [State.get, State.getK, h]

@[simp] theorem State.msix_get (s : State) (p v i a : Nat) : (s.msix p v).get i a = s.get i a := State.get_of_dict (by simp) _ _
@[simp] theorem State.setHl_get (s : State) (p : Nat) (h : HostSt) (i a : Nat) : (s.setHl p h).get i a = s.get i a :=
  State.get_of_dict (by simp) _ _
@[simp] theorem State.emit_get (s : State) (o : Output) (i a : Nat) : (s.emit o).get i a = s.get i a := rfl
@[simp] theorem State.writeAt_get (s : State) (x : Nat) (bs : List Byte) (i a : Nat) : (s.writeAt x bs).get i a = s.get i a := rfl

/-- An event changes only the event objects of the dictionary (R75). -/
theorem State.get_logEv (s : State) (e : Ev) {i a : Nat} (h1 : i ≠ 0xA001) (h2 : i ≠ 0xA010) (ha : a < 256) :
    (s.logEv e).get i a = s.get i a := by
  have k1 : ∀ b, b < 256 → key i a ≠ key 0xA001 b := fun b hb h => h1 ((key_eq ha hb).mp h).1
  have k2 : ∀ b, b < 256 → key i a ≠ key 0xA010 b := fun b hb h => h2 ((key_eq ha hb).mp h).1
  have hd : ∀ (u : State) p v p' v', ((u.msix p v).msix p' v').get i a = u.get i a :=
    fun u p v p' v' => State.get_of_dict (by simp) _ _
  unfold State.logEv
  dsimp only
  repeat' split
  all_goals try rw [hd]
  all_goals try rw [State.get_count_ne _ _ _ (k2 _ (by omega))]
  all_goals rw [State.get_put_ne _ _ (k1 4 (by omega)), State.get_count_ne _ _ _ (k1 3 (by omega))]; rfl

/-- A job fault changes only the event objects, 0x8220, 0x8201 and the context's own object (R331, R426). -/
theorem State.get_jobFault (s : State) (c code kind id : Nat) (f : FaultAt) (d : List Byte) {i a : Nat} (h1 : i ≠ 0xA001)
    (h2 : i ≠ 0xA010) (h3 : i ≠ 0x8220) (h4 : i ≠ 0x8201) (h5 : i ≠ ctxIdx c) (ha : a < 256) :
    (s.jobFault c code kind id f d).get i a = s.get i a := by
  have n : ∀ j b, b < 256 → i ≠ j → key i a ≠ key j b := fun j b hb h e => h ((key_eq ha hb).mp e).1
  have rf : ∀ u : State, (u.recordFault c code f).get i a = u.get i a := by
    intro u
    unfold State.recordFault
    dsimp only
    rw [State.get_count_ne _ _ _ (n _ 7 (by omega) h5)]
    split
    · rw [State.get_put_ne _ _ (n _ 6 (by omega) h5), State.get_put_ne _ _ (n _ 5 (by omega) h5),
        State.get_put_ne _ _ (n _ 4 (by omega) h5)]
    · rfl
  have ab : ∀ u : State, u.abandonCopy.get i a = u.get i a := by
    intro u
    unfold State.abandonCopy
    split
    · rfl
    · dsimp only
      split
      · rfl
      · rw [State.get_logEv _ _ h1 h2 ha, State.get_count_ne _ _ _ (n _ 6 (by omega) h3), State.get_put_ne _ _ (n _ 6 (by omega) h4),
          State.get_put_ne _ _ (n _ 3 (by omega) h4)]
        rfl
  unfold State.jobFault
  dsimp only
  repeat' split
  all_goals first | rw [ab] | skip
  all_goals first | rw [State.get_put_ne _ _ (n _ 2 (by omega) h5)] | skip
  all_goals rw [rf, State.get_count_ne _ _ _ (n _ 4 (by omega) h3), State.get_logEv _ _ h1 h2 ha]

@[simp] theorem State.logEv_log_nextSeq (s : State) (e : Ev) : (s.logEv e).log.nextSeq = s.log.nextSeq + 1 := by
  unfold State.logEv; dsimp only; repeat' split
  all_goals simp

/-! ## What a setter's own field reads -/

@[simp] theorem State.setTile_tile (s : State) (k : Nat) (v : Tile) : (s.setTile k v).tile k = v := by
  simp [State.tile, State.setTile, mgetD, mget?_mset]
theorem State.setTile_tile_ne (s : State) {k j : Nat} (v : Tile) (h : j ≠ k) : (s.setTile k v).tile j = s.tile j := by
  simp [State.tile, State.setTile, mgetD, mget?_mset_ne _ _ h]
@[simp] theorem State.setBerth_berth (s : State) (k : Nat) (v : Berth) : (s.setBerth k v).berth k = v := by
  simp [State.berth, State.setBerth, mgetD, mget?_mset]
theorem State.setBerth_berth_ne (s : State) {k j : Nat} (v : Berth) (h : j ≠ k) : (s.setBerth k v).berth j = s.berth j := by
  simp [State.berth, State.setBerth, mgetD, mget?_mset_ne _ _ h]
@[simp] theorem State.setBollard_bollard (s : State) (k : Nat) (v : Bollard) : (s.setBollard k v).bollard k = v := by
  simp [State.bollard, State.setBollard, mgetD, mget?_mset]
theorem State.setBollard_bollard_ne (s : State) {k j : Nat} (v : Bollard) (h : j ≠ k) : (s.setBollard k v).bollard j = s.bollard j := by
  simp [State.bollard, State.setBollard, mgetD, mget?_mset_ne _ _ h]
@[simp] theorem State.setCtx_ctx (s : State) (k : Nat) (v : CtxSt) : (s.setCtx k v).ctx k = v := by
  simp [State.ctx, State.setCtx, mgetD, mget?_mset]
theorem State.setCtx_ctx_ne (s : State) {k j : Nat} (v : CtxSt) (h : j ≠ k) : (s.setCtx k v).ctx j = s.ctx j := by
  simp [State.ctx, State.setCtx, mgetD, mget?_mset_ne _ _ h]
@[simp] theorem State.setLayer_layer (s : State) (k : Nat) (v : LayerSt) : (s.setLayer k v).layer k = v := by
  simp [State.layer, State.setLayer, mgetD, mget?_mset]
theorem State.setLayer_layer_ne (s : State) {k j : Nat} (v : LayerSt) (h : j ≠ k) : (s.setLayer k v).layer j = s.layer j := by
  simp [State.layer, State.setLayer, mgetD, mget?_mset_ne _ _ h]
@[simp] theorem State.setDock_dock (s : State) (k : Nat) (v : Dock) : (s.setDock k v).dock k = v := by
  simp [State.dock, State.setDock, mgetD, mget?_mset]
theorem State.setDock_dock_ne (s : State) {k j : Nat} (v : Dock) (h : j ≠ k) : (s.setDock k v).dock j = s.dock j := by
  simp [State.dock, State.setDock, mgetD, mget?_mset_ne _ _ h]
@[simp] theorem State.setHold_hold (s : State) (k : Nat) (v : HoldSt) : (s.setHold k v).hold k = v := by
  simp [State.hold, State.setHold, mgetD, mget?_mset]
theorem State.setHold_hold_ne (s : State) {k j : Nat} (v : HoldSt) (h : j ≠ k) : (s.setHold k v).hold j = s.hold j := by
  simp [State.hold, State.setHold, mgetD, mget?_mset_ne _ _ h]
@[simp] theorem State.setInst_inst? (s : State) (k : Nat) (v : Inst) : (s.setInst k v).inst? k = some v := by
  simp [State.inst?, State.setInst, mget?_mset]
theorem State.setInst_inst?_ne (s : State) {k j : Nat} (v : Inst) (h : j ≠ k) : (s.setInst k v).inst? j = s.inst? j := by
  simp [State.inst?, State.setInst, mget?_mset_ne _ _ h]

/-! ## Memory -/

theorem cellGet_cellSet_ne (m : List Host.Cell) {a b : Nat} (v : Byte) (h : b ≠ a) : cellGet (cellSet m a v) b = cellGet m b := by
  induction m with
  | nil => simp only [cellSet]; split <;> simp [cellGet, Ne.symm h]
  | cons e r ih =>
    obtain ⟨j, w⟩ := e
    simp only [cellSet]
    split
    · split <;> simp [cellGet, Ne.symm h]
    · split
      · next hj => subst hj; split <;> simp [cellGet, Ne.symm h]
      · simp [cellGet, ih]

theorem cellGet_cellsSet_outside (m : List Host.Cell) (bs : List Byte) {a b : Nat} (h : b < a ∨ a + bs.length ≤ b) :
    cellGet (cellsSet m a bs) b = cellGet m b := by
  induction bs generalizing m a with
  | nil => rfl
  | cons v r ih =>
    simp only [cellsSet]
    rw [ih _ (by simp at h; omega), cellGet_cellSet_ne _ _ (by simp at h; omega)]

theorem State.byteAt_writeAt_outside (s : State) (bs : List Byte) {a b : Nat} (h : b < a ∨ a + bs.length ≤ b) :
    (s.writeAt a bs).byteAt b = s.byteAt b := cellGet_cellsSet_outside _ _ h

end Sys2Proof.Machine
end

