-- ==== Sys2Proof/Laws/Power.lean ====
section
/-! SUPPORT. What the shared power operations leave in the fields that statements read. -/

namespace Sys2Proof.Machine

@[simp] theorem State.setPst_pst (s : State) (p : PState) : (s.setPst p).power.pst = p := by
  unfold State.setPst; split
  · assumption
  · simp
theorem State.setPst_power (s : State) (p : PState) : (s.setPst p).power = { s.power with pst := p } := by
  unfold State.setPst; split
  · next h => rw [← h]
  · simp
@[simp] theorem State.setPst_mem (s : State) (p : PState) : (s.setPst p).mem = s.mem := by unfold State.setPst; split <;> simp
@[simp] theorem State.setPst_tiles (s : State) (p : PState) : (s.setPst p).tiles = s.tiles := by unfold State.setPst; split <;> simp
@[simp] theorem State.setPst_plan (s : State) (p : PState) : (s.setPst p).plan = s.plan := by unfold State.setPst; split <;> simp
@[simp] theorem State.setPst_store (s : State) (p : PState) : (s.setPst p).store = s.store := by unfold State.setPst; split <;> simp
@[simp] theorem State.setPst_timer (s : State) (p : PState) : (s.setPst p).timer = s.timer := by unfold State.setPst; split <;> simp
@[simp] theorem State.setPst_docks (s : State) (p : PState) : (s.setPst p).docks = s.docks := by unfold State.setPst; split <;> simp
theorem State.setPst_get (s : State) (p : PState) {i a : Nat} (h : key i a ≠ key 0xB000 1) : (s.setPst p).get i a = s.get i a := by
  unfold State.setPst; split
  · rfl
  · dsimp only; rw [State.msix_get, State.msix_get, State.get_put_ne _ _ h]; rfl
theorem State.setPst_get_state (s : State) (p : PState) (h : s.power.pst ≠ p) : (s.setPst p).get 0xB000 1 = p.code := by
  unfold State.setPst
  rw [if_neg h]
  dsimp only; rw [State.msix_get, State.msix_get, State.get_put]

/-- A fall keeps neither the harbourmaster's state nor any plan, and reads back the state fallen to and the cause. -/
@[simp] theorem State.fallTo_pst (s : State) (p : PState) (c : Nat) : (s.fallTo p c).power.pst = p := by
  simp [State.fallTo, State.sweepTransfers]
@[simp] theorem State.fallTo_cause (s : State) (p : PState) (c : Nat) : (s.fallTo p c).get 0xB000 6 = c :=
  State.get_put _ 0xB000 6 c
@[simp] theorem State.fallTo_plan (s : State) (p : PState) (c : Nat) : (s.fallTo p c).plan = none := by
  simp [State.fallTo, State.sweepTransfers, State.dropDram, State.forget, State.dropGroups, State.dropHarbourmaster]
@[simp] theorem State.fallTo_tiles (s : State) (p : PState) (c : Nat) : (s.fallTo p c).tiles = [] := by
  simp [State.fallTo, State.sweepTransfers, State.dropDram, State.forget, State.dropGroups, State.dropHarbourmaster]
@[simp] theorem State.fallTo_orderly (s : State) (p : PState) (c : Nat) : (s.fallTo p c).store.orderly = s.store.orderly := by
  simp [State.fallTo, State.sweepTransfers, State.dropDram, State.forget, State.dropGroups, State.dropHarbourmaster, State.windowsDown]
  unfold State.linkDown
  dsimp only
  split <;> split <;> simp

/-- The newest event after logEv is the one logged (R73). -/
theorem State.logEv_newest (s : State) (e : Ev) : ∃ x, (s.logEv e).log.ring.getLast? = some x ∧ x.seq = s.log.nextSeq
    ∧ x.time = s.timer ∧ x.code = e.code ∧ x.severity = e.severity ∧ x.boot = s.log.bootCount ∧ x.detail = e.detail.take 20 := by
  unfold State.logEv
  dsimp only
  repeat' split
  all_goals simp

/-- A hard fault is counted and logged; it changes no other state than an event does. -/
@[simp] theorem State.logHard_power (s : State) (e : Ev) : (s.logHard e).power = s.power := by
  unfold State.logHard State.countHard; split <;> simp
@[simp] theorem State.logHard_mem (s : State) (e : Ev) : (s.logHard e).mem = s.mem := by
  unfold State.logHard State.countHard; split <;> simp
@[simp] theorem State.logHard_tiles (s : State) (e : Ev) : (s.logHard e).tiles = s.tiles := by
  unfold State.logHard State.countHard; split <;> simp
@[simp] theorem State.logHard_plan (s : State) (e : Ev) : (s.logHard e).plan = s.plan := by
  unfold State.logHard State.countHard; split <;> simp
@[simp] theorem State.logHard_fw (s : State) (e : Ev) : (s.logHard e).fw = s.fw := by
  unfold State.logHard State.countHard; split <;> simp
@[simp] theorem State.logHard_mgmt (s : State) (e : Ev) : (s.logHard e).mgmt = s.mgmt := by
  unfold State.logHard State.countHard; split <;> simp
@[simp] theorem State.logHard_timer (s : State) (e : Ev) : (s.logHard e).timer = s.timer := by
  unfold State.logHard State.countHard; split <;> simp
@[simp] theorem State.logHard_staged (s : State) (e : Ev) : (s.logHard e).staged = s.staged := by
  unfold State.logHard State.countHard; split <;> simp
theorem State.get_logHard (s : State) (e : Ev) {i a : Nat} (h1 : i ≠ 0xA001) (h2 : i ≠ 0xA010) (h3 : i ≠ 0x8220) (ha : a < 256) :
    (s.logHard e).get i a = s.get i a := by
  unfold State.logHard State.countHard
  rw [State.get_logEv _ _ h1 h2 ha]
  split
  · exact State.get_count_ne _ _ _ (by unfold key; omega)
  · rfl
/-- The newest event after logHard is the one logged. -/
theorem State.logHard_newest (s : State) (e : Ev) : ∃ x, (s.logHard e).log.ring.getLast? = some x ∧ x.code = e.code ∧ x.severity = e.severity := by
  obtain ⟨x, h1, -, -, h2, h3, -⟩ := s.countHard.logEv_newest { e with force := true }
  exact ⟨x, h1, h2, h3⟩

/-- A start-up that fails leaves the device in AUX with the code as the cause (R490, R498). -/
@[simp] theorem State.bootFail_pst (s : State) (c : Nat) : (s.bootFail c).power.pst = .aux := by simp [State.bootFail]
@[simp] theorem State.bootFail_cause (s : State) (c : Nat) : (s.bootFail c).get 0xB000 6 = c := by
  unfold State.bootFail
  rw [State.get_logHard _ _ (by decide) (by decide) (by decide) (by decide), State.fallTo_cause]

/-- An object that no step of a fold writes stays. -/
theorem foldl_get {α : Type} (l : List α) (f : State → α → State) (i j : Nat) (h : ∀ s a, a ∈ l → (f s a).get i j = s.get i j) (s : State) :
    (l.foldl f s).get i j = s.get i j := by
  induction l generalizing s with
  | nil => rfl
  | cons a l ih => exact (ih (fun s b hb => h s b (List.mem_cons_of_mem _ hb)) _).trans (h s a List.mem_cons_self)
/-- An object that no step of an iteration writes stays. -/
theorem iter_get (n : Nat) (f : Nat → State → State) (i j : Nat) (h : ∀ k s, k < n → (f k s).get i j = s.get i j) (s : State) :
    (iter n f s).get i j = s.get i j := by
  induction n with
  | zero => rfl
  | succ n ih => exact (h n _ (by omega)).trans (ih (fun k s hk => h k s (by omega)))
/-- A tile's pass adds no other tile to the absent ones. -/
theorem passTile_absent (mine : List Nat) (st l : Nat) (x : DiePass) : ∀ m ∈ (passTile mine st l x).absent, m ∈ x.absent ∨ m = l := by
  intro m
  unfold passTile
  generalize List.findIdx? _ _ = here
  cases here <;> dsimp only <;> split <;> first | exact Or.inl | (
    generalize List.find? _ _ = j
    cases j <;> (simp; try exact Or.inl))
theorem passTiles_absent (mine : List Nat) (st : Nat → Nat) (x : DiePass) (n : Nat) (hn : n ≤ 144) (h : ∀ l ∈ x.absent, l < 144) :
    ∀ l ∈ (iter n (fun l x => passTile mine (st l) l x) x).absent, l < 144 := by
  induction n with
  | zero => exact h
  | succ n ih =>
    intro l hl
    rcases passTile_absent _ _ _ _ l hl with h1 | rfl
    · exact ih (by omega) l h1
    · omega
/-- The books of a self-test leave COLD_ON_BOOT (R109). -/
theorem State.selfTestEnd_cold (s : State) (failed : List Nat) : (s.selfTestEnd failed).get 0x6100 5 = s.get 0x6100 5 := by
  have other (u : State) (a b v : Nat) (h : key a b ≠ key 0x6100 5) : (u.put a b v).get 0x6100 5 = u.get 0x6100 5 := by
    apply State.get_put_ne; exact Ne.symm h
  have fresh (s : State) (t : Nat) : (s.freshDocks t).get 0x6100 5 = s.get 0x6100 5 := by
    unfold State.freshDocks; refine iter_get _ _ _ _ (fun k s _ => ?_) s; exact State.get_of_dict (by rfl) _ _
  have word (s : State) (d l a b : Nat) (hd : d < 16) (hl : l < 144) : (s.placeWord d l a b).get 0x6100 5 = s.get 0x6100 5 :=
    other _ _ _ _ (by unfold key; omega)
  have logd (s : State) (e : Ev) : (s.logEv e).get 0x6100 5 = s.get 0x6100 5 := State.get_logEv _ _ (by decide) (by decide) (by decide)
  have die (s : State) (d : Nat) (x : DiePass) (hd : d < 16) (hx : ∀ l ∈ x.absent, l < 144) :
      (s.applyDie d x).get 0x6100 5 = s.get 0x6100 5 := by
    unfold State.applyDie
    rw [foldl_get _ _ _ _ (fun s l hl => (logd _ _).trans (word s d l 2 0 hd (hx l hl))),
      foldl_get _ _ _ _ (fun s m _ => (logd _ _).trans (fresh s _))]
    refine iter_get _ _ _ _ (fun l s hl => ?_) s
    split
    · rfl
    · split <;> exact word _ _ _ _ _ hd hl
  have books (u : State) (xs : List DiePass) (n : Nat) : (u.passBooks xs n).get 0x6100 5 = u.get 0x6100 5 := by
    have kept (u : State) (a b : Nat) : (u.keepRec a b).get 0x6100 5 = u.get 0x6100 5 := State.get_of_dict (by rfl) _ _
    unfold State.passBooks
    dsimp only
    rw [kept, other _ _ _ _ (by decide), other _ _ _ _ (by decide), other _ _ _ _ (by decide), other _ _ _ _ (by decide), other _ _ _ _ (by decide),
      kept, State.get_count_ne _ _ _ (by decide)]
    rfl
  unfold State.selfTestEnd
  dsimp only
  rw [books, foldl_get _ _ _ _ (fun s p hp => ?_), foldl_get _ _ _ _ (fun s p _ => fresh s _)]
  · rfl
  · have := List.mem_zipIdx hp
    refine die _ _ _ (by simp at this; omega) ?_
    obtain ⟨_, _, h3⟩ := this
    rw [h3]
    simp only [List.getElem_map]
    unfold State.diePass dropSpares
    exact passTiles_absent _ _ _ _ (by omega) (fun l hl => by cases hl)

end Sys2Proof.Machine
end

