-- ==== Sys2Proof/WellFormed.lean ====
section
/-! DEFINITION. Which commands the paths that carry them can spell: the widths of operands that are plain numbers. -/

namespace Sys2Proof

/-- What an ill-formed command breaks. -/
inductive Check where
  /-- A direct-region access lies inside BAR0 (R43). -/
  | direct
  /-- An access is 1, 2, 4 or 8 bytes (R50). -/
  | size
  /-- The written number fits the access. -/
  | width
  /-- A doorbell access lies in the 1 MiB of BAR2 (R507). -/
  | doorbell
  /-- A reading fits 16 bits (R5). -/
  | reading
  /-- A stack number. -/
  | stack
  /-- Dock ids below 18,432 (R21). -/
  | dock
  /-- A DAC register write is 64 bits (R534). -/
  | control
  /-- A segment is at most 64 KiB (R53). -/
  | segment
  /-- DAC_SIZE, DAC_OFFSET or DAC_LENGTH (R534). -/
  | register
  /-- The fields of an ODP header fit their bytes (R56). -/
  | frame
  /-- A frame of a type or version R57 does not list. -/
  | unknownFrame
  /-- The value fits the member written. -/
  | value
  /-- A member of a filter object (R463). -/
  | member
  /-- Physical tile positions, 150 on each of 16 dies (R21). -/
  | tile
  /-- A tally slot (R226). -/
  | slot
  /-- Dock counts are 12 bits (R118). -/
  | counts
  /-- Outputs of a dock in use, below 512 (R111). -/
  | output
  /-- The docks named lie on the die named (R168). -/
  | die
  /-- An address fits its bus. -/
  | address
  /-- An offset inside a tile's 16 MiB (R326). -/
  | sram
  /-- A flit sequence number (R360). -/
  | flit
  /-- A virtual channel (R361). -/
  | channel
  /-- A lane of a hawser port. -/
  | lane
  /-- A peer identity fits its fields (R371). -/
  | identity
  /-- The fields of a message header fit their bytes (R365). -/
  | message
  /-- The type byte is the row's (R366). -/
  | messageType
  /-- P or Q round (R415). -/
  | round
  /-- A converter code is 16 bits (R457). -/
  | code
  /-- A line is 64 bytes (R511). -/
  | line
  /-- A configuration offset is inside 4 KiB (R505). -/
  | config
  /-- A decoder commits whole 256 MiB granules (R507). -/
  | decoder
  /-- An SPDM nonce is 32 bytes (R527). -/
  | nonce
  /-- An IPv6 address (R55). -/
  | netAddress
  /-- A TAP opcode is 8 bits (R520). -/
  | opcode
  /-- An image's size fits DAC_SIZE (R524). -/
  | image
  deriving DecidableEq, Repr

/-- A check that does not hold is named. -/
def need (c : Check) (ok : Bool) : List Check := if ok then [] else [c]

def direct (offset : Nat) : List Check := need .direct (offset < 0x10000000)

def width (size value : Nat) : List Check :=
  need .size (size = 1 ∨ size = 2 ∨ size = 4 ∨ size = 8) ++ need .width (value < 256 ^ size)

def reading (v : Nat) : List Check := need .reading (v < 65536)

def docks (ds : List Nat) : List Check := need .dock (ds.all (· < 18432))

/-- The frame types R57 lists. -/
def OdpFrame.typeKnown (f : OdpFrame) : Bool := 
  [0x01, 0x02, 0x03, 0x04, 0x10, 0x11, 0x12, 0x13, 0x20, 0x21, 0x22, 0x23, 0x30, 0x40, 0x50, 0x51, 0x7F].contains f.typ

def OdpFrame.fits (f : OdpFrame) : Bool :=
  f.srcAddr < 2 ^ 128 && f.srcPort < 65536 && f.dstPort < 65536 && f.version < 256 && f.typ < 256 && f.tid < 65536 && f.index < 65536
    && f.sub < 256 && f.flags < 256 && f.offset < 2 ^ 32 && f.plen < 65536

def Msg.fits (m : Msg) : Bool :=
  m.typ < 256 && m.vc < 8 && m.srcDom < 2 && m.dstDom < 2 && m.srcPkg < 16384 && m.dstPkg < 16384 && m.ctx < 256
    && m.hops < 256 && m.plen ≤ 4096 && m.payload.length ≤ 4096 && m.dstAddr < 2 ^ 48 && m.srcAddr < 2 ^ 48
    && m.convoy < 65536 && m.bollard < 65536 && m.increment < 2 ^ 32 && m.transfer < 2 ^ 64 && m.step < 2 ^ 32
    && m.epoch < 2 ^ 32 && m.typeData.length = 16

/-- The checks a command breaks, in the order of its operands. -/
def Instr.broken (i : Instr) : List Check :=
  match i with
  | .inputUndervoltage => []
  | .inputOvervoltage => []
  | .powerOn => []
  | .clampCheck neMv swMv => reading neMv ++ reading swMv
  | .converterFailure _ => []
  | .regulatorFault => []
  | .pkgResetAssert => []
  | .pkgResetRelease => []
  | .powerStart _ => []
  | .powerNap _ => []
  | .napEntry => []
  | .powerWake _ => []
  | .powerSleep _ => []
  | .powerShutdown _ => []
  | .shutdownDone => []
  | .idleTimeout => []
  | .firmwareVerifyDone _ => []
  | .startupRegulatorsUp => []
  | .harbourmasterStart => []
  | .harbourmasterStartTimeout => []
  | .dramTrainingDone failedStacks badMetaDocks => need .stack (failedStacks.all (· < 64)) ++ docks badMetaDocks
  | .dramTrainingTimeout => []
  | .settleCapTimeout => []
  | .defaultObjectsLoaded => []
  | .powerLoopTick neMv swMv neDa swDa => reading neMv ++ reading swMv ++ reading neDa ++ reading swDa
  | .dvfsStepDone _ => []
  | .inputDroop => []
  | .droopRecovery => []
  | .dictWrite _ offset size value => direct offset ++ width size value
  | .windowAccessRefused _ offset size _ value => direct offset ++ width size value
  | .lastAbortRead _ => []
  | .dacSetTarget _ _ ctrl => need .control (ctrl < 2 ^ 64)
  | .dacParamWrite _ _ reg value => need .register (reg = 8 ∨ reg = 16 ∨ reg = 24) ++ need .control (value < 2 ^ 64)
  | .dacOpen _ _ ctrl => need .control (ctrl < 2 ^ 64)
  | .dacXfer _ _ ctrl buf => need .control (ctrl < 2 ^ 64) ++ need .segment (buf.length ≤ 65536)
  | .dacSegmentDone _ _ => []
  | .dacClose _ _ ctrl => need .control (ctrl < 2 ^ 64)
  | .dacAbort _ _ ctrl => need .control (ctrl < 2 ^ 64)
  | .dacTimeout _ _ => []
  | .odpReadReq f => need .frame f.fits
  | .odpWriteReq f => need .frame f.fits
  | .odpUploadInit f => need .frame f.fits
  | .odpUploadSegReq f => need .frame f.fits
  | .odpDownloadInit f => need .frame f.fits
  | .odpDownloadSeg f => need .frame f.fits
  | .odpTransferAbort f => need .frame f.fits
  | .odpDiscover f => need .frame f.fits
  | .odpUnknownFrame f => need .frame f.fits ++ need .unknownFrame (f.version ≠ 1 ∨ !f.typeKnown)
  | .odpTransferTimeout _ => []
  | .storeSave _ => []
  | .storeDefaults _ => []
  | .storeSaveDone _ => []
  | .eventLogPersist => []
  | .positionApply _ value => need .value (value < 256)
  | .planLoad _ => []
  | .planLoadComplete => []
  | .planConfigWriteFail => []
  | .planUnload _ => []
  | .planUnloadComplete => []
  | .selfTestRun _ => []
  | .selfTestComplete failed => need .tile (failed.all (· < 2400))
  | .doorbell _ offset size value => need .doorbell (offset < 1048576) ++ width size (value.getD 0)
  | .manifestFetch _ => []
  | .manifestArrive _ => []
  | .berthFlush _ berth => need .value (berth < 65536)
  | .taskTake _ => []
  | .dmaSuspend _ => []
  | .transferAck _ _ => []
  | .taskEnd _ => []
  | .taskSignal _ => []
  | .tallySampleCopyDone _ slot => need .slot (slot < 64)
  | .tally _ _ => []
  | .tallyTimeout _ slot => need .slot (slot < 64)
  | .gateEvaluate _ => []
  | .replayRewind _ => []
  | .dockMvm _ => []
  | .dockPhaseDone _ counts => need .counts (counts.all (· ≤ 4095))
  | .dockVectorDone _ => []
  | .dockRefit _ failing => need .output (failing.all (· < 512))
  | .dockRefitScan _ => []
  | .dockRefitReadback _ _ => []
  | .dockRefitDone _ => []
  | .refitPassClose _ r => need .output (r.failing.all (· < 512))
  | .dockCalNative _ => []
  | .dockCalCold _ => []
  | .dockCalQuickVerify _ => []
  | .calibrationStart _ => []
  | .calibrationDone _ _ => []
  | .dieCalibration _ => []
  | .dieCalibrationDone r => need .die (r.failing.all (fun d => d.val / 1152 == r.die.val))
  | .restoreWindowTimeout => []
  | .gemm _ => []
  | .matvec _ => []
  | .gemmBwdPair _ => []
  | .attnFwdBlock _ => []
  | .attnBwdBlock _ => []
  | .normForward _ => []
  | .normBackward _ => []
  | .act _ => []
  | .actDerivative _ => []
  | .softmaxForward _ => []
  | .softmaxBackward _ => []
  | .convert _ => []
  | .rngFill _ => []
  | .copy _ _ => []
  | .transpose _ _ => []
  | .holdPush _ => []
  | .holdPop _ => []
  | .holdSpill _ => []
  | .holdPrefetch _ => []
  | .holdMoveDone _ => []
  | .signal _ => []
  | .wait _ => []
  | .fence _ => []
  | .fenceDone _ => []
  | .barrier _ => []
  | .hangTimeout _ _ => []
  | .ferryForward _ _ => []
  | .ferryForwardDone _ _ => []
  | .ctxOpen _ n => need .value (n < 65536)
  | .ctxResume _ _ => []
  | .ctxHalt _ _ => []
  | .ctxClose _ _ => []
  | .tlbWalkDone _ _ va _ => need .address (va < 2 ^ 48)
  | .tlbInvalidateRange _ => []
  | .tlbInvalidateContext _ => []
  | .tlbInvalidateDone => []
  | .sramParityError _ offset _ => need .sram (offset < 16777216)
  | .meshFlitError _ pa _ => need .address (pa < 2 ^ 48)
  | .dramReadError pa _ => need .address (pa < 2 ^ 48)
  | .hostPoisonReceived _ pa _ => need .address (pa < 2 ^ 48)
  | .flitResendRequest _ seq => need .flit (seq < 4096)
  | .creditTimeout _ vc => need .channel (vc < 8)
  | .laneBerCheck _ lane _ => need .lane (lane < 8)
  | .linkRetrainDone _ _ => []
  | .linkTrainingDone _ dom pkg peerPort => need .identity (dom < 256 ∧ pkg < 65536 ∧ peerPort < 256)
  | .put _ => []
  | .get _ => []
  | .mcast _ => []
  | .acc _ => []
  | .dispatch _ => []
  | .combine _ => []
  | .msgPut _ m => need .message m.fits ++ need .messageType (m.typ = 1)
  | .msgGetReq _ m => need .message m.fits ++ need .messageType (m.typ = 2)
  | .msgGetResp _ m => need .message m.fits ++ need .messageType (m.typ = 3)
  | .msgAcc _ m => need .message m.fits ++ need .messageType (m.typ = 4)
  | .msgSignal _ m => need .message m.fits ++ need .messageType (m.typ = 5)
  | .msgMcastPut _ m => need .message m.fits ++ need .messageType (m.typ = 6)
  | .msgDispatch _ m => need .message m.fits ++ need .messageType (m.typ = 7)
  | .msgCombine _ m => need .message m.fits ++ need .messageType (m.typ = 8)
  | .msgAck _ m => need .message m.fits ++ need .messageType (m.typ = 9)
  | .msgNack _ m => need .message m.fits ++ need .messageType (m.typ = 10)
  | .msgReply _ m => need .message m.fits ++ need .messageType (m.typ = 11)
  | .msgDetach _ m => need .message m.fits ++ need .messageType (m.typ = 12)
  | .msgUnknown _ m => need .message m.fits
  | .messageForward _ m => need .message m.fits
  | .ackTimeout _ => []
  | .convoyStallLimit _ _ => []
  | .bucketDeadline _ round _ => need .round (round < 2)
  | .bucketCloseAcked _ round _ => need .round (round < 2)
  | .lowrankProject _ => []
  | .orthoGram _ => []
  | .orthoFactor _ => []
  | .orthoApply _ => []
  | .reconstructOwner _ => []
  | .reconstructResidual _ => []
  | .optStepSgd _ => []
  | .optStepAdamw _ => []
  | .requestTarget _ value => need .value (value < 2 ^ 64)
  | .secureCopy _ _ => []
  | .secureCommit => []
  | .swapDone => []
  | .secureTimeout => []
  | .restoreLoad _ _ => []
  | .restoreLoadDone _ => []
  | .restoreVerify _ => []
  | .restoreVerifyDone _ => []
  | .sequencerRound => []
  | .adcConversionDone _ code => need .code (-32768 ≤ code ∧ code ≤ 32767)
  | .adcDataRead _ _ => []
  | .filterWrite _ _ member value => need .member (1 ≤ member ∧ member ≤ 6) ++ need .value (value < (if member ≤ 2 then 256 else 65536))
  | .ruleWrite _ _ value => need .value (value < 2 ^ 64)
  | .oscRecalibration => []
  | .riskUpdate => []
  | .ageingSample _ _ _ => []
  | .ageingDayEnd => []
  | .hlPerstAssert _ => []
  | .hlPerstRelease _ => []
  | .cxlLinkUp _ rate width => need .value (rate < 256 ∧ width < 256)
  | .cxlLinkDown _ => []
  | .cxlConfigRequest _ req => (match req with
    | .read offset => need .config (offset < 4096)
    | .write offset value => need .config (offset < 4096) ++ need .value (value < 2 ^ 32)
    | .decoderCommit bytes => need .decoder (bytes % 268435456 = 0)
    | .msixEnable _ => []
    | .msixMask _ _ => []
    | .msixTarget _ addr data => need .value (addr < 2 ^ 64) ++ need .value (data < 2 ^ 32))
  | .hdmAccess _ pa op => need .address (pa < 2 ^ 52) ++ (match op with
    | .read _ => []
    | .write data _ => need .line (data.length = 64))
  | .biSnoopResponse _ line data => need .address (line < 2 ^ 52) ++ (match data with
    | some d => need .line (d.length = 64)
    | none => [])
  | .wakeNTimeout _ => []
  | .noticeWriteDone => []
  | .noticeConsumerWrite _ value => need .value (value < 2 ^ 32)
  | .ringEnable _ => []
  | .ringDisable _ => []
  | .doeDiscovery _ index => need .value (index < 256)
  | .doeTableAccess _ entry => need .value (entry < 65536)
  | .spdmGetVersion _ => []
  | .spdmGetCapabilities _ => []
  | .spdmNegotiateAlgorithms _ _ _ => []
  | .spdmGetDigests _ => []
  | .spdmGetCertificate _ slot offset length => need .value (slot < 16) ++ need .value (offset < 65536 ∧ length < 65536)
  | .spdmChallenge _ slot nonce => need .value (slot < 256) ++ need .nonce (nonce.length = 32)
  | .spdmGetMeasurements _ index signed nonce => need .value (index < 256) ++ need .nonce (nonce.length = 32 ∨ !signed)
  | .spdmUnsupported _ request _ => need .value (request < 256)
  | .dadComplete _ => []
  | .neighbourSolicitation srcAddr target => need .netAddress (srcAddr < 2 ^ 128 ∧ target < 2 ^ 128)
  | .echoRequest srcAddr _ => need .netAddress (srcAddr < 2 ^ 128)
  | .plcaBeaconTimeout => []
  | .testReset => []
  | .extest _ => []
  | .idcode => []
  | .samplePreload _ => []
  | .highz => []
  | .clamp => []
  | .bypass => []
  | .privateInstruction opcode => need .opcode (opcode < 256)
  | .fwImageDownload _ image => need .image (image.length ≤ 2 ^ 32 - 1)
  | .fwWriteDone _ => []
  | .fwActivate _ => []
  | .svnCommit _ => []
  | .debugKeyHashSet _ => []
  | .debugToken _ => []
  | .debugEnd _ => []
  | .debugExpiry => []
  | .powerLoss => []
  | .managementReferenceLoss => []
  | .managementReferenceReturn => []
  | .plcaBeacon => []
  | .creditReturn _ vc _ ack => need .channel (vc < 8) ++ need .flit (ack.seq < 4096)

/-- A well-formed command breaks no check. -/
def Instr.wellFormed (i : Instr) : Bool := i.broken.isEmpty

end Sys2Proof
end

