-- ==== Sys2Proof/Tests/Slice0.lean ====
section
/-! SUPPORT. Tests: an ill-formed command for each check, states that meet the hypotheses of every statement, small steps. -/

namespace Sys2Proof.Tests

set_option Elab.async false

open Sys2Proof Sys2Proof.Machine Sys2Proof.Claims

/-! ## Ill-formed commands, one for each check, each refused by name -/

def frame : OdpFrame := ⟨0, 0, true, false, .device, 33280, 1, 0x01, 0, 0x1000, 0, 0, 0, 0, []⟩
def message : Msg := ⟨1, 0, false, false, 0, 1, 0, 0, 0, 0, 0, 0, 0, 0xFFFF, 0, 0, 0, 0, 0, zeros 16, [], 0⟩

theorem test_wf_direct : (Instr.dictWrite 0 0x10000000 4 3).broken = [.direct] := by decide
theorem test_wf_size : (Instr.dictWrite 0 0 3 0).broken = [.size] := by decide
theorem test_wf_width : (Instr.dictWrite 0 0 1 256).broken = [.width] := by decide
theorem test_wf_doorbell : (Instr.doorbell 0 1048576 8 (some 0)).broken = [.doorbell] := by decide
theorem test_wf_reading : (Instr.clampCheck 65536 0).broken = [.reading] := by decide
theorem test_wf_stack : (Instr.dramTrainingDone [64] []).broken = [.stack] := by decide
theorem test_wf_dock : (Instr.dramTrainingDone [] [18432]).broken = [.dock] := by decide
theorem test_wf_control : (Instr.dacOpen 0 0 (2 ^ 64)).broken = [.control] := by decide
theorem test_wf_segment (buf : List Byte) (h : 65536 < buf.length) : (Instr.dacXfer 0 0 0 buf).broken = [.segment] := by
  simp only [Instr.broken, need, decide_eq_true_eq]
  exact if_neg (by omega)
theorem test_wf_register : (Instr.dacParamWrite 0 0 9 0).broken = [.register] := by decide
theorem test_wf_frame : (Instr.odpReadReq { frame with tid := 65536 }).broken = [.frame] := by decide
theorem test_wf_unknown_frame : (Instr.odpUnknownFrame frame).broken = [.unknownFrame] := by decide
theorem test_wf_value : (Instr.positionApply .odp 256).broken = [.value] := by decide
theorem test_wf_member : (Instr.filterWrite .odp 0 7 0).broken = [.member] := by decide
theorem test_wf_tile : (Instr.selfTestComplete [2400]).broken = [.tile] := by decide
theorem test_wf_slot : (Instr.tallyTimeout 0 64).broken = [.slot] := by decide
theorem test_wf_counts : (Instr.dockPhaseDone 0 [4096]).broken = [.counts] := by decide
theorem test_wf_output : (Instr.dockRefit 0 [512]).broken = [.output] ∧ (Instr.refitPassClose 0 ⟨[512], false⟩).broken = [.output] := by decide
theorem test_wf_die : (Instr.dieCalibrationDone ⟨0, [1152]⟩).broken = [.die] ∧ (Instr.dieCalibrationDone ⟨0, [1151]⟩).broken = [] := by decide
theorem test_wf_address : (Instr.tlbWalkDone 0 0 (2 ^ 48) false).broken = [.address] := by decide
theorem test_wf_sram : (Instr.sramParityError 0 16777216 .task).broken = [.sram] := by decide
theorem test_wf_flit : (Instr.flitResendRequest 0 4096).broken = [.flit] := by decide
theorem test_wf_channel : (Instr.creditTimeout 0 8).broken = [.channel] := by decide
theorem test_wf_lane : (Instr.laneBerCheck 0 8 0).broken = [.lane] := by decide
theorem test_wf_identity : (Instr.linkTrainingDone 0 256 0 0).broken = [.identity] := by decide
theorem test_wf_message : (Instr.msgPut 0 { message with vc := 8 }).broken = [.message] := by decide
theorem test_wf_message_type : (Instr.msgGetReq 0 message).broken = [.messageType] := by decide
theorem test_wf_round : (Instr.bucketDeadline 0 2 0).broken = [.round] := by decide
theorem test_wf_code : (Instr.adcConversionDone 0 32768).broken = [.code] := by decide
theorem test_wf_line : (Instr.hdmAccess 0 0 (.write [] false)).broken = [.line] := by decide
theorem test_wf_config : (Instr.cxlConfigRequest 0 (.read 4096)).broken = [.config] := by decide
theorem test_wf_decoder : (Instr.cxlConfigRequest 0 (.decoderCommit 1)).broken = [.decoder] := by decide
theorem test_wf_nonce : (Instr.spdmChallenge .odp 0 []).broken = [.nonce] := by decide
theorem test_wf_net_address : (Instr.echoRequest (2 ^ 128) []).broken = [.netAddress] := by decide
theorem test_wf_opcode : (Instr.privateInstruction 256).broken = [.opcode] := by decide
theorem test_wf_image (image : List Byte) (h : 2 ^ 32 ≤ image.length) : (Instr.fwImageDownload .odp image).broken = [.image] := by
  simp only [Instr.broken, need, decide_eq_true_eq]
  exact if_neg (by omega)
theorem test_wf_good : (Instr.dictWrite 0 0x08000000 8 3).wellFormed = true := by decide

/-! ## No row of the table has bits -/

theorem test_decode_none : decodeTableWord 32 0 = none ∧ decodeTableWord 0 0 = none ∧ decodeTableWord 64 0xFFFFFFFF = none := by decide
theorem test_fetch_word : (State.reset.withFetchWord 32 5) = State.reset := rfl

/-! ## States that meet the hypotheses of the statements -/

/-- A plan for one package: a tile with a berth, a layer on one dock, a chain of two tiles, a bollard range, a fairway port. -/
def plan : Plan :=
  { planId := 1, jobSeed := 0, zd1 := false, pkgCount := 1, digest := [], tiles := [⟨0, 256, 0, 2, false⟩],
    layers := [⟨3, 1, 4, 4, 0, 1, 4, 4, 0, 1, 0⟩], docks := [⟨0, 0, 0, 0, 4, 4, 0, 16⟩], chains := [⟨0, 2, 0, [0, 1]⟩],
    holds := [⟨0, 0, 0, 0, 0⟩], bollards := [⟨1, 2, 0, 0, 0⟩], berths := [⟨5, 0, 0, 0, 2⟩], convoys := [⟨2, [⟨0, 0xFFFF, 0⟩]⟩],
    reductions := [], fabric := [⟨0, 2, 1, 3, 7, 0⟩, ⟨1, 1, 0, 0, 0, 0⟩], partner := none }

/-- In a power state, with the harbourmaster running. -/
def inState (p : PState) : State := { State.reset with power := { State.reset.power with pst := p, hmRunning := true } }

/-- In RUN, the plan loaded, context 0 RUNNING, the window of HL0 ready and its link up. -/
def running : State :=
  ((({ inState .run with plan := some plan }.put 0x2400 4 3).put (ctxIdx 0) 2 2).put 0x1200 1 1).put 0x1300 1 2

/-- A task of opcode `op` of context 0 in berth 5, as it was taken. -/
def task (op : Nat) : Task := { Task.fresh 7 [op, 0, 0, 3 * 2 ^ 48, 0, 0, 0, 0] 5 0 0 0 with st := .taken }

/-- Task k at the head of tile 0. -/
def withTask (k : Task) : State := running.setTile 0 { Tile.empty with tasks := [k] }

def isOk {ε α : Type} : Except ε α → Bool
  | .ok _ => true
  | .error _ => false

theorem isOk_iff {ε α : Type} {x : Except ε α} (h : isOk x = true) : ∃ a, x = .ok a := by
  cases x with
  | ok a => exact ⟨a, rfl⟩
  | error e => cases h

theorem test_w_step : ({ State.reset with pending := [.powerOn] }).pending = .powerOn :: [] ∧ State.reset.pending = [] := ⟨rfl, rfl⟩
theorem test_w_every_step : ∃ t, step State.reset = .next t := ⟨_, rfl⟩

theorem test_w_write : ∃ eff v t, writeCommand (.debugEnd .odp) = some (.odp, 0xC030, 4, [1], eff) ∧ reaches (inState .aux) .odp
    ∧ (inState .aux).checkWrite .odp 0xC030 4 [1] = .ok v ∧ eff v (inState .aux) = .ok t :=
  ⟨_, 1, _, rfl, by unfold reaches; decide, by decide +kernel, rfl⟩
theorem test_w_write_refused : ∃ eff, writeCommand (.planLoad .odp) = some (.odp, 0x2400, 3, [1], eff) ∧ reaches (inState .aux) .odp
    ∧ (inState .aux).checkWrite .odp 0x2400 3 [1] = .error 0xA010 := ⟨_, rfl, by unfold reaches; decide, by decide +kernel⟩
theorem test_w_write_no_effect : ∃ eff, writeCommand (.planUnload (.win 0)) = some (.win 0, 0x2400, 3, [2], eff) ∧ reaches running (.win 0)
    ∧ ∃ v, running.checkWrite (.win 0) 0x2400 3 [2] = .ok v ∧ ∃ code, eff v running = .error code :=
  ⟨_, rfl, by unfold reaches; decide +kernel, 2, by decide +kernel, 0xA009, by decide +kernel⟩
theorem test_w_refused : running.windowReady 0 = true ∧ ¬((0x1200 : Nat) = 0x1201 ∧ ((2 : Nat) = 2 ∨ (2 : Nat) = 3 ∨ (2 : Nat) = 4)) := by decide +kernel
theorem test_w_unready : State.reset.get 0x1201 1 ≠ 1 ∧ barEnd - 1 < barEnd := by decide +kernel
def direct (s : State) : Bool := match s.writeAccess (.win 0) 0x5000 1 with
  | .ok o => (match slotBytes o 8 1 with
    | some bs => isOk (s.writeScalar (.win 0) 0x5000 1 bs)
    | none => false)
  | .error _ => false
theorem test_w_direct : ∃ o bs t, ((inState .run).put 0x1200 1 1).windowReady 0 = true
  ∧ ((inState .run).put 0x1200 1 1).writeAccess (.win 0) 0x5000 1 = .ok o ∧ slotBytes o 8 1 = some bs
  ∧ ((inState .run).put 0x1200 1 1).writeScalar (.win 0) 0x5000 1 bs = .ok t := by
  have h : direct ((inState .run).put 0x1200 1 1) = true := by decide +kernel
  unfold direct at h
  split at h
  · next o e =>
    split at h
    · next bs e' =>
      obtain ⟨t, e''⟩ := isOk_iff h
      exact ⟨o, bs, t, by decide +kernel, e, e', e''⟩
    · cases h
  · cases h
theorem test_w_direct_refused : running.writeAccess (.win 0) 0x2400 3 ≠ .error 0 ∧ isOk (running.writeScalar (.win 0) 0x2400 3 [9]) = false := by
  decide +kernel

/-- HL0's window ready and its channel 1 as d, and an object's index and subindex in DAC_CTRL, for a download or an upload. -/
def channel (d : Dac) : State := ((inState .run).put 0x1200 1 1).setDac 0 1 d
def ctrl (idx sub : Nat) (down : Bool) : Nat := idx * 2 ^ 24 + sub * 65536 + (if down then 128 else 0)
def target (d : Dac) (c : Nat) : State := (channel d).setDac 0 1 { d with index := bits c 39 24, sub := bits c 23 16, download := bit c 7 }
def isErr {ε α : Type} : Except ε α → Bool
  | .ok _ => false
  | .error _ => true
theorem test_w_dac : (channel Dac.reset).windowReady 0 = true ∧ (channel Dac.reset).windowReady 1 = false ∧ ctrlReserved (ctrl 0x5000 1 true) = false
    ∧ ((channel Dac.reset).dac 0 1).idle = true ∧ (channel Dac.reset).fw.writer = none
    ∧ (target { Dac.reset with size := 1 } (ctrl 0x5000 1 true)).downloadCheck (.win 0) 0x5000 1 1 = 0
    ∧ (target { Dac.reset with size := 9 } (ctrl 0x5000 1 true)).downloadCheck (.win 0) 0x5000 1 9 ≠ 0
    ∧ isOk ((target Dac.reset (ctrl 0x5000 1 false)).uploadCheck (.win 0) 0x5000 1) = true
    ∧ isErr ((target Dac.reset (ctrl 0x5FFF 1 false)).uploadCheck (.win 0) 0x5FFF 1) = true := by decide +kernel
def open_ (state : Nat) (down : Bool) : Dac :=
  { Dac.reset with index := 0x5000, sub := 1, state := state, download := down, size := 1, length := 1, data := if down then [] else [1] }
def filled (v : Byte) : State := (channel (open_ 3 true)).setDac 0 1 { open_ 3 true with state := 5, data := [] }
theorem test_w_dac_segments : (open_ 1 true).ready = true ∧ (open_ 3 false).ready = true ∧ (open_ 2 false).isOpen = true
    ∧ (open_ 1 true).offset + (open_ 1 true).length ≤ (open_ 1 true).size ∧ (open_ 1 true).offset = (open_ 1 true).data.length
    ∧ ({ open_ 3 true with data := [1] } : Dac).data.length = ({ open_ 3 true with data := [1] } : Dac).size
    ∧ ((filled 1).downloadEnd (.win 0) 0x5000 1 [1]).2 = 0 ∧ ((filled 1).downloadEnd (.win 0) 0x5000 1 [9]).2 ≠ 0
    ∧ (0x5000 : Nat) ≠ 0xC020 ∧ ({ open_ 2 true with busy := some (0, 1) } : Dac).busy = some (0, 1) ∧ (open_ 2 true).state = 2 := by decide +kernel
theorem test_w_dac_parameters : (channel (open_ 1 true)).windowReady 0 = true ∧ (open_ 0 true).idle = true ∧ (open_ 1 true).idle = false
    ∧ (open_ 1 true).state ≠ 2 ∧ (65536 : Nat) ≤ 65536 ∧ (65536 : Nat) < 65537 ∧ ctrlReserved 256 = true ∧ ctrlReserved (2 ^ 40) = true
    ∧ (open_ 0 true).ready = false ∧ (open_ 0 true).isOpen = false
    ∧ ({ open_ 1 true with offset := 1 } : Dac).offset ≠ (open_ 1 true).data.length ∧ ({ open_ 1 true with length := 2 } : Dac).size < 0 + 2
    ∧ (open_ 1 true).data.length ≠ (open_ 1 true).size := by decide +kernel
def ported : State := { inState .run with mgmt := ⟨true, false⟩ }.put 0x1400 7 1
theorem test_w_odp_hears (typ : Nat) (h : typ = 0x01 ∨ typ = 0x22) : hears ported frame typ ∧ wellHeaded frame := by
  unfold hears wellHeaded
  obtain rfl | rfl := h <;> decide +kernel
theorem test_w_odp_scalars : isOk (ported.rx.readAccess .odp 0x1000 0) = true ∧ isErr (ported.rx.readAccess .odp 0x5FFF 0) = true
    ∧ (∀ o, ported.rx.valueOf o 0x1000 0 = leBytes 4 (ported.rx.scalarVal 0x1000 0) → (ported.rx.valueOf o 0x1000 0).length ≤ 1024)
    ∧ isOk (ported.rx.writeScalar .odp 0x5000 1 [1]) = true ∧ isErr (ported.rx.writeScalar .odp 0x5000 1 [9]) = true
    ∧ isOk (ported.rx.writeScalar .odp 0x1400 1 [5]) = true := by
  refine ⟨by decide +kernel, by decide +kernel, ?_, by decide +kernel, by decide +kernel, by decide +kernel⟩
  intro o h
  rw [h]
  decide +kernel
def carrying (down : Bool) (bs : List Byte) : State := ported.rx.odpOpen ⟨0, 0, 0x5000, 1, down, 1, bs⟩
theorem test_w_odp_transfers : isOk (ported.rx.uploadCheck .odp 0x5000 1) = true ∧ ported.rx.odpFull frame = false
    ∧ (carrying false [1]).odpXfer frame = some ⟨0, 0, 0x5000, 1, false, 1, [1]⟩ ∧ (0 : Nat) + 1 ≤ 1
    ∧ ported.rx.downloadCheck .odp 0x5000 1 1 = 0 ∧ (carrying true []).odpXfer frame = some ⟨0, 0, 0x5000, 1, true, 1, []⟩
    ∧ bit 1 0 = true ∧ bit 0 0 = false ∧ (((carrying true []).odpDrop frame).downloadEnd .odp 0x5000 1 [1]).2 = 0
    ∧ (((carrying true []).odpDrop frame).downloadEnd .odp 0x5000 1 [9]).2 ≠ 0 := by decide +kernel
theorem test_w_odp_strangers : hears ported { frame with version := 2 } 0x01 ∧ hears ported { frame with typ := 0x66 } 0x66
    ∧ odpTypes.contains 0x66 = false ∧ wellHeaded { frame with typ := 0x66 } ∧ odpIgnored { frame with short := true } 0x01 = true
    ∧ ({ frame with dstPort := 33281 } : OdpFrame).dstPort ≠ ported.get 0x1100 1
    ∧ ({ ported with odp := { ported.odp with xfers := [⟨1, 2, 0, 0, false, 0, []⟩] } }).odp.xfers[0]? = some ⟨1, 2, 0, 0, false, 0, []⟩
    ∧ (({ ported with odp := { ported.odp with memo := [⟨0, 0, 0x01, 0, odpAnswer frame 0x02⟩] } }).rx.odpMemo frame 0x01).isSome = true := by
  unfold hears wellHeaded
  decide +kernel

theorem test_w_supply : (inState .aux).power.pst ≠ .off ∧ (inState .run).power.pst ≠ .off ∧ (inState .run).power.pst ≠ .aux := by decide
theorem test_w_power_on : State.reset.power.pst = .off := rfl
def held : State := { inState .aux with power := { (inState .aux).power with resetLow := true } }
theorem test_w_release : held.power.resetLow = true ∧ held.power.pst = .aux ∧ held.power.clampGood = false ∧ held.power.startPending = false
    ∧ ({ State.reset with power := { State.reset.power with resetLow := true } }).power.pst = .off := by decide
theorem test_w_clamp : (inState .aux).power.pst = .aux ∧ (inState .aux).power.resetLow = false ∧ (inState .aux).power.clampGood = false
    ∧ (inState .aux).power.startPending = false
    ∧ ({ inState .aux with power := { (inState .aux).power with startPending := true } }).power.startPending = true
    ∧ (48500 : Nat) ≤ 48000 + 500 ∧ (48000 : Nat) + 500 < 48501 := by decide
def boot (ph : BootPhase) : State :=
  { State.reset with power := { State.reset.power with pst := .boot, phase := ph, restoreOpen := true } }.put 0x2500 2 1
theorem test_w_boot (ph : BootPhase) : (boot ph).power.pst = .boot ∧ (boot ph).power.phase = ph ∧ (boot ph).power.settled = false
    ∧ (boot ph).power.restoreOpen = true ∧ (boot ph).get 0x2500 2 = 1 :=
  ⟨rfl, rfl, rfl, rfl, by unfold boot; rw [State.get_put]⟩
/-- Both slots hold an image, or neither. -/
def slotted (b : Bool) : State :=
  { boot .firmware with fw := { (boot .firmware).fw with slotA := { FwSlot.shipped with present := b }, slotB := { FwSlot.shipped with present := b } } }
def passing (s : State) : State := { s with fw := { s.fw with passedOver := s.fw.running :: s.fw.passedOver } }
def orderLeft (s : State) : List Nat := s.fw.order.filter (fun n => s.slotValid n && !s.fw.passedOver.contains n)
theorem test_w_boot_slot : (slotted true).slotValid (slotted true).fw.running = true ∧ orderLeft (passing (slotted true)) ≠ []
    ∧ orderLeft (passing (slotted false)) = [] := by decide +kernel
theorem test_w_orderly : (boot .harbourmaster).store.orderly = true ∨ (boot .harbourmaster).store.orderly = false := by decide
theorem test_w_self_test : (running.put 0x2500 2 1).get 0x2500 2 = 1 ∧ running.power.pst ≠ .boot
    ∧ (((boot .selfTest).put 0x6100 5 1).selfTestEnd []).get 0x6100 5 = 1 ∧ (((boot .selfTest).put 0x6100 5 0).selfTestEnd []).get 0x6100 5 ≠ 1 := by
  rw [State.selfTestEnd_cold, State.selfTestEnd_cold]
  decide +kernel
theorem test_w_droop : running.power.droop = false ∧ ({ running with power := { running.power with droop := true } }).power.droop = true
    ∧ running.power.pst ≠ .off ∧ running.power.pst ≠ .aux ∧ running.power.pst ≠ .sleep ∧ running.power.hmRunning = true := by decide
theorem test_w_goal : (running.put 0xB011 1 900).get 0xB011 1 ≤ (running.put 0xB011 1 900).goalPoint 0
    ∧ ({ running with power := { running.power with goal := [(0, 900)] } }.put 0xB011 1 1400).goalPoint 0
      ≤ ({ running with power := { running.power with goal := [(0, 900)] } }.put 0xB011 1 1400).get 0xB011 1 := by decide +kernel
def toNap : State := { inState .ready with power := { (inState .ready).power with napHeld := true } }
theorem test_w_nap : toNap.napReady = true := by decide +kernel
theorem test_w_idle : running.power.pst = .run ∧ running.atWork = false := by decide +kernel
def down : State := { inState .ready with power := { (inState .ready).power with shutdownBusy := true, mref := true } }
theorem test_w_shutdown : down.power.shutdownBusy = true ∧ down.power.pst = .ready ∧ down.power.mref = true ∧ mget? down.log.lastAt 0x810A = none := by decide +kernel
theorem test_w_mref_absent : State.reset.power.mref = false := rfl

def saving : State := { State.reset with store := { State.reset.store with saving := some [(1, 2)] } }
theorem test_w_save : saving.store.saving = some [(1, 2)] ∧ saving.store.inBank1 = false
    ∧ ({ saving with store := { saving.store with bank1 := ⟨true, true, 1, []⟩ } }).store.inBank1 = true := by decide +kernel
theorem test_w_events : 0 < State.reset.ringCap ∧ State.reset.log.ring.length ≤ State.reset.ringCap ∧ running.power.pst ≠ .off := by decide +kernel
theorem test_w_plan : (running.put 0x2400 4 2).plan = some plan ∧ (running.put 0x2400 4 2).get 0x2400 4 = 2
    ∧ (running.put 0x2400 4 4).get 0x2400 4 = 4 ∧ running.power.sleepHeld = false ∧ (inState .ready).power.pst = .ready
    ∧ ({ running with power := { running.power with sleepHeld := true } }.put 0x2400 4 2).power.sleepHeld = true := by decide +kernel

/-- The berth definition of the plan, and berth 5 with n manifests waiting. -/
def bd : BerthDef := ⟨5, 0, 0, 0, 2⟩
def berthed (n : Nat) : State := running.setBerth 5 { Berth.empty with queue := (List.range n).map (fun i => ⟨i, 0x10000 * i, false⟩), nextNo := n }
/-- Tile 0 translates the first GiB to DRAM. -/
def mapped (s : State) : State := { s with tlbs := [(0, [⟨0, 30, 0, true, true⟩])] }

theorem test_w_bell : (berthed 1).linkUp 0 = true ∧ (berthed 1).operating = true ∧ (berthed 1).loaded = true ∧ (berthed 1).berthDef 5 = some bd
    ∧ bd.berth = 5 ∧ bellOk 0x10000 = true ∧ ((berthed 1).berth 5).queue.length < bd.depth := by decide +kernel
theorem test_w_bad_bell : (berthed 2).linkUp 0 = true ∧ (berthed 2).operating = true ∧ bd.depth ≤ ((berthed 2).berth bd.berth).queue.length
    ∧ bellOk 1 = false ∧ (inState .run).loaded = false ∧ running.berthDef 8191 = none := by decide +kernel
theorem test_w_fetch : (berthed 1).plan = some plan ∧ ((berthed 1).tile 0).fetching = none
    ∧ ((berthed 1).tile 0).bufs.length < ((plan.tilePart 0).map (·.mbufs)).getD 0
    ∧ topBerth (((berthed 1).tileBerths 0).filter (fun d => (berthed 1).takes d.ctx
      && decide (((((berthed 1).tile 0).bufs).filter (fun m => m.berth == d.berth)).length < 2) && ((berthed 1).nextMan 0 d.berth).isSome)) = some bd := by
  decide +kernel
def inFlight : State := mapped ((berthed 1).setTile 0 { Tile.empty with fetching := some 5 })
theorem test_w_arrive : (inFlight.tile 0).fetching = some 5 ∧ inFlight.berthDef 5 = some bd ∧ inFlight.nextMan 0 5 = some ⟨0, 0, false⟩
    ∧ ∃ t, inFlight.burstIn 0 bd ⟨0, 0, false⟩ = .ok t :=
  ⟨by decide +kernel, by decide +kernel, by decide +kernel, isOk_iff (by decide +kernel)⟩
/-- Berth 5 with a manifest in a buffer whose first slot holds the descriptor ws. -/
def buffered (ws : List Nat) : State := (berthed 1).setTile 0 { Tile.empty with bufs := [⟨5, 0, 0, [ws], []⟩] }
def noop_ : List Nat := [0x52, 0, 0, 0xFFFF * 2 ^ 48, 0, 0, 0, 0]
theorem test_w_take : (buffered noop_).pickBerth 0 = some bd ∧ (buffered noop_).curBuf 0 5 = some ⟨5, 0, 0, [noop_], []⟩ := by decide +kernel
theorem test_w_take_valid : (buffered noop_).validate bd (Task.fresh 0 noop_ 5 0 0 0) = 0
    ∧ (buffered noop_).validate bd (Task.fresh 0 [0x99, 0, 0, 0, 0, 0, 0, 0] 5 0 0 0) = 0x1001 := by decide +kernel

def worked : Task := { task 0x52 with worked := true, st := .running }
theorem test_w_end : ((withTask worked).tile 0).tasks.find? (fun k => k.st != .handed) = some worked ∧ worked.gate ≠ 1 ∧ worked.unanswered = []
    ∧ ∃ u, (if worked.noop then Except.ok (withTask worked) else (withTask worked).considerSample 0 worked) = .ok u :=
  ⟨by decide +kernel, by decide, rfl, isOk_iff (by decide +kernel)⟩
theorem test_w_signal : ((running.setTile 0 { Tile.empty with ending := [worked] }).tile 0).ending = worked :: [] ∧ worked.outstanding = 0
    ∧ (running.setTile 0 { Tile.empty with ending := [worked] }).copyPending worked = false := by decide +kernel
def owing : Task := { worked with outstanding := 2 }
theorem test_w_ack : (withTask owing).findTask 0 7 = some owing ∧ owing.outstanding ≠ 0 := by decide +kernel
/-- The plan with a request berth 6 on tile 0; a COPY of tile 0 half done, and a task that waits at the request berth. -/
def urgent : State :=
  { withTask { task 0x29 with st := .running } with plan := some { plan with berths := [⟨5, 0, 0, 0, 2⟩, ⟨6, 0, 0, 3, 2⟩] } }.setBerth 6
    { Berth.empty with waiting := some { task 0x52 with berth := 6, words := [0x52 + 3 * 2 ^ 24, 0, 0, 0, 0, 0, 0, 0], st := .waiting } }
theorem test_w_suspend : (urgent.tile 0).next = some ({ task 0x29 with st := .running }, none) ∧ (task 0x29).prio ≠ 3 ∧ urgent.requestStands 0 = true := by
  decide +kernel
theorem test_w_bollard : (1 : Nat) ≠ running.get 0x8200 13 ∧ running.bollardOwner 1 = some 0 ∧ running.bollardOwner 9 = none ∧ running.secure.copy = none
    ∧ 2 ^ 32 ≤ ((running.setBollard 1 { running.bollard 1 with count := 2 ^ 32 - 1 }).bollard 1).count + 1
    ∧ ((running.setBollard 1 { running.bollard 1 with count := 2 ^ 32 - 2 }).bollard 1).count + 1 < 2 ^ 32 := by decide +kernel

/-- Task k of tile 0 begins its row, and its ferry slots admit it. -/
def starts (s : State) (op : Nat) (form : Task → Bool) (body : Body) (k : Task) : Prop :=
  begins s 0 op form k ∧ ∃ slots load, admits s.work 0 k (body.reads s.work k) (body.writes s.work k) slots load
def begun (s : State) (body : Body) (k : Task) : State :=
  s.work.startedAs 0 k (body.reads s.work k ++ body.writes s.work k) (body.writes s.work k)
theorem starts_of {s : State} {op : Nat} {form : Task → Bool} {body : Body} {k : Task} (h : begins s 0 op form k)
    (h1 : isOk (s.work.ferryRead 0 (s.work.placeOf (some 0) k.ctx (body.reads s.work k) false)) = true)
    (h2 : isOk (s.work.ferryWrite 0 k.chainLoad (s.work.placeOf (some 0) k.ctx (body.writes s.work k) true)) = true) :
    starts s op form body k :=
  have ⟨a, ha⟩ := isOk_iff h1
  have ⟨b, hb⟩ := isOk_iff h2
  ⟨h, a, b, ha, hb⟩
/-- The same, with work that ends in a next state. -/
theorem runs_of {s : State} {op : Nat} {form : Task → Bool} {body : Body} {k : Task} (h : begins s 0 op form k)
    (h1 : isOk (s.work.ferryRead 0 (s.work.placeOf (some 0) k.ctx (body.reads s.work k) false)) = true)
    (h2 : isOk (s.work.ferryWrite 0 k.chainLoad (s.work.placeOf (some 0) k.ctx (body.writes s.work k) true)) = true)
    (h3 : isOk (body.run (begun s body k) 0 k) = true) : ∃ t, runs s 0 op form body k t :=
  have ⟨a, ha⟩ := isOk_iff h1
  have ⟨b, hb⟩ := isOk_iff h2
  have ⟨c, hc⟩ := isOk_iff h3
  ⟨_, h, a, b, c.2, c.1, ⟨ha, hb⟩, hc, rfl⟩
def waitBody : Body := ⟨noReads, fun _ _ => [], noWork⟩
theorem test_w_wait : taskRow (.wait 0) = some (0, 0x51, fun k => !k.worked, waitBody, fun _ _ => 1) ∧ (1 : Nat) ≤ (task 0x51).units + 1
    ∧ ∃ t, runs (withTask (task 0x51)) 0 0x51 (fun k => !k.worked) waitBody (task 0x51) t :=
  ⟨rfl, by decide, runs_of (by unfold begins; decide +kernel) (by decide +kernel) (by decide +kernel) (by decide +kernel)⟩
def signal1 : Task := { task 0x50 with words := [0x50, 0, 0, 0xFFFF * 2 ^ 48, 0, 0, 0xFFFF * 2 ^ 48, 0] }
theorem test_w_signal_row : begins (withTask signal1) 0 0x50 (fun k => !k.worked) signal1 ∧ signal1.sigTarget = 0xFFFF := by
  unfold begins
  decide +kernel
/-- A product of one by one by one element, of operands at 0x10000 and 0x20000. -/
def gemm1 : Task := { task 0x10 with words := [0x10, 0, 0x10000, 3 * 2 ^ 48 + 0x20000, 0x30000, 1 + 2 ^ 32, 2 ^ 40, 0] }
def gemmBody : Body := ⟨gemmReads, gemmWrites, State.gemmRun⟩
def struck (x : Except AccFault (State × Nat)) : Bool := match x with
  | .error (.stall _) => false
  | .error .wait => false
  | .error _ => true
  | .ok _ => false
theorem test_w_task_row : taskRow (.gemm 0) = some (0, 0x10, fun _ => true, gemmBody, State.gemmParts)
    ∧ ∃ t, runs (withTask (task 0x10)) 0 0x10 (fun _ => true) gemmBody (task 0x10) t :=
  ⟨rfl, runs_of (by unfold begins; decide +kernel) (by decide +kernel) (by decide +kernel) (by decide +kernel)⟩
theorem test_w_task_fault : starts (withTask gemm1) 0x10 (fun _ => true) gemmBody gemm1
    ∧ struck (gemmBody.run (begun (withTask gemm1) gemmBody gemm1) 0 gemm1) = true ∧ (withTask gemm1).gemmParts gemm1 ≤ gemm1.units + 1 :=
  ⟨starts_of (by unfold begins; decide +kernel) (by decide +kernel) (by decide +kernel), by decide +kernel, by decide +kernel⟩
/-- A PUT of 64 bytes at 0x1000 that HL0's host holds. -/
def put64 : Task := { task 0x40 with words := [0x40, 0, 0x1000, 0xFFFF * 2 ^ 48, 0, 64, 9 * 2 ^ 48, 0] }
def putBody : Body := ⟨readsA, noWrites, putRun⟩
def hostHolds (s : State) : State := s.setHl 0 { s.hl 0 with filter := [(0x1000, 3)] }
def stalls {α : Type} (x : Except AccFault α) : Bool := match x with
  | .error (.stall _) => true
  | _ => false
def routed : State := hostHolds ({ mapped (withTask put64) with plan := some { plan with fabric := [⟨1, 1, 0, 0, 0, 0xFF⟩] } }.put (portIdx 1) 2 2)
theorem test_w_task_stall : starts routed 0x40 (fun _ => true) putBody put64
    ∧ stalls (putBody.run (begun routed putBody put64) 0 put64) = true :=
  ⟨starts_of (by unfold begins; decide +kernel) (by decide +kernel) (by decide +kernel), by decide +kernel⟩
/-- A COPY of n bytes to 0x1000, of zeros or of what stands at 0. -/
def copyN (n : Nat) (zero : Bool) : Task :=
  { task 0x29 with words := [0x29, 0, 0, 0xFFFF * 2 ^ 48, 0x1000, n, if zero then 2 ^ 63 else 0, 0] }
def unitsOk (s : State) (k : Task) : Bool := match unitRow (.copy 0 1) with
  | none => false
  | some (_, _, units, d) =>
    let left := (d.moved s k (d.total s k)).drop k.units
    let m := min (s.unitsNow 0 k units) (s.unitsFree 0 k left)
    decide (m ≠ 0) && isOk (s.work.ferryRead 0 (s.work.placeOf (some 0) k.ctx (d.reads s.work k) false))
      && isOk (s.work.ferryWrite 0 k.chainLoad (s.work.placeOf (some 0) k.ctx (d.writes s.work k) true))
def moved1 (s : State) (k : Task) : Except AccFault State := match unitRow (.copy 0 1) with
  | none => .error .wait
  | some (_, _, _, d) => d.run (s.work.startedAs 0 k (d.reads s.work k ++ d.writes s.work k) (d.writes s.work k)) 0 k 0 1
theorem test_w_unit_row : (mapped (withTask (copyN 64 true))).dmaTask 0 0x29 = some (copyN 64 true, true)
    ∧ unitsOk (mapped (withTask (copyN 64 true))) (copyN 64 true) = true ∧ isOk (moved1 (mapped (withTask (copyN 64 true))) (copyN 64 true)) = true := by
  decide +kernel
theorem test_w_unit_fault : unitsOk (withTask (copyN 64 true)) (copyN 64 true) = true ∧ isOk (moved1 (withTask (copyN 64 true)) (copyN 64 true)) = false
    ∧ stalls (moved1 (withTask (copyN 64 true)) (copyN 64 true)) = false
    ∧ stalls (moved1 (hostHolds (mapped (withTask (copyN 64 true)))) (copyN 64 true)) = true := by decide +kernel
theorem test_w_unit_nothing : unitsOk (mapped (withTask (copyN 0 true))) (copyN 0 true) = false ∧ copyUnits (copyN 0 true) = []
    ∧ (copyN 0 true).worked = false := by decide +kernel
/-- A COPY that runs ahead of the task before it. -/
def inward : Task := { task 0x29 with words := [0x29, 0, 0, 0xFFFF * 2 ^ 48, 2 ^ 30, 64, 2 ^ 63, 0] }
def ahead : State := { running with tlbs := [(0, [⟨0, 30, 0, true, true⟩, ⟨2 ^ 30, 24, tileAddr 0 0, true, true⟩])] }.setTile 0
  { Tile.empty with tasks := [{ task 0x51 with id := 6, st := .running }, inward] }
theorem test_w_unit_ahead : ahead.dmaTask 0 0x29 = some (inward, false) ∧ unitsOk ahead inward = true := by decide +kernel
theorem test_w_sync : (withTask (task 0x52)).headOf 0 0x52 = some (task 0x52) ∧ (task 0x52).st = .taken
    ∧ (withTask { task 0x52 with st := .running }).headOf 0 0x52 = some { task 0x52 with st := .running }
    ∧ (withTask { task 0x52 with st := .running }).fenceMet 0 { task 0x52 with st := .running } = true := by decide +kernel
/-- A BARRIER of context 0 that has been taken and handed over, alone or beside another of the context that waits. -/
def barred (other : Bool) : State := (withTask { task 0x53 with st := .handed }).setCtx 0
  { CtxSt.empty with barrier := if other then some ⟨9, [], false⟩ else none }
theorem test_w_barrier (other : Bool) : ((barred other).tile 0).tasks.find? (fun k => k.opcode == 0x53 && k.st == .handed && !k.worked
      && (barred other).takes k.ctx) = some { task 0x53 with st := .handed } ∧ ((barred true).ctx 0).barrier = some ⟨9, [], false⟩
    ∧ (9 : Nat) ≠ (task 0x53).barSeq := by
  cases other <;> decide +kernel
/-- A task that waits at berth 5 for bollard 1 to count 4. -/
def waiter : Task := { task 0x52 with words := [0x52, 1 + 4 * 2 ^ 32, 0, 0, 0, 0, 0, 0], st := .waiting }
def stalled : State := running.setBerth 5 { Berth.empty with waiting := some waiter }
theorem test_w_hang : stalled.loaded = true ∧ (stalled.heldWait 0).isSome = true
    ∧ ({ running with inval := some ⟨0, 0, 65536⟩ }).loaded = true ∧ ({ running with inval := some ⟨0, 0, 65536⟩ }).inval = some ⟨0, 0, 65536⟩
    ∧ ((barred false).tile 0).tasks.find? (fun k => k.opcode == 0x53 && k.st == .handed) = some { task 0x53 with st := .handed } := by decide +kernel
/-- A FENCE that waits for an earlier task of its berth. -/
def fenced : State := running.setTile 0 { Tile.empty with tasks := [{ task 0x52 with st := .running }], ending := [{ worked with id := 6, outstanding := 1 }] }
theorem test_w_hang_fence : fenced.headOf 0 0x52 = some { task 0x52 with st := .running }
    ∧ fenced.fenceMet 0 { task 0x52 with st := .running } = false := by decide +kernel
def ferrying (m : ChainMember) : State := running.setMember 0 0 m
theorem test_w_ferry : running.chainDef 0 = some ⟨0, 2, 0, [0, 1]⟩ ∧ (ferrying ⟨1, 0, 0, false⟩).operating = true
    ∧ (ferrying ⟨1, 0, 0, false⟩).member 0 0 = ⟨1, 0, 0, false⟩ ∧ (ferrying ⟨1, 0, 0, false⟩).slotFree 0 1 0 = true
    ∧ (ferrying ⟨3, 2, 2, false⟩).slotFree 0 1 2 = false ∧ ((ferrying ⟨1, 0, 0, true⟩).member 0 0).moving = true := by decide +kernel

/-! The tally and the gates. -/

def cap0 : Cap := ⟨1, 0, [], [], false, false⟩
def sampled (copying : Bool) (kind : Nat) : TallySlot := ⟨0, 0, 0, 0, 0, 0, task 0x10, copying, false, kind, 1, [], [], [], [], none⟩
def sampling (copying : Bool) (kind : Nat) : State := running.setTally 3 (sampled copying kind)
theorem test_w_tally_slot : (sampling true 0).tallyOf 3 = some (sampled true 0) ∧ (3 : Nat) < 64 := by decide +kernel
theorem test_w_tally (kind : Nat) (h : kind = 0 ∨ kind = 1) : (sampling false kind).tallyDue 1 = some (3, sampled false kind)
    ∧ (sampling false kind).operating = true ∧ (sampling false kind).loaded = true ∧ (sampling false kind).ctxState (3 / 64) = 2
    ∧ ((sampling false kind).tile 1).busy = false
    ∧ ∃ js u, (sampling false kind).work.recompute 1 0 cap0 = .ok (js, u) := by
  obtain rfl | rfl := h <;> exact ⟨by decide +kernel, by decide +kernel, by decide +kernel, by decide +kernel, by decide +kernel, _, _, rfl⟩
def gated : Task := { task 0x11 with gate := 1 }
theorem test_w_gate : ((withTask gated).tile 0).tasks.find? (fun k => k.gate == 1 && k.st == .taken) = some gated
    ∧ (withTask gated).layerOf gated = some (0, ⟨3, 1, 4, 4, 0, 1, 4, 4, 0, 1, 0⟩) ∧ (withTask gated).takes 0 = true
    ∧ ((withTask gated).ctx 0).tripReplay = false ∧ (withTask gated).gateReady gated = true ∧ ((withTask gated).layer 0).gate = none
    ∧ (withTask gated).troubled 0 = [] ∧ ((withTask gated).ctx 0).errs = [] := by decide +kernel
theorem test_w_trip : ((withTask gated).setLayer 0 { LayerSt.empty with nonfinite := 1 }).troubled 0 ≠ [] := by decide +kernel
def toReplay : State := running.setCtx 0 { CtxSt.empty with replaying := true }
theorem test_w_replay : (toReplay.ctx 0).replaying = true ∧ toReplay.ctxRuns 0 = false ∧ toReplay.diagnosing 0 = false ∧ toReplay.ctxState 0 = 2
    ∧ (toReplay.ctx 0).manLog ≤ manLogMax := by decide +kernel

/-! Docks, the hold, contexts. -/

theorem test_w_zero_detector : (List.replicate 512 (0 : Int)).length = 512
    ∧ ((List.range 512).filter (fun r => decide ((List.replicate 512 (1 : Int)).getD r 0 ≠ 0))).length = 512
    ∧ ((List.range 512).filter (fun r => decide ((List.replicate 256 (1 : Int) ++ List.replicate 256 0).getD r 0 ≠ 0))).length = 256
    ∧ ((List.range 512).filter (fun r => decide ((List.replicate 257 (1 : Int) ++ List.replicate 255 0).getD r 0 ≠ 0))).length = 257 := by
  decide +kernel
/-- A task with words 4, 5 and 6 given. -/
def taskW (op d len w6 : Nat) : Task := { task op with words := [op, 0, 0, 3 * 2 ^ 48, d, len, w6, 0] }
def mv (mask : Nat) : Task := taskW 0x01 0 0 (mask * 2 ^ 56)
def good : State := (withTask (mv 0)).setDock 0 { Dock.empty with programmed := true }
theorem test_w_mvm_start : good.headOf 0 0x01 = some (mv 0) ∧ (good.layerOf (mv 0)).isSome = true ∧ good.mvm 0 = none
    ∧ good.emulating = false ∧ (good.put 0x5000 1 1).emulating = true ∧ good.isWide (mv 0) = false
    ∧ ((mv 0).maskDocks 0).any (fun d => good.dockWaits (mv 0) d) = false
    ∧ ((mv 0).maskDocks 0).find? (fun d => good.dockRefuses (mv 0) 0 d != 0) = none
    ∧ ((mv 3).maskDocks 0).find? (fun d => good.dockRefuses (mv 3) 0 d != 0) = some 1
    ∧ ∃ u, good.work.mvmStart 0 (mv 0) 0 ⟨3, 1, 4, 4, 0, 1, 4, 4, 0, 1, 0⟩ = .ok u :=
  ⟨by decide +kernel, by decide +kernel, by decide +kernel, by decide +kernel, by decide +kernel, by decide +kernel, by decide +kernel,
   by decide +kernel, by decide +kernel, isOk_iff (by decide +kernel)⟩
def wide : State := { good.setLayer 0 { LayerSt.empty with level := 2 } with blobs := [(key 0x5110 0, leBytes 6 64 ++ leBytes 2 1 ++ zeros 24)] }
def wideBody : Body := ⟨fun s k => mvmReads s 0 k, fun s k => mvmWrites s 0 k (s.mvmFmt k), State.mvmWide⟩
theorem test_w_mvm_wide : wide.isWide (mv 0) = true ∧ wide.emulating = false ∧ unitsFor wideVectors (mv 0).len0 ≤ (mv 0).units + 1
    ∧ ∃ t, runs wide 0 0x01 (fun _ => true) wideBody (mv 0) t :=
  ⟨by decide +kernel, by decide +kernel, by decide +kernel,
   runs_of (by unfold begins; decide +kernel) (by decide +kernel) (by decide +kernel) (by decide +kernel)⟩
/-- One vector whose operands lie nowhere. -/
def mvFar : Task := { taskW 0x01 0x10000 1 (2 ^ 56) with words := [0x01, 4 + 4 * 2 ^ 16, 0x20000, 3 * 2 ^ 48, 0x10000, 1, 2 ^ 56, 0] }
theorem test_w_mvm_fault : struck ((good.work.mvmStart 0 mvFar 0 ⟨3, 1, 4, 4, 0, 1, 4, 4, 0, 1, 0⟩).map (fun s => (s, 0))) = true := by decide +kernel
def mdock (ph : List (List Nat)) : MvmDock := ⟨0, 0, 0, 0, 1, 1, 8, .zero false, false, ph, [], [], [], [], false⟩
def mrun (ph : List (List Nat)) (ins : List (List Sys2Proof.Num)) : MvmRun := ⟨7, ins, [mdock ph], [], false, 0, false, 2, none⟩
def midway (ph : List (List Nat)) (ins : List (List Sys2Proof.Num)) : State := { good with mvms := [(0, mrun ph ins)] }
theorem test_w_phase : (midway [[0]] [[]]).mvm 0 = some (mrun [[0]] [[]])
    ∧ (mrun [[0]] [[]]).docks.find? (fun m => m.dock == 0 && !m.stale && decide (m.phases ≠ [])) = some (mdock [[0]])
    ∧ (midway [[0]] [[]]).findTask 0 7 = some (mv 0) ∧ (midway [[0]] [[]]).phaseFault [] (mdock [[0]]) = false
    ∧ (midway [[0]] [[]]).phasePossible [] ((mdock [[0]]).codes (mv 0) []) (mdock [[0]]) = true := by decide +kernel
theorem test_w_phase_fault : (midway [[0]] [[]]).phaseFault [0, 4095] (mdock [[0]]) = true := by decide +kernel
theorem test_w_phase_sum : ({ mdock [] with raw := [.zero false] } : MvmDock).raw ≠ [] := by decide
theorem test_w_vector : (midway [] [[], []]).mvm 0 = some (mrun [] [[], []]) ∧ (mrun [] [[], []]).docks.any (fun m => decide (m.phases ≠ [])) = false
    ∧ ((midway [] [[], []]).vectorEnd 0 (mrun [] [[], []])).2.done.length < ((midway [] [[], []]).vectorEnd 0 (mrun [] [[], []])).2.ins.length
    ∧ ((midway [] []).vectorEnd 0 (mrun [] [])).2.ins.length ≤ ((midway [] []).vectorEnd 0 (mrun [] [])).2.done.length := by decide +kernel
theorem test_w_finish : ∃ u, ((midway [] []).vectorEnd 0 (mrun [] [])).1.mvmFinish 0 (mv 0) 0 ⟨3, 1, 4, 4, 0, 1, 4, 4, 0, 1, 0⟩
    ((midway [] []).vectorEnd 0 (mrun [] [])).2 = .ok u := isOk_iff (by decide +kernel)

def refitting (mode : Nat) : Task := taskW 0x02 0 0 (mode * 2 ^ 59 + (if mode = 2 then 0 else 2 ^ 58))
def refit (mode : Nat) : State := (mapped (withTask (refitting mode))).setDock 0 { Dock.empty with programmed := true }
theorem test_w_refit (mode : Nat) (h : mode = 0 ∨ mode = 1 ∨ mode = 2) : (refit mode).headOf 0 0x02 = some (refitting mode)
    ∧ (refitting mode).refitDock 0 = 0 ∧ (refitting mode).refitMode = mode
    ∧ (((refit mode).dock 0).held || (refit mode).calibrating 0 || (refit mode).dieCalibrating (dockDie 0)) = false
    ∧ (refit mode).refitRefuses (refitting mode) 0 = 0 ∧ ((refit mode).dockEntry (refitting mode) 0).isSome = true := by
  obtain rfl | rfl | rfl := h <;> decide +kernel
def entry0 : DockMap := ⟨0, 0, 0, 0, 4, 4, 0, 16⟩
def isDone {ε α β : Type} : Except ε (α × Option β) → Bool
  | .ok (_, some _) => true
  | _ => false
def refitStart (mode : Nat) : State :=
  let w := refitWrites (refit mode) (refitting mode)
  ((refit mode).work.openPass (refitting mode) 0).startedAs 0 (refitting mode) (refitReads (refit mode) (refitting mode) ++ w) w
theorem test_w_refit_slots (mode : Nat) (h : mode = 0 ∨ mode = 1 ∨ mode = 2) : ∃ slots, (refit mode).ferryRead 0 ((refit mode).placeOf (some 0)
    (refitting mode).ctx (refitReads (refit mode) (refitting mode)) false) = .ok slots := by
  obtain rfl | rfl | rfl := h <;> exact isOk_iff (by decide +kernel)
theorem test_w_refit_program : isDone ((refitStart 0).refitRun 0 (refitting 0) 0 entry0 []) = true := by decide +kernel
theorem test_w_refit_scan : ∃ x, (refitStart 1).scanRun 0 (refitting 1) 0 entry0 = .ok x := isOk_iff (by decide +kernel)
theorem test_w_refit_readback : ∃ x, (refitStart 2).readbackRun 0 (refitting 2) 0 true = .ok x := isOk_iff (by decide +kernel)
theorem test_w_refit_refused : ({ refit 0 with retiredDocks := [(0, 1)] }).refitRefuses (refitting 0) 0 ≠ 0
    ∧ ({ refit 0 with retiredDocks := [(0, 1)] }).headOf 0 0x02 = some (refitting 0) := by decide +kernel
def pass : Pass := ⟨0, false, 0, 3, 0, [], [], false, false, [], [], none, false, true⟩
def closing : State := (mapped running).setDock 0 { Dock.empty with programmed := true, pass := some pass }
def endOf (x : CloseEnd) : Nat := match x with
  | .done _ => 0
  | .spent _ => 1
  | .fault _ _ => 2
theorem test_w_pass_close : (closing.dock 0).pass = some pass ∧ pass.closing = true ∧ (closing.dock 0).job = none := by decide +kernel
theorem test_w_pass_done : endOf (closing.closeWork 0 pass []) = 0 ∧ endOf (({ closing with tlbs := [] }).closeWork 0 pass []) = 2 := by decide +kernel
def handed : State := running.setDock 0 { Dock.empty with job := some (0, 7, true) }
theorem test_w_refit_done : (handed.dock 0).job = some (0, 7, true) := by decide +kernel

def calTask (kind : Nat) : Task := taskW 0x03 0 0 (2 ^ 56 + kind * 2 ^ 54)
theorem test_w_cal_task (kind : Nat) (h : kind = 0 ∨ kind = 1 ∨ kind = 2) : bits ((calTask kind).w 6) 55 54 = kind
    ∧ ((withTask (calTask kind)).interrupting = true → (withTask (calTask kind)).dieCalibrating 0 = false)
    ∧ ((calTask kind).maskDocks 0).find? (withTask (calTask kind)).dockRetired = none
    ∧ begins (withTask (calTask kind)) 0 0x03 (fun _ => true) (calTask kind)
    ∧ ((calTask kind).maskDocks 0).find? ({ withTask (calTask kind) with retiredDocks := [(0, 1)] }).dockRetired = some 0 := by
  unfold begins
  obtain rfl | rfl | rfl := h <;> decide +kernel
def queued (run : Bool) : State := running.setCalQueue 0 [⟨0, .native, [], run, 0, none⟩]
theorem test_w_cal_start : ((queued false).calQueue 0).filter (fun r => !(queued false).dockRetired r.dock) = ⟨0, .native, [], false, 0, none⟩ :: []
    ∧ ({ (queued false) with power := { (queued false).power with convertersOn := true, pwrGood := true } }).calReady ⟨0, .native, [], false, 0, none⟩ = true
    ∧ ((queued true).calQueue 0).find? (fun r => r.running && r.dock == 0) = some ⟨0, .native, [], true, 0, none⟩ := by decide +kernel
def verifying (restore : Option Nat) : State := running.setCalQueue 0 [⟨0, .verify, [], true, 0, restore⟩]
theorem test_w_cal_verdicts : ((verifying none).calQueue 0).find? (fun r => r.running && r.dock == 0) = some ⟨0, .verify, [], true, 0, none⟩
    ∧ ((verifying (some 30)).calQueue 0).find? (fun r => r.running && r.dock == 0) = some ⟨0, .verify, [], true, 0, some 30⟩
    ∧ ((running.setCalQueue 0 [⟨0, .cold, [], true, 1, none⟩]).calQueue 0).find? (fun r => r.running && r.dock == 0)
      = some ⟨0, .cold, [], true, 1, none⟩ := by decide +kernel
theorem test_w_die_cal : mget? ({ running with dieCals := [(0, ⟨[], false, []⟩)] }).dieCals 0 = some ⟨[], false, []⟩
    ∧ ({ running with dieCals := [(0, ⟨[], false, []⟩)] }).dieFree 0 = true ∧ mget? ({ running with dieCals := [(0, ⟨[], true, []⟩)] }).dieCals 0 = some ⟨[], true, []⟩ := by
  decide +kernel

def pushing : Task := taskW 0x30 0 64 (0xFFFF * 2 ^ 32)
def popping : Task := taskW 0x31 0 64 0
def top : HoldEntry := ⟨0, 0, false, false, 0, 0, 64, 128, 0, 0, 0, 0, zeros 64⟩
def held1 : State := (mapped (withTask popping)).setHold 0 { HoldSt.empty with entries := [top], t1 := 128 }
theorem test_w_pop : (held1.hold 0).entries = top :: [] ∧ held1.popCheck 0 popping = 0 ∧ top.mark = false ∧ top.size ≤ (held1.hold 0).t1 := by
  decide +kernel
def popBody : Body := ⟨fun _ _ => [], fun s k => match (s.hold 0).entries with
            | e :: _ => if e.mark then [] else popWrites s k
            | [] => [], State.popRun⟩
theorem test_w_pop_runs : ∃ t, runs held1 0 0x31 (fun _ => true) popBody popping t :=
  runs_of (by unfold begins; decide +kernel) (by decide +kernel) (by decide +kernel) (by decide +kernel)
def holder : State := { mapped (withTask pushing) with plan := some { plan with tiles := [⟨0, 64, 0, 2, false⟩] } }
def pushBody : Body := ⟨pushReads, fun _ _ => [], State.pushRun⟩
theorem test_w_push : holder.headOf 0 0x30 = some pushing ∧ ∃ t, runs (holder.pushPrep 0 pushing) 0 0x30 (fun _ => true) pushBody pushing t :=
  ⟨by decide +kernel, runs_of (by unfold begins; decide +kernel) (by decide +kernel) (by decide +kernel) (by decide +kernel)⟩
theorem test_w_mover : held1.mover 0 = some 0 ∧ held1.tileCtx 0 = some 0 ∧ 0 < (held1.hold 0).t1 := by decide +kernel
def moving (kind : HoldMoveKind) : State := held1.setHold 0 { held1.hold 0 with move := some (kind, 0) }
theorem test_w_move : ((moving .fetch).hold 0).move = some (.fetch, 0) ∧ (match (moving .fetch).moveHaul 0 0 (.fetch, 0) with
    | none => false
    | some x => isOk ((moving .fetch).haul 0 0 .both x)) = true := by decide +kernel

theorem test_w_move_none : ((moving .evict).hold 0).move = some (.evict, 0) ∧ (moving .evict).moveHaul 0 0 (.evict, 0) = none := by decide +kernel
/-- A hold with room in tier 2, its tier 1 low. -/
def spilling (t2 : List (Nat × Nat)) : State :=
  (({ held1 with plan := some { plan with tiles := [⟨0, 64, 0, 2, false⟩], holds := [⟨0, 2 ^ 24, 2 ^ 24, 0, 0⟩] } }.setHold 0
    { held1.hold 0 with x2 := t2 }).put 0x2600 1 1000).put 0x2600 2 0
theorem test_w_spill : 0 < ((spilling []).hold 0).t1 ∧ (spilling []).holdFree 0 < (spilling []).get 0x2600 1 * 1024
    ∧ ((spilling []).reserveLow 0 0 (min segmentBytes ((spilling []).hold 0).t1)).map (·.2) = some [] ∧ (spilling []).mover 0 = some 0 := by
  decide +kernel
theorem test_w_prefetch : (spilling [(0, 128)]).canFetch 0 = true ∧ (spilling [(0, 128)]).get 0x2600 2 * 1024 ≤ (spilling [(0, 128)]).holdFree 0 := by
  decide +kernel
theorem test_w_canonical : State.reset.Canonical ∧ ({ State.reset with mem := [⟨1, 2⟩, ⟨9, 1⟩] }).Canonical := by
  constructor <;> (unfold State.Canonical; decide)
theorem test_w_tlb : running.tileCtx 0 = some 0 ∧ (running.tlb 0).any (fun e => e.covers (0x5000 % 2 ^ 48)) = false := by decide +kernel
/-- A root table at 0x1000, the next level at 0x2000 with a 1 GiB leaf at address 0 of DRAM. -/
def tabled : State := { running.put (ctxIdx 0) 1 0x1000 with mem := [⟨0x1000, 1⟩, ⟨0x1001, 0x20⟩, ⟨0x2000, 0xF⟩] }
theorem test_w_walk (write : Bool) : tabled.tileCtx 0 = some 0 ∧ tabled.operating = true ∧ (tabled.tlb 0).any (fun e => e.covers (0x5000 % 2 ^ 48)) = false
    ∧ ∃ x, tabled.translate (some 0) 0 (0x5000 % 2 ^ 48) (if write then .write else .read) = .ok x := by
  cases write <;> exact ⟨by decide +kernel, by decide +kernel, by decide +kernel, isOk_iff (by decide +kernel)⟩
theorem test_w_invalidate : ({ running with inval := some ⟨0, 0, 65536⟩ }).inval = some ⟨0, 0, 65536⟩
    ∧ ({ running with inval := some ⟨0, 0, 65536⟩ }).rangeBusy 0 0 65536 = false
    ∧ (withTask { task 0x10 with outstanding := 1, written := [(0, 1)] }).rangeBusy 0 0 65536 = true
    ∧ ((mapped running).tlb 0).any (fun e => e.covers (0x5000 % 2 ^ 48)) = true
    ∧ isOk (running.translate (some 0) 0 (0x5000 % 2 ^ 48) .read) = false := by decide +kernel
theorem test_w_data_errors : (withTask (task 0x10)).operating = true ∧ (withTask (task 0x10)).struckTask 0 = some (task 0x10)
    ∧ running.struckTask 0 = none ∧ running.tileCtx 0 = some 0 ∧ (0 : Nat) < 1 ∧ (1 : Nat) ≤ 4 ∧ (4 : Nat) < 5
    ∧ (withTask (task 0x10)).plan.isSome = true ∧ (withTask (task 0x10)).tileState 0 ≠ 2 ∧ (0 : Nat) < sramBase
    ∧ (withTask (task 0x10)).linkUp 0 = true ∧ (withTask (task 0x10)).tileCtx 0 = some 0
    ∧ hostWindowBase 0 ≤ hostWindowBase 0 + hostWindowBytes - 1 ∧ hostWindowBase 0 + hostWindowBytes - 1 < hostWindowBase 0 + hostWindowBytes := by
  decide +kernel

/-! The fabric. -/

/-- Fairway port 0 is up and carries messages. -/
def up : State := (((running.put (portIdx 0) 2 2).put 0x2200 1 0).put 0x2200 2 0)
theorem test_w_land : (∃ f, landRow (.msgPut 0 message) = some (0, message, f)) ∧ arrives up 0 message := by
  refine ⟨⟨_, rfl⟩, ?_⟩
  unfold arrives
  decide +kernel
theorem test_w_land_data : isOk ((landed (mapped { up with ctxs := [] }) 0 message).writeNow none 0 0 []) = true
    ∧ isOk ((landed up 0 { message with payload := [1] }).writeNow none 0 0 [1]) = false
    ∧ arrives up 0 { message with payload := [1], increment := 1, bollard := 9 }
    ∧ (landed up 0 { message with increment := 1, bollard := 9 }).bollardOwner 9 = none := by
  unfold arrives
  decide +kernel
theorem test_w_transit : (up.operating = true ∨ up.power.pst = .nap) ∧ up.linkState (0 : HawserPort).val = 2
    ∧ ¬(up.ownDom = ({ message with dstPkg := 9 } : Msg).dstDom ∧ up.ownPkg = ({ message with dstPkg := 9 } : Msg).dstPkg) := by decide +kernel
/-- A GET of tile 0's head task awaits one answer under transfer 0. -/
def asking : State :=
  { mapped up with tiles := [(0, { Tile.empty with tasks := [{ task 0x41 with st := .running, unanswered := [0] }] })],
                   fabric := { up.fabric with xfers := [(0, ⟨.task 0 7, 0, 0, 1, 0, 1, false⟩)] } }
theorem test_w_answers : arrives asking 0 message ∧ message.convoy = 0xFFFF
    ∧ (landed asking 0 message).xfer? message.transfer = some ⟨.task 0 7, 0, 0, 1, 0, 1, false⟩
    ∧ (((landed asking 0 message).tile 0).tasks.find? (fun k => k.id == 7)).isSome = true ∧ (landed asking 0 message).relay? 0 = none
    ∧ field message.typeData 0 1 ≠ 0x10 ∧ (landed asking 0 message).convoyDef 9 = none
    ∧ isOk ((landed asking 0 message).writeNow (some 0) 0 message.dstAddr message.payload) = true
    ∧ isOk ((landed asking 0 message).readNow none 0 message.srcAddr 0) = true ∧ isOk ((landed asking 0 message).readNow none 0 0 8) = false
    ∧ isOk ((landed { asking with tlbs := [] } 0 message).writeNow (some 0) 0 0 [1]) = false := by
  unfold arrives
  decide +kernel
def relay0 : Relay := ⟨0, 2, 0, none, 0, 0, 0, 0, 0, 0, false, 1, false, 0, []⟩
def relaying (r : Relay) : State := { up with fabric := { up.fabric with relays := [r] } }
theorem test_w_relay : arrives (relaying relay0) 0 message ∧ (landed (relaying relay0) 0 message).relay? message.transfer = some relay0
    ∧ ¬(relay0.last = true ∧ relay0.floor = relay0.count) ∧ (relaying relay0).xfer? 0 = none ∧ (relaying relay0).relay? 0 = some relay0
    ∧ ({ relay0 with last := true, acked := 1 } : Relay).last = true ∧ ({ relay0 with last := true, acked := 1 } : Relay).floor = 1 := by
  unfold arrives
  decide +kernel
/-- A recovery of a lost part awaits the answer of transfer 0. -/
def recovering : State :=
  { up with fabric := { up.fabric with xfers := [(0, ⟨.recovery 0, 0, 0, 1, 0, 1, false⟩)], recovs := [⟨2, 5, 0, 0, 0, 0, 0, 0, 0, 0, false⟩] } }
theorem test_w_recovery : (landed recovering 0 message).xfer? message.transfer = some ⟨.recovery 0, 0, 0, 1, 0, 1, false⟩
    ∧ (landed recovering 0 message).fabric.recovs.find? (fun r => r.xfer == message.transfer) = some ⟨2, 5, 0, 0, 0, 0, 0, 0, 0, 0, false⟩ := by
  decide +kernel
/-- A convoy of which this package is the root and package 4 the child. -/
def convoyed : State := { up with plan := some { plan with convoys := [⟨2, [⟨0, 0xFFFF, 0⟩, ⟨4, 0, 0⟩]⟩] } }
theorem test_w_reply : field ([0x10] : List Byte) 0 1 = 0x10
    ∧ ((landed convoyed 0 { message with convoy := 2, srcPkg := 4, typeData := [0x10] }).convoyKids 2).contains 4 = true
    ∧ arrives convoyed 0 { message with convoy := 2, srcPkg := 4, typeData := [0x10] } := by
  unfold arrives
  decide +kernel
theorem test_w_detach : ((landed up 0 message).convoyDef 2).isSome = true
    ∧ (landed up 0 message).fabric.recovs.any (fun r => r.tid == message.transfer) = false
    ∧ ({ up with fabric := { up.fabric with recovs := [⟨2, 0, 0, 0, 0, 0, 0, 0, 0, 0, false⟩] } }).fabric.recovs.any
      (fun r => r.tid == message.transfer) = true := by decide +kernel
theorem test_w_links : (up.port 0).credits.getD 7 0 < (up.setPort 0 { up.port 0 with credits := [] }).get 0x7030 8 + 1
    ∧ ((up.setPort 0 { up.port 0 with credits := [] }).port 0).credits.getD 7 0 < (up.setPort 0 { up.port 0 with credits := [] }).get 0x7030 8
    ∧ (up.put (portIdx 0) 2 3).linkState (0 : HawserPort).val = 3 ∧ ((up.put (portIdx 0) 2 3).port 0).tx = ((up.put (portIdx 0) 2 3).port 0).acked
    ∧ up.fabricDef 1 = some ⟨1, 1, 0, 0, 0, 0⟩ ∧ (up.put (portIdx 1) 2 1).linkState (1 : HawserPort).val = 1
    ∧ up.fabricDef 0 = some ⟨0, 2, 1, 3, 7, 0⟩ ∧ (up.put (portIdx 0) 2 1).linkState (0 : HawserPort).val = 1 := by decide +kernel
def resending (x : Port) : State := up.setPort 0 x
def flits (r : Nat × Nat) : Port := ⟨[], 5, 2, [], [], [], r, 0, []⟩
theorem test_w_resend : ((resending (flits (0, 0))).port 0).tx = 5 ∧ (resending (flits (0, 0))).linkState (0 : HawserPort).val = 2
    ∧ (5 + 4096 - 3 % 4096) % 4096 = 2 ∧ (2 : Nat) ≤ (flits (0, 0)).tx - (flits (0, 0)).acked ∧ (flits (0, 0)).retry.1 ≠ (flits (0, 0)).tx - 2
    ∧ (flits (3, 7)).retry = ((flits (3, 7)).tx - 2, 7) ∧ (flits (3, 6)).retry = ((flits (3, 6)).tx - 2, 6) := by decide +kernel
theorem test_w_retrain : up.linkState (0 : HawserPort).val = 2
    ∧ (up.timer :: (up.port 0).retrains.filter (fun t => decide (up.timer ≤ t + 10000000000))).length ≤ up.get 0x7001 4
    ∧ (up.put 0x7001 4 0).get 0x7001 4 < ((up.put 0x7001 4 0).timer :: ((up.put 0x7001 4 0).port 0).retrains.filter
      (fun t => decide ((up.put 0x7001 4 0).timer ≤ t + 10000000000))).length := by decide +kernel
theorem test_w_credit : (flits (0, 0)).tx - (flits (0, 0)).acked = 3 ∧ (7 : Nat) < 8 ∧ (up.port 0).credits.length = 8 := by decide +kernel
def edged (held : Bool) : State := { up with fabric := { up.fabric with edges := [(edgeKey 2 4, ⟨0, [message], false, held⟩)] } }
theorem test_w_silent : asking.xfer? 0 = some ⟨.task 0 7, 0, 0, 1, 0, 1, false⟩ ∧ ((edged true).edge 2 4).waiting ≠ []
    ∧ ((edged true).edge 2 4).detached = false ∧ ((edged true).edge 2 4).held = true ∧ ((edged false).edge 2 4).held = false := by decide +kernel
def inst0 (phase : Nat) : Inst := ⟨0, 0, [2 ^ 60], [false], [1], [], true, some 0, 0, 0, phase, 1⟩
def bucket (phase : Nat) : State := running.setInst (instKey 0 false 3) (inst0 phase)
theorem test_w_bucket : (bucket 0).inst? (instKey 0 ((0 : Nat) == 1) 3) = some (inst0 0) ∧ (inst0 0).timer = some 0 ∧ (inst0 0).phase = 0
    ∧ (bucket 0).timer < 0 + (inst0 0).deadline * 1000
    ∧ 0 + (inst0 0).deadline * 1000 ≤ ({ bucket 0 with timer := 1000 }).timer := by decide +kernel
theorem test_w_bucket_close : (bucket 1).inst? (instKey 0 ((0 : Nat) == 1) 3) = some (inst0 1) ∧ (inst0 1).phase = 1
    ∧ (bucket 1).weigh.closing.find? (fun e => e.1 == instKey 0 false 3) = none
    ∧ (({ bucket 0 with weigh := { (bucket 0).weigh with closing := [(instKey 0 false 3, inst0 1)] } }).weigh.closing.find?
      (fun (e : Nat × Inst) => e.1 == instKey 0 false 3)).isSome = true
    ∧ maxFinite (closeValues (inst0 1) ((0 : Nat) == 1)) = 1 ∧ maxFinite (closeValues { inst0 1 with acc := [0] } false) = 0 := by decide +kernel

/-! Securing, the lighthouse, the host link, management, security. -/

def copy (stage : Nat) (swapping committed : Bool) : CopySt := ⟨1, 8, 0, stage, [], [], committed, swapping, zeros 64, []⟩
def copying (stage : Nat) (swapping committed : Bool) (deferred : Option Nat) : State :=
  { running with secure := { running.secure with copy := some (copy stage swapping committed), deferred := deferred } }
theorem test_w_copy : (copying 2 false false none).secure.copy = some (copy 2 false false) ∧ (copy 2 false false).stage = 2 ∧ (copy 2 false false).left = 0
    ∧ (copy 4 true true).stage = 4 ∧ (copying 2 false false none).timer < 0 + (copying 2 false false none).get 0x8200 10 * 1000000
    ∧ 0 + ((copying 2 false false none).put 0x8200 10 0).get 0x8200 10 * 1000000 ≤ ((copying 2 false false none).put 0x8200 10 0).timer := by decide +kernel
def swapped (s : State) (cp : CopySt) : State := { (s.swapCopy s.secureCtx cp.marks).flipLive with secure := { (s.swapCopy s.secureCtx cp.marks).flipLive.secure with copy := none } }
theorem test_w_swap : (swapped (copying 2 true false none) (copy 2 true false)).secure.deferred = none
    ∧ (swapped (copying 2 true false (some 9)) (copy 2 true false)).secure.deferred ≠ none := by decide +kernel
/-- A record without chunks is loading, from the local half. -/
def loading (status : Nat) : State := { (running.put 0x8202 5 status).put 0x8202 1 2 with secure := { running.secure with loading := zeros 4096 } }
theorem test_w_load : (loading 1).get 0x8202 5 = 1 ∧ (loading 1).get 0x8202 1 = 2 ∧ ((loading 1).loadData (loading 1).loadingHead []).2 = none
    ∧ ((loading 1).loadData (loading 1).loadingHead []).1.chunksGood (loading 1).loadingHead = true ∧ (loading 3).get 0x8202 5 = 3
    ∧ ((loading 3).regions.zipIdx.filter (fun p => p.1.replicaPkg != 0xFFFF)).map (fun p => (loading 3).regionDigests p.2) = ([] : List (List Nat)) := by
  decide +kernel

/-- A header of one chunk, and that chunk's entry. -/
def badRecord : List Byte := zeros 48 ++ [1] ++ zeros 4047 ++ zeros 64
/-- One region whose replica stands at package 0. -/
def oneRegion : List Byte := zeros 32
/-- A record of one chunk that names no region, loading from the live half of another place. -/
def badLoad (dest : Nat) : State := { (running.put 0x8202 5 1).put 0x8202 1 dest with secure := { running.secure with loading := badRecord } }
theorem test_w_load_fails : (badLoad 0).get 0x8202 5 = 1 ∧ ((badLoad 0).loadData (badLoad 0).loadingHead []).2 = some 0x7011
    ∧ ((badLoad 2).loadData (badLoad 2).loadingHead []).2 = none
    ∧ ((badLoad 2).loadData (badLoad 2).loadingHead []).1.chunksGood (badLoad 2).loadingHead = false := by decide +kernel
/-- A VERIFY of one region with a replica: the replica's digests are its operand. -/
def verifying1 : State := { loading 3 with blobs := [(key 0x8210 0, oneRegion)] }
theorem test_w_verify : ((verifying1.regions.zipIdx.filter (fun p => p.1.replicaPkg != 0xFFFF)).map (fun p => verifying1.regionDigests p.2)).length = 1 := by
  decide +kernel

theorem test_w_lighthouse : running.power.pst ≠ .off ∧ running.lh.conv0.todo = [] ∧ running.lh.conv1.todo = []
    ∧ (({ running with lh := { running.lh with conv0 := ⟨false, [3]⟩ } }).conv 0).todo = 3 :: [] ∧ running.power.hmRunning = true
    ∧ ({ running with lh := { running.lh with conv0 := ⟨false, [3]⟩ } }).lh.conv0.todo ≠ [] ∧ running.power.pst ≠ .aux ∧ running.power.pst ≠ .sleep := by
  decide +kernel
theorem test_w_adc : running.windowReady (0 : HostPort).val = true ∧ running.windowReady (1 : HostPort).val = false
    ∧ isOk (running.readAccess (.win 0) (0x9001 + 1) 0) = true ∧ isOk (running.readAccess .odp (0x9001 + 1) 0) = true := by decide +kernel
def link (p : Nat) : State :=
  (({ running with power := { running.power with pwrGood := true } }.setHl p { HostSt.reset with perst := false }).put (0x1300 + p) 1 1)
theorem test_w_link : ((link 0).hl 0).perst = false ∧ (link 0).power.pwrGood = true ∧ (link 0).get 0x1300 1 = 1 ∧ linkSupported 64 16 = true
    ∧ running.linkUp 0 = true ∧ running.operating = true := by decide +kernel
theorem test_w_config : (link 1).windowReady 0 = true ∧ (link 1).windowReady 1 = false ∧ ((link 1).hl 1).perst = false := by decide +kernel
def decoding : State := running.setHl 0 { HostSt.reset with decoder := 2 ^ 28, filter := [(64, 1)] }
theorem test_w_host : decoding.linkUp 0 = true ∧ 0x1000 / 64 * 64 + 64 ≤ min (decoding.hl 0).decoder reservedBase
    ∧ ((decoding.hl 0).waiting ++ (decoding.hl 1).waiting).any (fun w => w.pa == 0x1000 / 64 * 64) = false
    ∧ decoding.hdmSnoops 0 (0x1000 / 64 * 64) (.read true) = [] ∧ mget? (decoding.hl 0).filter (100 / 64 * 64) ≠ none
    ∧ decoding.hl0.waiting = [] ∧ decoding.hl1.waiting = [] := by decide +kernel
/-- The other host holds the line, or an access waits for it. -/
def snooping (waits : Bool) : State := decoding.setHl 1 { HostSt.reset with filter := [(0x1000, 3)], waiting := if waits then [⟨1, 0x1000, .read true, [(1, 0x1000)]⟩] else [] }
theorem test_w_host_waits : (snooping false).hdmSnoops 0 (0x1000 / 64 * 64) (.read true) ≠ []
    ∧ (((snooping false).hl 0).waiting ++ ((snooping false).hl 1).waiting).any (fun w => w.pa == 0x1000 / 64 * 64) = false
    ∧ (((snooping true).hl 0).waiting ++ ((snooping true).hl 1).waiting).any (fun w => w.pa == 0x1000 / 64 * 64) = true
    ∧ (snooping true).linkUp 0 = true ∧ (snooping true).operating = true := by decide +kernel
theorem test_w_notice : ({ running with notice := ⟨true, true, 1, false⟩ }).notice.unacked ≠ 0
    ∧ ({ running with notice := ⟨true, true, 1, true⟩ }).notice.outstanding = true := by decide
theorem test_w_doe : running.doeUp (0 : HostPort).val = true := by decide +kernel
def spdm (a b c : Bool) : State := { running with spdmOdp := ⟨a, b, c, []⟩ }
theorem test_w_spdm : ((spdm true true true).spdmConn .odp).algorithms = true ∧ ((spdm true true false).spdmConn .odp).capabilities = true
    ∧ ((spdm false false false).spdmConn .odp).version = false := by decide
theorem test_w_mgmt : ported.mgmt.running = true ∧ ported.get 0x1400 7 = 1 ∧ (ported.put 0x1400 7 0).get 0x1400 7 = 0
    ∧ (ported.put 0x1400 1 254).follower = true := by decide +kernel
def tapped (i : TapInstr) : State := { inState .aux with tap := ⟨i, 0⟩ }
theorem test_w_tap : (tapped .extest).power.pst = .aux ∧ (tapped .extest).tap.ir = .extest ∧ (tapped (.priv 9)).tap.ir = .priv 9
    ∧ State.reset.tap.ir = .idcode ∧ running.power.pst ≠ .aux ∧ ({ running with dbg := { running.dbg with on := true } }).dbg.on = true ∧ running.dbg.on = false := by decide
def fwWriting : State := { running with fw := { running.fw with writing := some FwSlot.empty } }
theorem test_w_firmware : fwWriting.fw.writing = some FwSlot.empty ∧ fwWriting.fw.writer = none := ⟨rfl, rfl⟩
theorem test_w_image : fwWriting.fwImageClose [] = .error 0xA00A ∧ ((running.put 0x9001 0 0).fw.slot 1).svn = 0 := by
  constructor
  · rfl
  · rfl
theorem test_w_key_hash : (∃ u, (inState .aux).debugKeySet (zeros 48) = .ok u) ∧ (inState .aux).debugKeySet (zeros 47) = .error 0xA008 :=
  ⟨isOk_iff (by decide +kernel), by decide +kernel⟩
/-- An upload of object idx is open over ODP. -/
def busy (idx : Nat) : State := { running with odp := { running.odp with xfers := [⟨0, 0, idx, 0, false, 0, []⟩] } }
theorem test_w_token : running.transferOpen 0xC030 = false ∧ (busy 0xC030).transferOpen 0xC030 = true ∧ (busy 0xC031).transferOpen 0xC031 = true
    ∧ (busy 0xC020).transferOpen 0xC020 = true ∧ running.transferOpen 0xC020 = false ∧ running.transferOpen 0xC031 = false
    ∧ (zeros 224).length = 224 ∧ (zeros 223).length ≠ 224 ∧ debugTokenOk running (zeros 224) = false := by decide +kernel
theorem test_w_expiry : ({ running with dbg := { running.dbg with on := true, until_ := 9 } }).timer < 9 ∧ (9 : Nat) ≤ ({ running with timer := 9 }).timer := by
  decide
def olderImage : State := { (running.put 0xC011 0 9) with fw := { running.fw with slotA := FwSlot.empty } }
theorem test_w_slot_svn : (olderImage.fw.slot 0).svn < olderImage.arb := by decide +kernel
theorem test_w_codes : levelsOf (-255) = [0, 15, 0, 15] ∧ (0 : Int) < 1 ∧ (-1 : Int) < 0 := by decide

end Sys2Proof.Tests
end

/-! Supply faults (R5, R479, R487, R490): the two faults that end in AUX are one operation, and so are the two losses that end in OFF. -/

namespace Sys2Proof.Machine

open Sys2Proof.Claims

/-! ## Down to AUX: `State.bootFail` is the fall with its device fault -/

/-- The device fault of a fall to AUX is the newest event (R73). -/
theorem State.bootFail_newest (s : State) (code : Nat) : newest (s.bootFail code) code deviceFault :=
  State.logHard_newest _ _

/-- Undervoltage takes a device that runs above AUX down, with 0x8001 (R5, R487). -/
theorem exec_inputUndervoltage {s : State} (hoff : s.power.pst ≠ .off) (haux : s.power.pst ≠ .aux) :
    exec .inputUndervoltage s = .next (s.bootFail 0x8001) :=
  congrArg Host.Outcome.next (if_neg (not_or_intro hoff haux))

/-- A regulator fault takes a device that runs above AUX down, with 0x8009 (R479, R487). -/
theorem exec_regulatorFault {s : State} (hoff : s.power.pst ≠ .off) (haux : s.power.pst ≠ .aux) :
    exec .regulatorFault s = .next (s.bootFail 0x8009) :=
  congrArg Host.Outcome.next (if_neg (not_or_intro hoff haux))

/-! ## Down to OFF: the log may tear, the device falls, and nothing runs any more -/

/-- The device as a lost supply leaves it; `overvoltage` says whether the overvoltage latch is set (R5, R490). -/
def State.supplyGone (s : State) (cause : Nat) (overvoltage : Bool) : State := (s.tearLog.fallTo .off cause).goDark overvoltage

/-- Overvoltage opens the input switches: OFF, with cause 0x8002 and the latch set (R5, R487). -/
theorem exec_inputOvervoltage (s : State) : exec .inputOvervoltage s = .next (s.supplyGone 0x8002 true) := rfl

/-- Loss of the supply in a device that has one: OFF (R490). -/
theorem exec_powerLoss {s : State} (hoff : s.power.pst ≠ .off) : exec .powerLoss s = .next (s.supplyGone 0 false) :=
  congrArg Host.Outcome.next (if_neg hoff)

@[simp] theorem State.goDark_pst (s : State) (ov : Bool) : (s.goDark ov).power.pst = s.power.pst := rfl
@[simp] theorem State.goDark_ovLatch (s : State) (ov : Bool) : (s.goDark ov).power.ovLatch = (s.power.ovLatch || ov) := rfl
@[simp] theorem State.goDark_get (s : State) (ov : Bool) (i a : Nat) : (s.goDark ov).get i a = s.get i a := rfl
@[simp] theorem State.goDark_running (s : State) (ov : Bool) : (s.goDark ov).mgmt.running = false := rfl
@[simp] theorem State.goDark_plan (s : State) (ov : Bool) : (s.goDark ov).plan = s.plan := rfl
@[simp] theorem State.goDark_tiles (s : State) (ov : Bool) : (s.goDark ov).tiles = s.tiles := rfl

@[simp] theorem State.supplyGone_pst (s : State) (cause : Nat) (ov : Bool) : (s.supplyGone cause ov).power.pst = .off := by
  simp [State.supplyGone]
@[simp] theorem State.supplyGone_cause (s : State) (cause : Nat) (ov : Bool) : (s.supplyGone cause ov).get 0xB000 6 = cause := by
  simp [State.supplyGone]
@[simp] theorem State.supplyGone_running (s : State) (cause : Nat) (ov : Bool) : (s.supplyGone cause ov).mgmt.running = false := rfl
@[simp] theorem State.supplyGone_plan (s : State) (cause : Nat) (ov : Bool) : (s.supplyGone cause ov).plan = none := by
  simp [State.supplyGone]
@[simp] theorem State.supplyGone_tiles (s : State) (cause : Nat) (ov : Bool) : (s.supplyGone cause ov).tiles = [] := by
  simp [State.supplyGone]
/-- After an overvoltage the latch is set, whatever it was before (R5). -/
theorem State.supplyGone_ovLatch (s : State) (cause : Nat) : (s.supplyGone cause true).power.ovLatch = true := by
  simp [State.supplyGone]

/-! ## The statement -/

/-- Settles O16: each of the four rows is one of the two falls above, whose lemmas give what reads back. -/
theorem supplyFaultsTakeTheDeviceDown : Obligations.SupplyFaultsTakeTheDeviceDown := by
  intro s hoff
  refine ⟨fun haux => ⟨?undervoltage, ?regulator⟩, ?overvoltage, ?loss⟩
  case undervoltage =>
    exact ⟨_, exec_inputUndervoltage hoff haux, s.bootFail_pst _, s.bootFail_cause _, s.bootFail_newest _⟩
  case regulator =>
    exact ⟨_, exec_regulatorFault hoff haux, s.bootFail_pst _, s.bootFail_cause _, s.bootFail_newest _⟩
  case overvoltage =>
    exact ⟨_, exec_inputOvervoltage s, s.supplyGone_pst _ _, s.supplyGone_cause _ _, s.supplyGone_ovLatch _,
      s.supplyGone_running _ _, s.supplyGone_plan _ _, s.supplyGone_tiles _ _⟩
  case loss =>
    exact ⟨_, exec_powerLoss hoff, s.supplyGone_pst _ _, s.supplyGone_running _ _, s.supplyGone_plan _ _, s.supplyGone_tiles _ _⟩

end Sys2Proof.Machine

/-! Every command answers a next state and keeps what no command may undo (O3). -/

namespace Sys2Proof.Machine

/-- From OFF, power-on numbers on from the persisted log first, so it has the effect it has on the resumed state (R72). -/
theorem exec_powerOn_resumed {s : State} (hoff : s.power.pst = .off) : exec .powerOn s = exec .powerOn s.resumed := by
  have hoff' : s.resumed.power.pst = .off := hoff
  unfold exec execPowerOn
  rw [if_neg (not_not.mpr hoff), if_neg (not_not.mpr hoff')]
  rfl

theorem State.before_powerOn {s : State} (hoff : s.power.pst = .off) : s.before .powerOn = s.resumed := if_pos ⟨rfl, hoff⟩
theorem State.before_running {s : State} (c : Instr) (hon : s.power.pst ≠ .off) : s.before c = s := if_neg fun h => hon h.2
theorem State.before_other (s : State) {c : Instr} (hc : c ≠ .powerOn) : s.before c = s := if_neg fun h => hc h.1

/-- Every command but power-on, one law of its row each. -/
theorem exec_keeps (s : State) {c : Instr} (hc : c ≠ .powerOn) : ∃ t, exec c s = .next t ∧ s.Keeps t := by
  have h := keeps_refl s
  cases c with
  | inputUndervoltage => exact execInputUndervoltage_keeps h
  | inputOvervoltage => exact execInputOvervoltage_keeps h
  | powerOn => exact absurd rfl hc
  | clampCheck neMv swMv => exact execClampCheck_keeps h neMv swMv
  | converterFailure n => exact execConverterFailure_keeps h n
  | regulatorFault => exact execRegulatorFault_keeps h
  | pkgResetAssert => exact execPkgResetAssert_keeps h
  | pkgResetRelease => exact execPkgResetRelease_keeps h
  | powerStart src => exact execPowerStart_keeps h src
  | powerNap src => exact execPowerNap_keeps h src
  | napEntry => exact execNapEntry_keeps h
  | powerWake src => exact execPowerWake_keeps h src
  | powerSleep src => exact execPowerSleep_keeps h src
  | powerShutdown src => exact execPowerShutdown_keeps h src
  | shutdownDone => exact execShutdownDone_keeps h
  | idleTimeout => exact execIdleTimeout_keeps h
  | firmwareVerifyDone pass => exact execFirmwareVerifyDone_keeps h pass
  | startupRegulatorsUp => exact execStartupRegulatorsUp_keeps h
  | harbourmasterStart => exact execHarbourmasterStart_keeps h
  | harbourmasterStartTimeout => exact execHarbourmasterStartTimeout_keeps h
  | dramTrainingDone failedStacks badMetaDocks => exact execDramTrainingDone_keeps h failedStacks badMetaDocks
  | dramTrainingTimeout => exact execDramTrainingTimeout_keeps h
  | settleCapTimeout => exact execSettleCapTimeout_keeps h
  | defaultObjectsLoaded => exact execDefaultObjectsLoaded_keeps h
  | powerLoopTick neMv swMv neDa swDa => exact execPowerLoopTick_keeps h neMv swMv neDa swDa
  | dvfsStepDone die => exact execDvfsStepDone_keeps h die
  | inputDroop => exact execInputDroop_keeps h
  | droopRecovery => exact execDroopRecovery_keeps h
  | dictWrite port offset size value => exact execDictWrite_keeps h port offset size value
  | windowAccessRefused port offset size isWrite value => exact execWindowAccessRefused_keeps h port offset size isWrite value
  | lastAbortRead port => exact execLastAbortRead_keeps h port
  | dacSetTarget port ch ctrl => exact execDacSetTarget_keeps h port ch ctrl
  | dacParamWrite port ch reg value => exact execDacParamWrite_keeps h port ch reg value
  | dacOpen port ch ctrl => exact execDacOpen_keeps h port ch ctrl
  | dacXfer port ch ctrl buf => exact execDacXfer_keeps h port ch ctrl buf
  | dacSegmentDone port ch => exact execDacSegmentDone_keeps h port ch
  | dacClose port ch ctrl => exact execDacClose_keeps h port ch ctrl
  | dacAbort port ch ctrl => exact execDacAbort_keeps h port ch ctrl
  | dacTimeout port ch => exact execDacTimeout_keeps h port ch
  | odpReadReq f => exact execOdpReadReq_keeps h f
  | odpWriteReq f => exact execOdpWriteReq_keeps h f
  | odpUploadInit f => exact execOdpUploadInit_keeps h f
  | odpUploadSegReq f => exact execOdpUploadSegReq_keeps h f
  | odpDownloadInit f => exact execOdpDownloadInit_keeps h f
  | odpDownloadSeg f => exact execOdpDownloadSeg_keeps h f
  | odpTransferAbort f => exact execOdpTransferAbort_keeps h f
  | odpDiscover f => exact execOdpDiscover_keeps h f
  | odpUnknownFrame f => exact execOdpUnknownFrame_keeps h f
  | odpTransferTimeout n => exact execOdpTransferTimeout_keeps h n
  | storeSave src => exact execStoreSave_keeps h src
  | storeDefaults src => exact execStoreDefaults_keeps h src
  | storeSaveDone ok => exact execStoreSaveDone_keeps h ok
  | eventLogPersist => exact execEventLogPersist_keeps h
  | positionApply src value => exact execPositionApply_keeps h src value
  | planLoad src => exact execPlanLoad_keeps h src
  | planLoadComplete => exact execPlanLoadComplete_keeps h
  | planConfigWriteFail => exact execPlanConfigWriteFail_keeps h
  | planUnload src => exact execPlanUnload_keeps h src
  | planUnloadComplete => exact execPlanUnloadComplete_keeps h
  | selfTestRun src => exact execSelfTestRun_keeps h src
  | selfTestComplete failed => exact execSelfTestComplete_keeps h failed
  | doorbell port offset size value => exact execDoorbell_keeps h port offset size value
  | manifestFetch t => exact execManifestFetch_keeps h t
  | manifestArrive t => exact execManifestArrive_keeps h t
  | berthFlush src berth => exact execBerthFlush_keeps h src berth
  | taskTake t => exact execTaskTake_keeps h t
  | dmaSuspend t => exact execDmaSuspend_keeps h t
  | transferAck t task => exact execTransferAck_keeps h t task
  | taskEnd t => exact execTaskEnd_keeps h t
  | taskSignal t => exact execTaskSignal_keeps h t
  | tallySampleCopyDone c slot => exact execTallySampleCopyDone_keeps h c slot
  | tally t wrong => exact execTally_keeps h t wrong
  | tallyTimeout c slot => exact execTallyTimeout_keeps h c slot
  | gateEvaluate t => exact execGateEvaluate_keeps h t
  | replayRewind c => exact execReplayRewind_keeps h c
  | dockMvm t => exact execDockMvm_keeps h t
  | dockPhaseDone d counts => exact execDockPhaseDone_keeps h d counts
  | dockVectorDone t => exact execDockVectorDone_keeps h t
  | dockRefit t failing => exact execDockRefit_keeps h t failing
  | dockRefitScan t => exact execDockRefitScan_keeps h t
  | dockRefitReadback t metaBad => exact execDockRefitReadback_keeps h t metaBad
  | dockRefitDone d => exact execDockRefitDone_keeps h d
  | refitPassClose d r => exact execRefitPassClose_keeps h d r
  | dockCalNative t => exact execDockCalNative_keeps h t
  | dockCalCold t => exact execDockCalCold_keeps h t
  | dockCalQuickVerify t => exact execDockCalQuickVerify_keeps h t
  | calibrationStart t => exact execCalibrationStart_keeps h t
  | calibrationDone d pass => exact execCalibrationDone_keeps h d pass
  | dieCalibration die => exact execDieCalibration_keeps h die
  | dieCalibrationDone r => exact execDieCalibrationDone_keeps h r
  | restoreWindowTimeout => exact execRestoreWindowTimeout_keeps h
  | gemm t => exact execGemm_keeps h t
  | matvec t => exact execMatvec_keeps h t
  | gemmBwdPair t => exact execGemmBwdPair_keeps h t
  | attnFwdBlock t => exact execAttnFwdBlock_keeps h t
  | attnBwdBlock t => exact execAttnBwdBlock_keeps h t
  | normForward t => exact execNormForward_keeps h t
  | normBackward t => exact execNormBackward_keeps h t
  | act t => exact execAct_keeps h t
  | actDerivative t => exact execActDerivative_keeps h t
  | softmaxForward t => exact execSoftmaxForward_keeps h t
  | softmaxBackward t => exact execSoftmaxBackward_keeps h t
  | convert t => exact execConvert_keeps h t
  | rngFill t => exact execRngFill_keeps h t
  | copy t units => exact execCopy_keeps h t units
  | transpose t units => exact execTranspose_keeps h t units
  | holdPush t => exact execHoldPush_keeps h t
  | holdPop t => exact execHoldPop_keeps h t
  | holdSpill t => exact execHoldSpill_keeps h t
  | holdPrefetch t => exact execHoldPrefetch_keeps h t
  | holdMoveDone t => exact execHoldMoveDone_keeps h t
  | signal t => exact execSignal_keeps h t
  | wait t => exact execWait_keeps h t
  | fence t => exact execFence_keeps h t
  | fenceDone t => exact execFenceDone_keeps h t
  | barrier t => exact execBarrier_keeps h t
  | hangTimeout w t => exact execHangTimeout_keeps h w t
  | ferryForward chain member => exact execFerryForward_keeps h chain member
  | ferryForwardDone chain member => exact execFerryForwardDone_keeps h chain member
  | ctxOpen src n => exact execCtxOpen_keeps h src n
  | ctxResume src c => exact execCtxResume_keeps h src c
  | ctxHalt src c => exact execCtxHalt_keeps h src c
  | ctxClose src c => exact execCtxClose_keeps h src c
  | tlbWalkDone t c va write => exact execTlbWalkDone_keeps h t c va write
  | tlbInvalidateRange src => exact execTlbInvalidateRange_keeps h src
  | tlbInvalidateContext src => exact execTlbInvalidateContext_keeps h src
  | tlbInvalidateDone => exact execTlbInvalidateDone_keeps h
  | sramParityError t offset read => exact execSramParityError_keeps h t offset read
  | meshFlitError t pa retries => exact execMeshFlitError_keeps h t pa retries
  | dramReadError pa kind => exact execDramReadError_keeps h pa kind
  | hostPoisonReceived port pa t => exact execHostPoisonReceived_keeps h port pa t
  | flitResendRequest p seq => exact execFlitResendRequest_keeps h p seq
  | creditTimeout p vc => exact execCreditTimeout_keeps h p vc
  | laneBerCheck p lane ber => exact execLaneBerCheck_keeps h p lane ber
  | linkRetrainDone p ok => exact execLinkRetrainDone_keeps h p ok
  | linkTrainingDone p dom pkg peerPort => exact execLinkTrainingDone_keeps h p dom pkg peerPort
  | put t => exact execPut_keeps h t
  | get t => exact execGet_keeps h t
  | mcast t => exact execMcast_keeps h t
  | acc t => exact execAcc_keeps h t
  | dispatch t => exact execDispatch_keeps h t
  | combine t => exact execCombine_keeps h t
  | msgPut p m => exact execMsgPut_keeps h p m
  | msgGetReq p m => exact execMsgGetReq_keeps h p m
  | msgGetResp p m => exact execMsgGetResp_keeps h p m
  | msgAcc p m => exact execMsgAcc_keeps h p m
  | msgSignal p m => exact execMsgSignal_keeps h p m
  | msgMcastPut p m => exact execMsgMcastPut_keeps h p m
  | msgDispatch p m => exact execMsgDispatch_keeps h p m
  | msgCombine p m => exact execMsgCombine_keeps h p m
  | msgAck p m => exact execMsgAck_keeps h p m
  | msgNack p m => exact execMsgNack_keeps h p m
  | msgReply p m => exact execMsgReply_keeps h p m
  | msgDetach p m => exact execMsgDetach_keeps h p m
  | msgUnknown p m => exact execMsgUnknown_keeps h p m
  | messageForward p m => exact execMessageForward_keeps h p m
  | ackTimeout xfer => exact execAckTimeout_keeps h xfer
  | convoyStallLimit convoy child => exact execConvoyStallLimit_keeps h convoy child
  | bucketDeadline entry round bucket => exact execBucketDeadline_keeps h entry round bucket
  | bucketCloseAcked entry round bucket => exact execBucketCloseAcked_keeps h entry round bucket
  | lowrankProject t => exact execLowrankProject_keeps h t
  | orthoGram t => exact execOrthoGram_keeps h t
  | orthoFactor t => exact execOrthoFactor_keeps h t
  | orthoApply t => exact execOrthoApply_keeps h t
  | reconstructOwner t => exact execReconstructOwner_keeps h t
  | reconstructResidual t => exact execReconstructResidual_keeps h t
  | optStepSgd t => exact execOptStepSgd_keeps h t
  | optStepAdamw t => exact execOptStepAdamw_keeps h t
  | requestTarget src value => exact execRequestTarget_keeps h src value
  | secureCopy t units => exact execSecureCopy_keeps h t units
  | secureCommit => exact execSecureCommit_keeps h
  | swapDone => exact execSwapDone_keeps h
  | secureTimeout => exact execSecureTimeout_keeps h
  | restoreLoad src remote => exact execRestoreLoad_keeps h src remote
  | restoreLoadDone remote => exact execRestoreLoadDone_keeps h remote
  | restoreVerify src => exact execRestoreVerify_keeps h src
  | restoreVerifyDone replicas => exact execRestoreVerifyDone_keeps h replicas
  | sequencerRound => exact execSequencerRound_keeps h
  | adcConversionDone conv code => exact execAdcConversionDone_keeps h conv code
  | adcDataRead src conv => exact execAdcDataRead_keeps h src conv
  | filterWrite src ch member value => exact execFilterWrite_keeps h src ch member value
  | ruleWrite src rule value => exact execRuleWrite_keeps h src rule value
  | oscRecalibration => exact execOscRecalibration_keeps h
  | riskUpdate => exact execRiskUpdate_keeps h
  | ageingSample slow drift corrected => exact execAgeingSample_keeps h slow drift corrected
  | ageingDayEnd => exact execAgeingDayEnd_keeps h
  | hlPerstAssert port => exact execHlPerstAssert_keeps h port
  | hlPerstRelease port => exact execHlPerstRelease_keeps h port
  | cxlLinkUp port rate width => exact execCxlLinkUp_keeps h port rate width
  | cxlLinkDown port => exact execCxlLinkDown_keeps h port
  | cxlConfigRequest port req => exact execCxlConfigRequest_keeps h port req
  | hdmAccess port pa op => exact execHdmAccess_keeps h port pa op
  | biSnoopResponse port line data => exact execBiSnoopResponse_keeps h port line data
  | wakeNTimeout port => exact execWakeNTimeout_keeps h port
  | noticeWriteDone => exact execNoticeWriteDone_keeps h
  | noticeConsumerWrite port value => exact execNoticeConsumerWrite_keeps h port value
  | ringEnable port => exact execRingEnable_keeps h port
  | ringDisable port => exact execRingDisable_keeps h port
  | doeDiscovery port index => exact execDoeDiscovery_keeps h port index
  | doeTableAccess port entry => exact execDoeTableAccess_keeps h port entry
  | spdmGetVersion path => exact execSpdmGetVersion_keeps h path
  | spdmGetCapabilities path => exact execSpdmGetCapabilities_keeps h path
  | spdmNegotiateAlgorithms path offersP384 offersSha384 => exact execSpdmNegotiateAlgorithms_keeps h path offersP384 offersSha384
  | spdmGetDigests path => exact execSpdmGetDigests_keeps h path
  | spdmGetCertificate path slot offset length => exact execSpdmGetCertificate_keeps h path slot offset length
  | spdmChallenge path slot nonce => exact execSpdmChallenge_keeps h path slot nonce
  | spdmGetMeasurements path index signed nonce => exact execSpdmGetMeasurements_keeps h path index signed nonce
  | spdmUnsupported path request malformed => exact execSpdmUnsupported_keeps h path request malformed
  | dadComplete duplicate => exact execDadComplete_keeps h duplicate
  | neighbourSolicitation srcAddr target => exact execNeighbourSolicitation_keeps h srcAddr target
  | echoRequest srcAddr data => exact execEchoRequest_keeps h srcAddr data
  | plcaBeaconTimeout => exact execPlcaBeaconTimeout_keeps h
  | testReset => exact execTestReset_keeps h
  | extest bits => exact execExtest_keeps h bits
  | idcode => exact execIdcode_keeps h
  | samplePreload bits => exact execSamplePreload_keeps h bits
  | highz => exact execHighz_keeps h
  | clamp => exact execClamp_keeps h
  | bypass => exact execBypass_keeps h
  | privateInstruction opcode => exact execPrivateInstruction_keeps h opcode
  | fwImageDownload src image => exact execFwImageDownload_keeps h src image
  | fwWriteDone ok => exact execFwWriteDone_keeps h ok
  | fwActivate src => exact execFwActivate_keeps h src
  | svnCommit src => exact execSvnCommit_keeps h src
  | debugKeyHashSet hash => exact execDebugKeyHashSet_keeps h hash
  | debugToken token => exact execDebugToken_keeps h token
  | debugEnd src => exact execDebugEnd_keeps h src
  | debugExpiry => exact execDebugExpiry_keeps h
  | powerLoss => exact execPowerLoss_keeps h
  | managementReferenceLoss => exact execManagementReferenceLoss_keeps h
  | managementReferenceReturn => exact execManagementReferenceReturn_keeps h
  | plcaBeacon => exact execPlcaBeacon_keeps h
  | creditReturn p vc n ack => exact execCreditReturn_keeps h p vc n ack

/-- Power-on: from OFF it goes on from the persisted log, and elsewhere it changes nothing (R72). -/
theorem exec_powerOn_keeps (s : State) : ∃ t, exec .powerOn s = .next t ∧ (s.before .powerOn).Keeps t := by
  by_cases hoff : s.power.pst = .off
  · rw [State.before_powerOn hoff, exec_powerOn_resumed hoff]
    exact execPowerOn_keeps (keeps_refl _) fun _ => keeps_refl _
  · rw [State.before_running _ hoff]
    exact execPowerOn_keeps (keeps_refl _) fun h => absurd h hoff

/-- Settles O3: the rows other than power-on are measured from the state itself, and power-on from the resumed one. -/
theorem everyCommandCompletesAndKeeps : Obligations.EveryCommandCompletesAndKeeps := by
  intro c s
  by_cases hc : c = .powerOn
  · subst hc; exact exec_powerOn_keeps s
  · rw [State.before_other s hc]; exact exec_keeps s hc

end Sys2Proof.Machine

/-! Little-endian numbers (R39, O60) and the machine before 48 V (O2). -/

namespace Sys2Proof.Machine

/-! ## Little-endian numbers (R39) -/

@[simp] theorem leBytes_length (n v : Nat) : (leBytes n v).length = n := by
  induction n generalizing v with
  | zero => rfl
  | succ n ih => simp [leBytes, ih]

/-- Reading n bytes of a number back gives its residue: byte by byte, v = v % 256 + 256 * (v / 256). -/
theorem ofLe_leBytes (n v : Nat) : ofLe (leBytes n v) = v % 256 ^ n := by
  induction n generalizing v with
  | zero => simp [leBytes, ofLe, Nat.mod_one]
  | succ n ih =>
    calc ofLe (leBytes (n + 1) v) = v % 256 + 256 * (v / 256 % 256 ^ n) := by simp [leBytes, ofLe, ih]
      _ = v % (256 * 256 ^ n) := (Nat.mod_mul).symm
      _ = v % 256 ^ (n + 1) := by rw [Nat.pow_succ, Nat.mul_comm]

theorem leBytes_ofLe (bs : List Byte) : leBytes bs.length (ofLe bs) = bs := by
  induction bs with
  | nil => rfl
  | cons b bs ih =>
    have low : BitVec.ofNat 8 (b.toNat + 256 * ofLe bs) = b := by
      apply BitVec.eq_of_toNat_eq
      have := b.isLt
      simp; omega
    have high : (b.toNat + 256 * ofLe bs) / 256 = ofLe bs := by
      have := b.isLt
      omega
    simp only [List.length_cons, leBytes, ofLe, low, high, ih]

/-- Settles O60: both directions of the round trip, by induction on the width and on the bytes. -/
theorem littleEndianRoundTrip : Obligations.LittleEndianRoundTrip :=
  ⟨fun n v => ⟨ofLe_leBytes n v, leBytes_length n v⟩, leBytes_ofLe⟩

/-! ## Before 48 V -/

/-- With nothing written, every object holds its default. -/
theorem State.get_of_dict_nil {s : State} (h : s.dict = []) (idx sub : Nat) : s.get idx sub = objDefault (key idx sub) := by
  simp only [State.get, State.getK, h, mget?]

/-- Memory that was never written reads 0 (log 1). -/
theorem State.byteAt_of_mem_nil {s : State} (h : s.mem = []) (a : Nat) : s.byteAt a = 0 := by
  simp only [State.byteAt, h, cellGet]

/-- Settles O2: the reset state lists no object and no byte of memory. -/
theorem resetIsOffWithEveryObjectAtItsDefault : Obligations.ResetIsOffWithEveryObjectAtItsDefault :=
  ⟨rfl, rfl, rfl, rfl, rfl, rfl, rfl, State.get_of_dict_nil rfl, State.byteAt_of_mem_nil rfl⟩

end Sys2Proof.Machine

/-! Writes of one object (R43, R44; O7, O8), what a refusal records (R52). -/

namespace Sys2Proof.Machine

open Sys2Proof.Claims

/-! ## A write command is the guarded write of its object -/

/-- Each row of `writeCommand` is the guarded write of the object that the table names. -/
theorem exec_writeCommand {c : Instr} {src : Src} {idx sub : Nat} {bs : List Byte} {eff : Nat → State → Except Nat State} (s : State)
    (h : writeCommand c = some (src, idx, sub, bs, eff)) : exec c s = .next (s.guarded src idx sub bs eff) := by
  unfold writeCommand at h
  split at h <;> cases h <;> rfl

/-- On a path that reaches the device, a write is its checks, then its effect. -/
theorem State.guarded_of_reaches {s : State} {src : Src} (idx sub : Nat) (bs : List Byte) (eff : Nat → State → Except Nat State)
    (hr : reaches s src) : s.guarded src idx sub bs eff = match s.checkWrite src idx sub bs with
      | .error c => s.refuse src idx sub c
      | .ok v => match eff v s with
        | .error c => s.refuse src idx sub c
        | .ok t => t.accept src idx sub := by
  cases src with
  | win p => exact if_pos hr
  | odp => exact if_neg hr

/-- Settles O7: the guarded write whose checks and effect both succeed. -/
theorem writeCommandsTakeEffect : Obligations.WriteCommandsTakeEffect := by
  intro c src idx sub bs eff s t v hc hr hcheck heff
  rw [exec_writeCommand s hc, State.guarded_of_reaches _ _ _ _ hr]
  simp only [hcheck, heff]

/-- Settles O8: the guarded write whose checks fail, or whose effect does. -/
theorem refusedWriteCommandsOnlyRecordTheCode : Obligations.RefusedWriteCommandsOnlyRecordTheCode := by
  intro c src idx sub bs eff s code hc hr href
  rw [exec_writeCommand s hc, State.guarded_of_reaches _ _ _ _ hr]
  obtain hcheck | ⟨v, hcheck, heff⟩ := href
  · simp only [hcheck]
  · simp only [hcheck, heff]

/-! ## Refusals (R52) -/

/-- A refusal at a ready window writes the port's three status objects. -/
theorem State.refuse_win {s : State} {p : HostPort} (idx sub code : Nat) (hready : s.windowReady p.val = true) :
    s.refuse (.win p) idx sub code =
      ((s.put (0x1200 + p.val) 2 code).put (0x1200 + p.val) 3 (key idx sub)).count (0x1200 + p.val) 4 32 1 := if_pos hready

theorem key_sub_ne {i a b : Nat} (ha : a < 256) (hb : b < 256) (h : a ≠ b) : key i a ≠ key i b :=
  fun e => h ((key_eq ha hb).mp e).2

theorem State.refuse_lastAbort {s : State} {p : HostPort} (idx sub code : Nat) (hready : s.windowReady p.val = true) :
    (s.refuse (.win p) idx sub code).get (0x1200 + p.val) 2 = code := by
  rw [State.refuse_win _ _ _ hready, State.get_count_ne _ _ _ (key_sub_ne (by decide) (by decide) (by decide)),
    State.get_put_ne _ _ (key_sub_ne (by decide) (by decide) (by decide)), State.get_put]

theorem State.refuse_lastTarget {s : State} {p : HostPort} (idx sub code : Nat) (hready : s.windowReady p.val = true) :
    (s.refuse (.win p) idx sub code).get (0x1200 + p.val) 3 = key idx sub := by
  rw [State.refuse_win _ _ _ hready, State.get_count_ne _ _ _ (key_sub_ne (by decide) (by decide) (by decide)), State.get_put]

theorem State.refuse_abortCount {s : State} {p : HostPort} (idx sub code : Nat) (hready : s.windowReady p.val = true) :
    (s.refuse (.win p) idx sub code).get (0x1200 + p.val) 4 = satAdd 32 (s.get (0x1200 + p.val) 4) 1 := by
  rw [State.refuse_win _ _ _ hready, State.get_count, State.get_put_ne _ _ (key_sub_ne (by decide) (by decide) (by decide)),
    State.get_put_ne _ _ (key_sub_ne (by decide) (by decide) (by decide))]

/-- Every other object stays. -/
theorem State.refuse_get_other {s : State} {p : HostPort} (idx sub code : Nat) {i a : Nat} (hready : s.windowReady p.val = true)
    (ha : a < 256) (h : ¬(i = 0x1200 + p.val ∧ (a = 2 ∨ a = 3 ∨ a = 4))) :
    (s.refuse (.win p) idx sub code).get i a = s.get i a := by
  have other : ∀ b, b = 2 ∨ b = 3 ∨ b = 4 → key i a ≠ key (0x1200 + p.val) b := by
    intro b hb e
    obtain ⟨hi, rfl⟩ := (key_eq ha (by omega)).mp e
    exact h ⟨hi, hb⟩
  rw [State.refuse_win _ _ _ hready, State.get_count_ne _ _ _ (other 4 (by decide)), State.get_put_ne _ _ (other 3 (by decide)),
    State.get_put_ne _ _ (other 2 (by decide))]

theorem State.refuse_mem (s : State) (src : Src) (idx sub code : Nat) : (s.refuse src idx sub code).mem = s.mem := by
  unfold State.refuse
  split
  · split <;> rfl
  · rfl

end Sys2Proof.Machine

/-! The direct region of a window (R49, R50, R52): a refusal and the read that clears it (O9), reads and writes of objects (O11). -/

namespace Sys2Proof.Machine

open Sys2Proof.Claims

/-! ## Where an access of the direct region points (R49) -/

/-- A slot's address gives back its index, its subindex and the byte within the slot. -/
theorem slot_index {idx sub k : Nat} (hsub : sub < 256) (hk : k < 8) : (idx * 2048 + sub * 8 + k) / 2048 = idx := by omega
theorem slot_sub {idx sub k : Nat} (hsub : sub < 256) (hk : k < 8) : (idx * 2048 + sub * 8 + k) % 2048 / 8 = sub := by omega
theorem slot_byte {idx sub k : Nat} (hk : k < 8) : (idx * 2048 + sub * 8 + k) % 8 = k := by omega
theorem slot_direct {idx sub k : Nat} (hidx : idx < 65536) (hsub : sub < 256) (hk : k < 8) : idx * 2048 + sub * 8 + k < directEnd := by
  unfold directEnd; omega

theorem State.windowRead_direct {s : State} {p : HostPort} {off : Nat} (size : Nat) (hready : s.windowReady p.val = true)
    (hoff : off < directEnd) : s.windowRead p off size = s.directRead p off size := by
  have hbar : ¬ barEnd ≤ off := by unfold directEnd at hoff; unfold barEnd; omega
  simp [State.windowRead, hbar, hready, hoff]

theorem State.windowWrite_direct {s : State} {p : HostPort} {off : Nat} (size value : Nat) (hready : s.windowReady p.val = true)
    (hoff : off < directEnd) : s.windowWrite p off size value = s.directWrite p off size value := by
  simp [State.windowWrite, State.ifReady, hready, hoff]

/-! ## What the access checks answer with -/

theorem existence_of_objDef {idx sub : Nat} {o : ObjDef} (h : objDef idx sub = some o) : existence idx sub = .ok (some o) := by
  simp only [existence, h]

theorem objDef_of_existence {idx sub : Nat} {o : ObjDef} (h : existence idx sub = .ok (some o)) : objDef idx sub = some o := by
  unfold existence at h
  split at h
  · next o' hdef => cases h; exact hdef
  · repeat' split at h
    all_goals cases h

/-- A read that passes its checks is of an object of the table, or of subindex 0 of one. -/
theorem State.readAccess_yields (s : State) (src : Src) (idx sub : Nat) :
    Yields (fun r => ∀ o, r = some o → objDef idx sub = some o) (s.readAccess src idx sub) := by
  unfold State.readAccess
  refine yields_ite yields_error ?_
  split
  · exact yields_error
  · exact yields_ite yields_error (yields_ok fun o h => nomatch h)
  · next o hex =>
    refine yields_ite yields_error (yields_ite yields_error (yields_ite yields_error (yields_ok ?_)))
    intro o' h
    rw [← h]
    exact objDef_of_existence hex

theorem State.objDef_of_readAccess {s : State} {src : Src} {idx sub : Nat} {o : ObjDef}
    (h : s.readAccess src idx sub = .ok (some o)) : objDef idx sub = some o := s.readAccess_yields src idx sub _ h o rfl

/-- A write that passes its access checks is of an object of the table. -/
theorem State.writeAccess_yields (s : State) (src : Src) (idx sub : Nat) :
    Yields (fun o => objDef idx sub = some o) (s.writeAccess src idx sub) := by
  unfold State.writeAccess
  refine yields_ite yields_error ?_
  split
  · exact yields_error
  · exact yields_ite yields_error yields_error
  · next o hex =>
    have hdef := objDef_of_existence hex
    refine yields_ite yields_error (yields_ite yields_error ?_)
    split
    · exact yields_error
    · exact yields_ite yields_error yields_error
    · exact yields_ite (yields_ok hdef) yields_error
    · exact yields_ok hdef

/-! ## Reads (R50) -/

/-- A read of a form that R50 does not allow is refused with 0xA011 and returns all ones. -/
theorem State.directRead_badForm (s : State) (p : HostPort) {idx sub k size : Nat} (hsub : sub < 256) (hk : k < 8)
    (hform : readForm (idx * 2048 + sub * 8 + k) size = false) :
    s.directRead p (idx * 2048 + sub * 8 + k) size = (s.refuse (.win p) idx sub 0xA011).emit (.winData p.val (ones size)) := by
  simp only [State.directRead, slot_index hsub hk, slot_sub hsub hk, hform, Bool.not_false, Bool.true_or, if_true]

/-- A read of good form of a scalar object returns its bytes of the slot's image. -/
theorem State.directRead_scalar {s : State} {p : HostPort} {idx sub k size : Nat} {o : ObjDef} (hsub : sub < 256) (hk : k < 8)
    (hform : readForm (idx * 2048 + sub * 8 + k) size = true) (haccess : s.readAccess (.win p) idx sub = .ok (some o))
    (hscalar : o.type.scalar = true) :
    s.directRead p (idx * 2048 + sub * 8 + k) size =
      (s.afterRead idx sub).emit (.winData p.val (((leBytes 8 (slotImage o.type (s.scalarVal idx sub))).drop k).take size)) := by
  simp [State.directRead, slot_index hsub hk, slot_sub hsub hk, slot_byte hk, hform, haccess, State.objDef_of_readAccess haccess, hscalar]

/-! ## The read of LAST_ABORT (R52) -/

/-- LAST_ABORT of either port is a read-only U16 that every power state reaches (R48, R52). -/
theorem objDef_lastAbort (p : HostPort) :
    ∃ o, objDef (0x1200 + p.val) 2 = some o ∧ o.type = .u16 ∧ o.access = .ro ∧ o.nap = false := by
  match p with
  | 0 => exact ⟨_, rfl, rfl, rfl, rfl⟩
  | 1 => exact ⟨_, rfl, rfl, rfl, rfl⟩

/-- A window reaches the communication range 0x1000 to 0x1FFF for reading in every power state (R48, R51). -/
theorem State.reach_win_communication (s : State) (p : HostPort) {idx : Nat} (hrange : idx / 4096 = 1) :
    s.reach (.win p) idx false = true := by
  have hlogic : tileLogic idx = false := by
    simp only [tileLogic, List.contains_eq_mem, List.mem_cons, List.not_mem_nil, or_false, Bool.or_eq_false_iff, decide_eq_false_iff_not]
    omega
  unfold State.reach
  dsimp only
  repeat' split
  all_goals simp [hlogic, hrange]

theorem State.lastAbort_readAccess (s : State) (p : HostPort) :
    ∃ o, s.readAccess (.win p) (0x1200 + p.val) 2 = .ok (some o) ∧ o.type = .u16 := by
  obtain ⟨o, hdef, htype, haccess, hnap⟩ := objDef_lastAbort p
  have hreach : s.reach (.win p) (0x1200 + p.val) false = true := s.reach_win_communication p (by omega)
  have hne : 0x1200 + p.val ≠ 0xC020 := by omega
  refine ⟨o, ?_, htype⟩
  simp [State.readAccess, hne, hreach, existence_of_objDef hdef, hnap, haccess]

/-- LAST_ABORT reports the value in force. -/
theorem State.lastAbort_scalarVal (s : State) (p : HostPort) : s.scalarVal (0x1200 + p.val) 2 = s.get (0x1200 + p.val) 2 := by
  match p with
  | 0 => rfl
  | 1 => rfl

/-- Reading LAST_ABORT clears it (R52). -/
theorem State.lastAbort_afterRead (s : State) (p : HostPort) : s.afterRead (0x1200 + p.val) 2 = s.put (0x1200 + p.val) 2 0 :=
  if_pos ⟨by omega, rfl⟩

/-- Settles O9: what a refusal writes, object by object, and the direct read of LAST_ABORT. -/
theorem refusalsAreRecordedAndReadOnce : Obligations.RefusalsAreRecordedAndReadOnce := by
  constructor
  · intro s p idx sub code hready
    exact ⟨State.refuse_lastAbort _ _ _ hready, State.refuse_lastTarget _ _ _ hready, State.refuse_abortCount _ _ _ hready,
      fun i a ha h => State.refuse_get_other _ _ _ hready ha h, State.refuse_mem _ _ _ _ _⟩
  · intro s p hready
    obtain ⟨o, haccess, htype⟩ := s.lastAbort_readAccess p
    have hform : readForm ((0x1200 + p.val) * 2048 + 2 * 8 + 0) 2 = true := by
      simp [readForm]; omega
    have hread := State.directRead_scalar (by decide) (by decide) hform haccess (by rw [htype]; rfl)
    rw [s.lastAbort_scalarVal, s.lastAbort_afterRead, htype] at hread
    have hdirect : (0x1200 + p.val) * 2048 + 2 * 8 + 0 < directEnd := slot_direct (by omega) (by decide) (by decide)
    exact congrArg Host.Outcome.next ((State.windowRead_direct 2 hready hdirect).trans hread)

/-! ## Writes (R44, R50) -/

/-- A write that is not an aligned one of 4 or 8 bytes is refused with 0xA011. -/
theorem State.directWrite_badAccess (s : State) (p : HostPort) {idx sub k size : Nat} (value : Nat) (hsub : sub < 256) (hk : k < 8)
    (hform : ¬(k = 0 ∧ (size = 4 ∨ size = 8))) :
    s.directWrite p (idx * 2048 + sub * 8 + k) size value = s.refuse (.win p) idx sub 0xA011 := by
  have hbad : k ≠ 0 ∨ (size ≠ 8 ∧ size ≠ 4) := by omega
  simp only [State.directWrite, slot_index hsub hk, slot_sub hsub hk, slot_byte hk]
  exact if_pos (hbad.imp_right Or.inl)

/-- A write whose bytes do not fit the object's type is refused with 0xA011. -/
theorem State.directWrite_badBytes (s : State) (p : HostPort) {idx sub size value : Nat} {o : ObjDef} (hsub : sub < 256)
    (hdef : objDef idx sub = some o) (hbytes : slotBytes o size value = none) :
    s.directWrite p (idx * 2048 + sub * 8) size value = s.refuse (.win p) idx sub 0xA011 := by
  have hidx : (idx * 2048 + sub * 8) / 2048 = idx := by omega
  have hsub' : (idx * 2048 + sub * 8) % 2048 / 8 = sub := by omega
  simp only [State.directWrite, hidx, hsub', hdef, hbytes]
  exact if_pos (Or.inr (Or.inr rfl))

/-- A write of good form is the access check of its object and then the shared write of the dictionary. -/
theorem State.directWrite_goodForm (s : State) (p : HostPort) {idx sub size value : Nat} (hsub : sub < 256) (hsize : size = 4 ∨ size = 8)
    (hbytes : ∀ o, objDef idx sub = some o → slotBytes o size value ≠ none) :
    s.directWrite p (idx * 2048 + sub * 8) size value = match s.writeAccess (.win p) idx sub with
      | .error c => s.refuse (.win p) idx sub c
      | .ok o => match slotBytes o size value with
        | none => s.refuse (.win p) idx sub 0xA011
        | some bs => match s.writeScalar (.win p) idx sub bs with
          | .error c => s.refuse (.win p) idx sub c
          | .ok t => t := by
  have hidx : (idx * 2048 + sub * 8) / 2048 = idx := by omega
  have hsub' : (idx * 2048 + sub * 8) % 2048 / 8 = sub := by omega
  have hbyte : (idx * 2048 + sub * 8) % 8 = 0 := by omega
  have hform : ¬((idx * 2048 + sub * 8) % 8 ≠ 0 ∨ (size ≠ 8 ∧ size ≠ 4) ∨
      (match objDef idx sub with | some o => (slotBytes o size value).isNone | none => false) = true) := by
    have hgood : (match objDef idx sub with | some o => (slotBytes o size value).isNone | none => false) = false := by
      split
      · next o hdef => simpa using Option.isSome_iff_ne_none.mpr (hbytes o hdef)
      · rfl
    rw [hgood]
    rintro (h | h | h)
    · exact h hbyte
    · omega
    · cases h
  simp only [State.directWrite, hidx, hsub']
  exact if_neg hform

/-- Settles O11: a write is judged by its form, then by its access, then made or refused; a read by its form, then answered. -/
theorem directWritesAreMadeOrRefused : Obligations.DirectWritesAreMadeOrRefused := by
  intro s p idx sub size value hready hsub hidx at_
  have hdirect {k : Nat} (hk : k < 8) : at_ + k < directEnd := slot_direct hidx hsub hk
  have hat : at_ < directEnd := Nat.lt_of_le_of_lt (Nat.le_add_right _ 7) (hdirect (k := 7) (by decide))
  have hdict : exec (.dictWrite p at_ size value) s = .next (s.directWrite p at_ size value) :=
    congrArg Host.Outcome.next (State.windowWrite_direct size value hready hat)
  have hwrite {k : Nat} (hk : k < 8) :
      exec (.windowAccessRefused p (at_ + k) size true value) s = .next (s.directWrite p (at_ + k) size value) :=
    congrArg Host.Outcome.next (State.windowWrite_direct size value hready (hdirect hk))
  have hread {k : Nat} (hk : k < 8) :
      exec (.windowAccessRefused p (at_ + k) size false value) s = .next (s.directRead p (at_ + k) size) :=
    congrArg Host.Outcome.next (State.windowRead_direct size hready (hdirect hk))
  refine ⟨?made, ?badBytes, ?noAccess, ?badAccess, ?badRead, ?read⟩
  case made =>
    intro o bs hsize haccess hbytes
    have hform : ∀ o', objDef idx sub = some o' → slotBytes o' size value ≠ none := by
      intro o' hdef
      have heq : some o' = some o := hdef.symm.trans (s.writeAccess_yields _ _ _ _ haccess)
      cases heq
      simp [hbytes]
    have hmade := s.directWrite_goodForm p hsub hsize hform
    simp only [haccess, hbytes] at hmade
    constructor
    · intro t ht
      rw [hdict, hmade, ht]
    · intro code hcode
      rw [hdict, hmade, hcode]
  case badBytes =>
    intro o hdef hbytes
    rw [hdict, s.directWrite_badBytes p hsub hdef hbytes]
  case noAccess =>
    intro code hsize hform haccess
    rw [hdict, s.directWrite_goodForm p hsub hsize hform, haccess]
  case badAccess =>
    intro k hk hform
    rw [hwrite hk, s.directWrite_badAccess p value hsub hk hform]
  case badRead =>
    intro k hk hform
    rw [hread hk, s.directRead_badForm p hsub hk hform]
    rfl
  case read =>
    intro k o hk hform haccess hscalar
    rw [hread hk, State.directRead_scalar hsub hk hform haccess hscalar]

end Sys2Proof.Machine

/-! The domain access channels of a window (R54, R534; O12, O13). -/

namespace Sys2Proof.Machine

open Sys2Proof.Claims

/-! ## DAC_CTRL with its command field set (R534) -/

/-- The fields above the command are those of the value written. -/
theorem setBits_low_four (v x : Nat) : setBits v 3 0 x = v / 16 * 16 + x % 16 := by
  simp [setBits, Nat.shiftRight_eq_div_pow, Nat.shiftLeft_eq, Nat.mod_one]

theorem setBits_low_four_shiftRight (v x : Nat) {n : Nat} (hn : 4 ≤ n) : setBits v 3 0 x >>> n = v >>> n := by
  obtain ⟨m, rfl⟩ := Nat.exists_eq_add_of_le hn
  have hfour : setBits v 3 0 x / 16 = v / 16 := by rw [setBits_low_four]; omega
  simp only [Nat.shiftRight_eq_div_pow, Nat.pow_add, ← Nat.div_div_eq_div_mul]
  rw [show 2 ^ 4 = 16 from rfl, hfour]

theorem bits_setBits_low_four (v x hi : Nat) {lo : Nat} (hlo : 4 ≤ lo) : bits (setBits v 3 0 x) hi lo = bits v hi lo := by
  simp only [bits, setBits_low_four_shiftRight v x hlo]

theorem bit_setBits_low_four (v x : Nat) {n : Nat} (hn : 4 ≤ n) : bit (setBits v 3 0 x) n = bit v n := by
  simp only [bit, Nat.testBit, setBits_low_four_shiftRight v x hn]

@[simp] theorem ctrlReserved_setBits (v x : Nat) : ctrlReserved (setBits v 3 0 x) = ctrlReserved v := by
  simp only [ctrlReserved, bits_setBits_low_four v x _ (by decide : 4 ≤ 40), bits_setBits_low_four v x _ (by decide : 4 ≤ 8),
    bits_setBits_low_four v x _ (by decide : 4 ≤ 4)]

theorem ctrlCmd_setBits (v : Nat) {x : Nat} (hx : x < 16) : ctrlCmd (setBits v 3 0 x) = x := by
  simp only [ctrlCmd, bits, setBits_low_four, Nat.shiftRight_zero]
  omega

@[simp] theorem Dac.aim_setBits (d : Dac) (v x : Nat) : d.aim (setBits v 3 0 x) = d.aim v := by
  simp only [Dac.aim, bits_setBits_low_four v x _ (by decide : 4 ≤ 24), bits_setBits_low_four v x _ (by decide : 4 ≤ 16),
    bit_setBits_low_four v x (by decide : 4 ≤ 7)]

/-- What a command aims the channel at does not depend on the command field. -/
theorem State.dacTarget_setBits (s : State) (p ch v x : Nat) : s.dacTarget p ch (setBits v 3 0 x) = s.dacTarget p ch v := by
  simp only [State.dacTarget, Dac.aim_setBits]
theorem State.dacCmdOpen_setBits (s : State) (p : HostPort) (ch v x : Nat) : s.dacCmdOpen p ch (setBits v 3 0 x) = s.dacCmdOpen p ch v := by
  simp only [State.dacCmdOpen, Dac.aim_setBits]

/-! ## The rows at a ready window (R51) -/

section
variable {s : State} {p : HostPort} (ch : DacCh) (v : Nat) (hready : s.windowReady p.val = true)
include hready

theorem exec_dacParamWrite (reg : Nat) : exec (.dacParamWrite p ch reg v) s = .next (s.dacParam p.val ch.val reg v) :=
  congrArg Host.Outcome.next (if_pos hready)

/-- A reserved bit of DAC_CTRL refuses every command with 0xA007 (R534). -/
theorem dacCommands_reserved (hres : ctrlReserved v = true) (buf : List Byte) (c : Instr)
    (hc : c = .dacSetTarget p ch v ∨ c = .dacOpen p ch v ∨ c = .dacXfer p ch v buf ∨ c = .dacClose p ch v ∨ c = .dacAbort p ch v) :
    exec c s = .next (s.dacRefuse p.val ch.val 0xA007) := by
  have hctrl (x : Nat) (bs : List Byte) : s.ifReady p (fun s => s.dacCtrl p ch.val (setBits v 3 0 x) bs) = s.dacRefuse p.val ch.val 0xA007 := by
    simp [State.ifReady, hready, State.dacCtrl, hres]
  rcases hc with rfl | rfl | rfl | rfl | rfl
  all_goals exact congrArg Host.Outcome.next (hctrl _ _)

variable (hres : ctrlReserved v = false)
include hres

/-- A row of the channel is the command that it puts into DAC_CTRL. -/
theorem State.ifReady_dacCtrl (buf : List Byte) {x : Nat} (hx : x < 16) :
    s.ifReady p (fun s => s.dacCtrl p ch.val (setBits v 3 0 x) buf) =
      if x = 0 then s.dacTarget p.val ch.val v
      else if x = 1 then s.dacCmdOpen p ch.val v
      else if x = 2 then s.dacCmdXfer p.val ch.val buf
      else if x = 3 then s.dacCmdClose p ch.val
      else if x = 4 then s.dacCmdAbort p ch.val
      else s.dacRefuse p.val ch.val 0xA00B := by
  simp only [State.ifReady, hready, State.dacCtrl, ctrlReserved_setBits, hres, ctrlCmd_setBits v hx, State.dacTarget_setBits,
    State.dacCmdOpen_setBits]
  rfl

theorem exec_dacSetTarget : exec (.dacSetTarget p ch v) s = .next (s.dacTarget p.val ch.val v) :=
  congrArg Host.Outcome.next (State.ifReady_dacCtrl ch v hready hres [] (x := 0) (by decide))
theorem exec_dacOpen : exec (.dacOpen p ch v) s = .next (s.dacCmdOpen p ch.val v) :=
  congrArg Host.Outcome.next (State.ifReady_dacCtrl ch v hready hres [] (x := 1) (by decide))
theorem exec_dacXfer (buf : List Byte) : exec (.dacXfer p ch v buf) s = .next (s.dacCmdXfer p.val ch.val buf) :=
  congrArg Host.Outcome.next (State.ifReady_dacCtrl ch v hready hres buf (x := 2) (by decide))
theorem exec_dacClose : exec (.dacClose p ch v) s = .next (s.dacCmdClose p ch.val) :=
  congrArg Host.Outcome.next (State.ifReady_dacCtrl ch v hready hres [] (x := 3) (by decide))
theorem exec_dacAbort : exec (.dacAbort p ch v) s = .next (s.dacCmdAbort p ch.val) :=
  congrArg Host.Outcome.next (State.ifReady_dacCtrl ch v hready hres [] (x := 4) (by decide))

end

/-! ## The parameters of a channel (R534) -/

/-- A parameter fits its 8-byte register. -/
theorem State.dacParam_size (s : State) (p ch : Nat) {v : Nat} (hv : v < 2 ^ 64) : s.dacParam p ch 8 v =
    if (s.dac p ch).idle then s.setDac p ch { s.dac p ch with size := v } else s.dacRefuse p ch 0xA00B := by
  simp only [State.dacParam, Nat.mod_eq_of_lt hv]
  rfl

theorem State.dacParam_offset (s : State) (p ch : Nat) {v : Nat} (hv : v < 2 ^ 64) : s.dacParam p ch 16 v =
    if (s.dac p ch).state = 2 then s.dacRefuse p ch 0xA00B else s.setDac p ch { s.dac p ch with offset := v } := by
  simp only [State.dacParam, Nat.mod_eq_of_lt hv]
  rfl

theorem State.dacParam_length (s : State) (p ch : Nat) {v : Nat} (hv : v < 2 ^ 64) : s.dacParam p ch 24 v =
    if (s.dac p ch).state = 2 then s.dacRefuse p ch 0xA00B
    else if 65536 < v then s.dacRefuse p ch 0xA008
    else s.setDac p ch { s.dac p ch with length := v } := by
  simp only [State.dacParam, Nat.mod_eq_of_lt hv]
  rfl

/-! ## Segments and the ends of a transfer (R54) -/

section
variable {s : State} {p ch : Nat}

theorem State.dacCmdXfer_notReady (buf : List Byte) (hr : (s.dac p ch).ready = false) : s.dacCmdXfer p ch buf = s.dacRefuse p ch 0xA00B := by
  simp [State.dacCmdXfer, hr]

variable (buf : List Byte) (hr : (s.dac p ch).ready = true)
include hr

/-- A download's segments come in order. -/
theorem State.dacCmdXfer_order (hlen : (s.dac p ch).length ≠ 0) (hdown : (s.dac p ch).download = true)
    (hoff : (s.dac p ch).offset ≠ (s.dac p ch).data.length) : s.dacCmdXfer p ch buf = s.dacRefuse p ch 0xA00B := by
  simp [State.dacCmdXfer, hr, hlen, hdown, hoff]

theorem State.dacCmdXfer_range (hlen : (s.dac p ch).length ≠ 0)
    (hoff : (s.dac p ch).download = true → (s.dac p ch).offset = (s.dac p ch).data.length)
    (hsize : (s.dac p ch).size < (s.dac p ch).offset + (s.dac p ch).length) : s.dacCmdXfer p ch buf = s.dacRefuse p ch 0xA008 := by
  have horder : ((s.dac p ch).download && (s.dac p ch).offset != (s.dac p ch).data.length) = false := by simpa using hoff
  simp [State.dacCmdXfer, hr, hlen, horder, hsize]

/-- A segment in order and in range moves, and an empty one wherever it lies. -/
theorem State.dacCmdXfer_moves (hseg : (s.dac p ch).length = 0 ∨ ((s.dac p ch).offset + (s.dac p ch).length ≤ (s.dac p ch).size
      ∧ ((s.dac p ch).download = true → (s.dac p ch).offset = (s.dac p ch).data.length))) :
    s.dacCmdXfer p ch buf = s.setDac p ch { s.dac p ch with
      state := 2, busy := some ((s.dac p ch).offset, (s.dac p ch).length),
      buf := if (s.dac p ch).download then buf.take 65536 else (s.dac p ch).buf } := by
  by_cases hlen : (s.dac p ch).length = 0
  · simp [State.dacCmdXfer, hr, hlen]
  · obtain ⟨hsize, hoff⟩ := hseg.resolve_left hlen
    have horder : ((s.dac p ch).download && (s.dac p ch).offset != (s.dac p ch).data.length) = false := by simpa using hoff
    simp [State.dacCmdXfer, hr, hlen, horder, Nat.not_lt.mpr hsize]

end

section
variable {s : State} {p : HostPort} {ch : Nat}

theorem State.dacCmdClose_notReady (hr : (s.dac p.val ch).ready = false) : s.dacCmdClose p ch = s.dacRefuse p.val ch 0xA00B := by
  simp [State.dacCmdClose, hr]

variable (hr : (s.dac p.val ch).ready = true)
include hr

theorem State.dacCmdClose_incomplete (hdown : (s.dac p.val ch).download = true)
    (hsize : (s.dac p.val ch).data.length ≠ (s.dac p.val ch).size) : s.dacCmdClose p ch = s.dacRefuse p.val ch 0xA00B := by
  simp [State.dacCmdClose, hr, hdown, hsize]

theorem State.dacCmdClose_upload (hup : (s.dac p.val ch).download = false) :
    s.dacCmdClose p ch = s.setDac p.val ch { s.dac p.val ch with state := 5, data := [] } := by
  simp [State.dacCmdClose, hr, hup]

/-- A complete download is applied whole; a firmware image keeps the channel BUSY until it is written (R524). -/
theorem State.dacCmdClose_complete (hdown : (s.dac p.val ch).download = true)
    (hsize : (s.dac p.val ch).data.length = (s.dac p.val ch).size) :
    let d := s.dac p.val ch
    let e := (s.setDac p.val ch { d with state := 5, data := [] }).downloadEnd (.win p) d.index d.sub d.data
    s.dacCmdClose p ch = if e.2 ≠ 0 then e.1.dacFail p.val ch e.2
      else if d.index = 0xC020 then
        { e.1 with fw := { e.1.fw with writer := some (.dac p.val ch) } }.setDac p.val ch { d with state := 2, data := [], busy := none }
      else e.1 := by
  have hready : ¬(!(s.dac p.val ch).ready) = true := by simp [hr]
  have hdirection : ¬(!(s.dac p.val ch).download) = true := by simp [hdown]
  exact (if_neg hready).trans ((if_neg hdirection).trans (if_neg (not_not.mpr hsize)))

end

section
variable {s : State} {p : HostPort} {ch : Nat}

theorem State.dacCmdAbort_notOpen (hopen : (s.dac p.val ch).isOpen = false) : s.dacCmdAbort p ch = s.dacRefuse p.val ch 0xA00B := by
  simp [State.dacCmdAbort, hopen]

/-- An abort ends the transfer; without an image that is being written it does nothing else. -/
theorem State.dacCmdAbort_open (hopen : (s.dac p.val ch).isOpen = true) (hwriter : s.fw.writer = none) :
    s.dacCmdAbort p ch = s.dacFail p.val ch 0xA00D := by
  have hfw : (s.dacFail p.val ch 0xA00D).fw.writer = none := by simp [State.dacFail, State.setDac, hwriter]
  simp [State.dacCmdAbort, hopen, State.fwCut, hfw]

theorem State.dacTarget_idle {v : Nat} (hidle : (s.dac p.val ch).idle = true) :
    s.dacTarget p.val ch v = s.setDac p.val ch ((s.dac p.val ch).aim v) := if_pos hidle
theorem State.dacTarget_open {v : Nat} (hidle : (s.dac p.val ch).idle = false) :
    s.dacTarget p.val ch v = s.dacRefuse p.val ch 0xA00B := if_neg (Bool.eq_false_iff.mp hidle)

theorem State.dacCmdOpen_idle {v : Nat} (hidle : (s.dac p.val ch).idle = true) :
    s.dacCmdOpen p ch v = (s.setDac p.val ch ((s.dac p.val ch).aim v)).dacOpenNow p ch := if_pos hidle
theorem State.dacCmdOpen_open {v : Nat} (hidle : (s.dac p.val ch).idle = false) :
    s.dacCmdOpen p ch v = s.dacRefuse p.val ch 0xA00B := if_neg (Bool.eq_false_iff.mp hidle)

/-! ## OPEN of the object that a channel names (R54) -/

theorem State.dacOpenNow_download (hdown : (s.dac p.val ch).download = true)
    (hcheck : s.downloadCheck (.win p) (s.dac p.val ch).index (s.dac p.val ch).sub (s.dac p.val ch).size = 0) :
    s.dacOpenNow p ch = s.setDac p.val ch { s.dac p.val ch with state := 1, data := [], busy := none } := by
  simp [State.dacOpenNow, hdown, hcheck]

theorem State.dacOpenNow_downloadRefused (hdown : (s.dac p.val ch).download = true)
    (hcheck : s.downloadCheck (.win p) (s.dac p.val ch).index (s.dac p.val ch).sub (s.dac p.val ch).size ≠ 0) :
    s.dacOpenNow p ch =
      s.dacFail p.val ch (s.downloadCheck (.win p) (s.dac p.val ch).index (s.dac p.val ch).sub (s.dac p.val ch).size) := by
  simp [State.dacOpenNow, hdown, hcheck]

theorem State.dacOpenNow_upload {bs : List Byte} {w : State} (hup : (s.dac p.val ch).download = false)
    (hcheck : s.uploadCheck (.win p) (s.dac p.val ch).index (s.dac p.val ch).sub = .ok (bs, w)) :
    s.dacOpenNow p ch = w.setDac p.val ch { w.dac p.val ch with state := 1, size := bs.length, data := bs, busy := none } := by
  simp [State.dacOpenNow, hup, hcheck]

theorem State.dacOpenNow_uploadRefused {code : Nat} (hup : (s.dac p.val ch).download = false)
    (hcheck : s.uploadCheck (.win p) (s.dac p.val ch).index (s.dac p.val ch).sub = .error code) :
    s.dacOpenNow p ch = s.dacFail p.val ch code := by
  simp [State.dacOpenNow, hup, hcheck]

end

/-! ## The statements -/

/-- Settles O13: each parameter's equation, and the refused branch of each command. -/
theorem dacParametersFollowTheChannelState : Obligations.DacParametersFollowTheChannelState := by
  intro s p ch v hready hv d became
  have hparam := exec_dacParamWrite ch v hready
  have refused {o : Host.Outcome State Fault Refusal} {t : State} {code : Nat} (ho : o = .next t) (ht : t = s.dacRefuse p.val ch.val code) :
      o = became { d with abort := code } := ho.trans (congrArg Host.Outcome.next ht)
  refine ⟨?size, ?sizeRefused, ?offset, ?length, ?lengthRefused, ?busy, ?reserved,
    fun hres => ⟨?opening, ?notReady, ?notOpen, ?order, ?range, ?incomplete⟩⟩
  case size => intro h; rw [hparam, s.dacParam_size _ _ hv, if_pos h]
  case sizeRefused => intro h; exact refused (hparam 8) ((s.dacParam_size _ _ hv).trans (if_neg (Bool.eq_false_iff.mp h)))
  case offset => intro h; rw [hparam, s.dacParam_offset _ _ hv, if_neg h]
  case length => intro h hle; rw [hparam, s.dacParam_length _ _ hv, if_neg h, if_neg (Nat.not_lt.mpr hle)]
  case lengthRefused =>
    intro h hlt
    exact refused (hparam 24) ((s.dacParam_length _ _ hv).trans ((if_neg h).trans (if_pos hlt)))
  case busy =>
    intro h
    exact ⟨refused (hparam 16) ((s.dacParam_offset _ _ hv).trans (if_pos h)),
      refused (hparam 24) ((s.dacParam_length _ _ hv).trans (if_pos h))⟩
  case reserved => intro buf hres c hc; exact dacCommands_reserved ch v hready hres buf c hc
  case opening =>
    intro h
    exact ⟨refused (exec_dacSetTarget ch v hready hres) (State.dacTarget_open h),
      refused (exec_dacOpen ch v hready hres) (State.dacCmdOpen_open h)⟩
  case notReady =>
    intro h
    exact ⟨fun buf => refused (exec_dacXfer ch v hready hres buf) (State.dacCmdXfer_notReady buf h),
      refused (exec_dacClose ch v hready hres) (State.dacCmdClose_notReady h)⟩
  case notOpen => intro h; exact refused (exec_dacAbort ch v hready hres) (State.dacCmdAbort_notOpen h)
  case order =>
    intro buf hr hlen hdown hoff
    exact refused (exec_dacXfer ch v hready hres buf) (State.dacCmdXfer_order buf hr hlen hdown hoff)
  case range =>
    intro buf hr hlen hoff hsize
    exact refused (exec_dacXfer ch v hready hres buf) (State.dacCmdXfer_range buf hr hlen hoff hsize)
  case incomplete =>
    intro hr hdown hsize
    exact refused (exec_dacClose ch v hready hres) (State.dacCmdClose_incomplete hr hdown hsize)

/-- A segment of a download ends: its bytes are added. -/
theorem State.dacMoved_download {s : State} {p ch off n : Nat} (hbusy : (s.dac p ch).busy = some (off, n))
    (hdown : (s.dac p ch).download = true) : s.dacMoved p ch = s.setDac p ch { s.dac p ch with
      state := 3, busy := none, data := (s.dac p ch).data ++ ((s.dac p ch).buf ++ zeros (n - (s.dac p ch).buf.length)).take n } := by
  simp [State.dacMoved, hbusy, hdown]

/-- A segment of an upload ends: its bytes stand in the buffer. -/
theorem State.dacMoved_upload {s : State} {p ch off n : Nat} (hbusy : (s.dac p ch).busy = some (off, n))
    (hup : (s.dac p ch).download = false) : s.dacMoved p ch = s.setDac p ch { s.dac p ch with
      state := 3, busy := none,
      buf := s.uploadRange (s.dac p ch).index (s.dac p ch).sub (s.dac p ch).data off n ++ (s.dac p ch).buf.drop n } := by
  simp [State.dacMoved, hbusy, hup]

/-- Settles O12: the allowed branch of each command, the end of a segment in each direction, and the timeout. -/
theorem dacCommandsActAndSegmentsEnd : Obligations.DacCommandsActAndSegmentsEnd := by
  intro s p ch c d became
  have becomes {o : Host.Outcome State Fault Refusal} {t u : State} (ho : o = .next t) (ht : t = u) : o = .next u := ht ▸ ho
  refine ⟨fun hready hres => ⟨?target, ?opening, ?xfer, ?closeUpload, ?closeDownload, ?abort⟩, ?segmentIn, ?segmentOut, ?timeout⟩
  case target => intro h; exact becomes (exec_dacSetTarget ch c hready hres) (State.dacTarget_idle h)
  case opening =>
    intro h u a
    have hopen : exec (.dacOpen p ch c) s = .next (u.dacOpenNow p ch.val) :=
      becomes (exec_dacOpen ch c hready hres) (State.dacCmdOpen_idle h)
    exact ⟨fun hdown hcheck => becomes hopen (State.dacOpenNow_download hdown hcheck),
      fun hdown hcheck => becomes hopen (State.dacOpenNow_downloadRefused hdown hcheck),
      fun bs w hup hcheck => becomes hopen (State.dacOpenNow_upload hup hcheck),
      fun code hup hcheck => becomes hopen (State.dacOpenNow_uploadRefused hup hcheck)⟩
  case xfer =>
    intro buf hr hseg
    exact becomes (exec_dacXfer ch c hready hres buf) (State.dacCmdXfer_moves buf hr hseg)
  case closeUpload => intro hr hup; exact becomes (exec_dacClose ch c hready hres) (State.dacCmdClose_upload hr hup)
  case closeDownload =>
    intro hr hdown hsize u e
    have hclose := becomes (exec_dacClose ch c hready hres) (State.dacCmdClose_complete hr hdown hsize)
    exact ⟨fun hok himage => becomes hclose ((if_neg (not_not.mpr hok)).trans (if_neg himage)),
      fun hcode => becomes hclose (if_pos hcode),
      fun hok himage => becomes hclose ((if_neg (not_not.mpr hok)).trans (if_pos himage))⟩
  case abort => intro hopen hwriter; exact becomes (exec_dacAbort ch c hready hres) (State.dacCmdAbort_open hopen hwriter)
  case segmentIn =>
    intro off n hstate hbusy hdown
    exact congrArg Host.Outcome.next ((if_pos hstate).trans (State.dacMoved_download hbusy hdown))
  case segmentOut =>
    intro off n hstate hbusy hup
    exact congrArg Host.Outcome.next ((if_pos hstate).trans (State.dacMoved_upload hbusy hup))
  case timeout =>
    intro hstate
    have hr : (s.dac p.val ch.val).ready = true := by simpa [Dac.ready] using hstate
    exact congrArg Host.Outcome.next (if_pos hr)

end Sys2Proof.Machine

/-! ODP over the management port (R55 to R60; O14, O15). -/

namespace Sys2Proof.Machine

open Sys2Proof.Claims

/-! ## A frame of a type: what becomes of it (R55, R56, R59) -/

/-- Counting a received frame changes no object but 0x1400:08. -/
theorem State.rx_get (s : State) {i a : Nat} (h : key i a ≠ key 0x1400 8) : s.rx.get i a = s.get i a := s.get_count_ne _ _ h

theorem State.rx_odpPort (s : State) : s.rx.get 0x1100 1 = s.get 0x1100 1 := s.rx_get (by decide)

section
variable {s : State} {f : OdpFrame} {typ : Nat} (act : OdpAct)

/-- A frame that was sent to another node is not received. -/
theorem State.odpFrame_other (hdst : f.dst = .other) : s.odpFrame f typ act = s := if_pos (Or.inr hdst)

/-- A frame that the device ignores is counted and nothing else. -/
theorem State.odpFrame_ignored (hup : s.odpUp = true) (hdst : f.dst ≠ .other)
    (h : odpIgnored f typ = true ∨ f.dstPort ≠ s.get 0x1100 1) : s.odpFrame f typ act = s.rx := by
  have hport : (odpIgnored f typ || f.dstPort != s.rx.get 0x1100 1 || (typ == 0x22 && s.rx.odpWriting f)) = true := by
    rw [s.rx_odpPort]
    rcases h with h | h <;> simp [h]
  simp [State.odpFrame, hup, hdst, hport]

/-- A frame that the device does not ignore goes on to the memory of responses. -/
theorem not_odpIgnored (hign : odpIgnored f typ = false) (hport : f.dstPort = s.get 0x1100 1)
    (hwriting : typ = 0x22 → s.rx.odpWriting f = false) :
    (odpIgnored f typ || f.dstPort != s.rx.get 0x1100 1 || (typ == 0x22 && s.rx.odpWriting f)) = false := by
  rw [s.rx_odpPort]
  simpa [hign, hport] using hwriting

/-- A repeated frame is answered from memory and not executed (R59). -/
theorem State.odpFrame_repeated {m : OdpMemo} (hup : s.odpUp = true) (hdst : f.dst ≠ .other) (hign : odpIgnored f typ = false)
    (hport : f.dstPort = s.get 0x1100 1) (hwriting : typ = 0x22 → s.rx.odpWriting f = false) (hmemo : s.rx.odpMemo f typ = some m) :
    s.odpFrame f typ act = s.rx.tx (.odp f.srcAddr f.srcPort m.resp) := by
  simp [State.odpFrame, hup, hdst, not_odpIgnored hign hport hwriting, hmemo]

variable (h : hears s f typ)
include h

theorem State.odpFrame_badVersion (hversion : f.version ≠ 1) :
    s.odpFrame f typ act = s.rx.odpReply f typ (odpAbortResp f 0xA015) := by
  obtain ⟨hup, hdst, hign, hport, hwriting, hmemo⟩ := h
  simp [State.odpFrame, hup, hdst, not_odpIgnored hign hport hwriting, hmemo, hversion]

variable (hf : wellHeaded f) {act}
include hf

/-- A frame that the device hears and whose header is good is acted on. -/
theorem State.odpFrame_acted : s.odpFrame f typ act = match act s.rx with
    | (t, none) => t
    | (t, some r) => if f.index = 0x1400 ∧ (typ = 0x03 ∨ typ = 0x22) ∧ r.code = 0 then (t.odpReply f typ r).plcaRefresh
        else t.odpReply f typ r := by
  obtain ⟨hup, hdst, hign, hport, hwriting, hmemo⟩ := h
  obtain ⟨hversion, hplen, hflags⟩ := hf
  have hplen' : ¬ 1024 < f.plen := by omega
  have hflags' : ¬ 2 ≤ f.flags := by omega
  simp only [State.odpFrame, hup, hdst, not_odpIgnored hign hport hwriting, hmemo, hversion, hplen', hflags']
  rfl

theorem State.odpFrame_answered {t : State} {r : OdpResp} (hact : act s.rx = (t, some r))
    (hplca : ¬(f.index = 0x1400 ∧ (typ = 0x03 ∨ typ = 0x22) ∧ r.code = 0)) : s.odpFrame f typ act = t.odpReply f typ r := by
  rw [State.odpFrame_acted h hf, hact]
  exact if_neg hplca

/-- A write of the PLCA settings takes effect after its response (R518). -/
theorem State.odpFrame_plca {t : State} {r : OdpResp} (hact : act s.rx = (t, some r))
    (hplca : f.index = 0x1400 ∧ (typ = 0x03 ∨ typ = 0x22) ∧ r.code = 0) : s.odpFrame f typ act = (t.odpReply f typ r).plcaRefresh := by
  rw [State.odpFrame_acted h hf, hact]
  exact if_pos hplca

/-- The response is still to come (R524). -/
theorem State.odpFrame_pending {t : State} (hact : act s.rx = (t, none)) : s.odpFrame f typ act = t := by
  rw [State.odpFrame_acted h hf, hact]

end

/-! ## What each request answers (R57, R58) -/

section
variable {s : State} {f : OdpFrame}

theorem odpRead_value {o : Option ObjDef} (haccess : s.readAccess .odp f.index f.sub = .ok o)
    (hdomain : ∀ d, o = some d → d.type.isDomain = false) (hlen : (s.valueOf o f.index f.sub).length ≤ 1024) :
    odpRead f s = (s.afterRead f.index f.sub, some (odpAnswer f 0x02 0 (s.valueOf o f.index f.sub))) := by
  cases o with
  | none => simp [odpRead, haccess, Nat.not_lt.mpr hlen]
  | some d => simp [odpRead, haccess, Nat.not_lt.mpr hlen, hdomain d rfl]

theorem odpRead_refused {c : Nat} (haccess : s.readAccess .odp f.index f.sub = .error c) : odpRead f s = (s, some (odpAbortResp f c)) := by
  simp [odpRead, haccess]

theorem odpData_whole (hlen : f.plen ≤ f.payload.length) : odpData f = some (f.payload.take f.plen) := if_neg (Nat.not_lt.mpr hlen)

theorem odpWrite_made {t : State} (hlen : f.plen ≤ f.payload.length)
    (hwrite : s.writeScalar .odp f.index f.sub (f.payload.take f.plen) = .ok t) : odpWrite f s = (t, some (odpAnswer f 0x04)) := by
  simp [odpWrite, odpData_whole hlen, hwrite]

theorem odpWrite_refused {c : Nat} (hlen : f.plen ≤ f.payload.length)
    (hwrite : s.writeScalar .odp f.index f.sub (f.payload.take f.plen) = .error c) :
    odpWrite f s = (s, some (odpAbortResp f c)) := by
  simp [odpWrite, odpData_whole hlen, hwrite]

theorem odpUpload_opened {bs : List Byte} {t : State} (hcheck : s.uploadCheck .odp f.index f.sub = .ok (bs, t)) (hfull : s.odpFull f = false) :
    odpUpload f s =
      (t.odpOpen ⟨f.srcAddr, f.tid, f.index, f.sub, false, bs.length, bs⟩, some (odpAnswer f 0x11 0 [] 0 (some bs.length))) := by
  simp [odpUpload, hcheck, hfull]

theorem odpUploadSeg_served {x : OdpXfer} (hx : s.odpXfer f = some x) (hup : x.download = false) (hrange : f.offset + f.plen ≤ x.total) :
    odpUploadSeg f s = (s, some (odpAnswer f 0x13 0 (s.uploadRange x.index x.sub x.data f.offset f.plen)
      (if f.offset + f.plen = x.total then 1 else 0))) := by
  simp [odpUploadSeg, hx, hup, Nat.not_lt.mpr hrange]

theorem odpDownload_opened (hcheck : s.downloadCheck .odp f.index f.sub f.offset = 0) (hfull : s.odpFull f = false) :
    odpDownload f s = (s.odpOpen ⟨f.srcAddr, f.tid, f.index, f.sub, true, f.offset, []⟩, some (odpAnswer f 0x21)) := by
  simp [odpDownload, hcheck, hfull]

theorem odpAbort_open {x : OdpXfer} (hx : s.odpXfer f = some x) : odpAbort f s = (s.odpDrop f, some (odpAbortResp f 0xA00D)) := by
  simp [odpAbort, hx]

section
variable {x : OdpXfer} (hx : s.odpXfer f = some x) (hdown : x.download = true) (hlen : f.plen ≤ f.payload.length)
  (hoff : f.offset = x.data.length)
include hx hdown hlen hoff

/-- A segment in order that is not the last is added. -/
theorem odpDownloadSeg_added (hne : f.payload.take f.plen ≠ []) (hlast : bit f.flags 0 = false)
    (hrange : f.offset + (f.payload.take f.plen).length ≤ x.total) :
    odpDownloadSeg f s = (s.odpSet f { x with data := x.data ++ f.payload.take f.plen }, some (odpAnswer f 0x23)) := by
  simp only [odpDownloadSeg, hx, odpData_whole hlen]
  generalize f.payload.take f.plen = bs at *
  have hrange' : ¬ x.total < x.data.length + bs.length := by omega
  simp [hdown, hoff, hne, hlast, hrange']

/-- The last segment in order ends the download. -/
theorem odpDownloadSeg_last (hlast : bit f.flags 0 = true) (htotal : x.data.length + (f.payload.take f.plen).length = x.total) :
    odpDownloadSeg f s = odpFinish f x (x.data ++ f.payload.take f.plen) s := by
  simp only [odpDownloadSeg, hx, odpData_whole hlen]
  generalize f.payload.take f.plen = bs at *
  have hrange : ¬ x.total < x.data.length + bs.length := by omega
  simp [hdown, hoff, hlast, htotal]

end

/-- The whole content is validated and applied; a firmware image's response waits for its writing (R524). -/
theorem odpFinish_eq (x : OdpXfer) (bs : List Byte) :
    let e := (s.odpDrop f).downloadEnd .odp x.index x.sub bs
    odpFinish f x bs s = if e.2 ≠ 0 then (e.1, some (odpAbortResp f e.2))
      else if x.index = 0xC020 then
        ({ e.1 with fw := { e.1.fw with writer := some (.odp f.srcAddr f.srcPort f.tid f.index f.sub f.offset) } }, none)
      else (e.1, some (odpAnswer f 0x23)) := rfl

end

/-! ## The statements -/

/-- Only a write or the last segment of a download can set the PLCA parameters (R518). -/
theorem not_plca_of_typ {f : OdpFrame} {typ : Nat} {r : OdpResp} (h3 : typ ≠ 0x03) (h22 : typ ≠ 0x22) :
    ¬(f.index = 0x1400 ∧ (typ = 0x03 ∨ typ = 0x22) ∧ r.code = 0) := fun h => h.2.1.elim h3 h22

/-- Settles O14: each request's answer, carried through the frame's checks. -/
theorem odpRequestsAreAnswered : Obligations.OdpRequestsAreAnswered := by
  intro s f hf u answers
  -- The row of a request is its frame, acted on in the state that has counted it.
  have answered {c : Instr} {typ : Nat} {act : OdpAct} {t : State} {r : OdpResp} (hrow : exec c s = .next (s.odpFrame f typ act))
      (hact : act u = (t, some r)) (hplca : ¬(f.index = 0x1400 ∧ (typ = 0x03 ∨ typ = 0x22) ∧ r.code = 0)) : answers c typ t r :=
    fun h => hrow.trans (congrArg Host.Outcome.next (State.odpFrame_answered h hf hact hplca))
  refine ⟨?read, ?readRefused, ?write, ?writePlca, ?writeRefused, ?upload, ?uploadSeg, ?download, ?downloadSeg, ?abort, ?discover⟩
  case read =>
    intro o haccess hdomain hlen
    exact answered rfl (odpRead_value haccess hdomain hlen) (not_plca_of_typ (by decide) (by decide))
  case readRefused =>
    intro c haccess
    exact answered rfl (odpRead_refused haccess) (not_plca_of_typ (by decide) (by decide))
  case write =>
    intro t hlen hidx hwrite
    exact answered rfl (odpWrite_made hlen hwrite) fun h => hidx h.1
  case writePlca =>
    intro t hlen hidx hwrite h
    exact congrArg Host.Outcome.next (State.odpFrame_plca h hf (odpWrite_made hlen hwrite) ⟨hidx, .inl rfl, rfl⟩)
  case writeRefused =>
    intro c hc hlen hwrite
    exact answered rfl (odpWrite_refused hlen hwrite) fun h => hc h.2.2
  case upload =>
    intro bs t hcheck hfull
    exact answered rfl (odpUpload_opened hcheck hfull) (not_plca_of_typ (by decide) (by decide))
  case uploadSeg =>
    intro x hx hup hrange
    exact answered rfl (odpUploadSeg_served hx hup hrange) (not_plca_of_typ (by decide) (by decide))
  case download =>
    intro hcheck hfull
    exact answered rfl (odpDownload_opened hcheck hfull) (not_plca_of_typ (by decide) (by decide))
  case downloadSeg =>
    intro x hx hdown hlen hoff bs
    refine ⟨?added, ?last⟩
    case added =>
      intro hne hlast hidx hrange
      exact answered rfl (odpDownloadSeg_added hx hdown hlen hoff hne hlast hrange) fun h => hidx h.1
    case last =>
      intro e hlast htotal hidx
      have hact := (odpDownloadSeg_last hx hdown hlen hoff hlast htotal).trans (odpFinish_eq x (x.data ++ bs))
      refine ⟨fun hok himage => ?_, fun hcode => ?_, fun hok himage h => ?_⟩
      · exact answered rfl (hact.trans ((if_neg (not_not.mpr hok)).trans (if_neg himage))) fun h => hidx h.1
      · exact answered rfl (hact.trans (if_pos hcode)) fun h => hidx h.1
      · exact congrArg Host.Outcome.next
          (State.odpFrame_pending h hf (hact.trans ((if_neg (not_not.mpr hok)).trans (if_pos himage))))
  case abort =>
    intro x hx
    exact answered rfl (odpAbort_open hx) (not_plca_of_typ (by decide) (by decide))
  case discover => exact answered rfl rfl (not_plca_of_typ (by decide) (by decide))

/-- Each row of `odpRow` is its frame, acted on. -/
theorem exec_odpRow {c : Instr} {f : OdpFrame} {typ : Nat} {act : OdpAct} (s : State) (h : odpRow c = some (f, typ, act)) :
    exec c s = .next (s.odpFrame f typ act) := by
  unfold odpRow at h
  split at h <;> cases h <;> rfl

/-- A frame of another version, or of a type that R57 does not list, is refused as a whole. -/
theorem exec_odpUnknownFrame {f : OdpFrame} (s : State) (h : ¬(f.version = 1 ∧ odpTypes.contains f.typ = true)) :
    exec (.odpUnknownFrame f) s = .next (s.odpFrame f f.typ fun s => (s, some (odpAbortResp f 0xA00B))) :=
  congrArg Host.Outcome.next (if_neg h)

/-- Settles O15: the frame's checks for strangers and repetitions, row by row, and the timeout of a transfer. -/
theorem odpStrangersAreAbortedAndTransfersTimeOut : Obligations.OdpStrangersAreAbortedAndTransfersTimeOut := by
  intro s f
  refine ⟨?version, ?unknown, ?here, ?elsewhere, ?timeout⟩
  case version =>
    intro h hversion
    rw [exec_odpUnknownFrame s fun e => hversion e.1, State.odpFrame_badVersion _ h hversion]
  case unknown =>
    intro h hf htype
    rw [exec_odpUnknownFrame s fun e => Bool.eq_false_iff.mp htype e.2]
    exact congrArg Host.Outcome.next (State.odpFrame_answered h hf rfl fun e => by cases e.2.2)
  case here =>
    intro c typ act hrow hup hdst
    rw [exec_odpRow s hrow]
    exact ⟨fun hign => congrArg Host.Outcome.next (State.odpFrame_ignored act hup hdst hign),
      fun m hign hport hwriting hmemo => congrArg Host.Outcome.next (State.odpFrame_repeated act hup hdst hign hport hwriting hmemo)⟩
  case elsewhere =>
    intro c typ act hrow hdst
    rw [exec_odpRow s hrow, State.odpFrame_other act hdst]
  case timeout =>
    intro n x hx
    have hrow : exec (.odpTransferTimeout n) s = execOdpTransferTimeout n s := rfl
    rw [hrow, execOdpTransferTimeout, hx]

end Sys2Proof.Machine

/-! The end of a save (R62, O21), and the event log (R72 to R74, O22). -/

namespace Sys2Proof.Machine

open Sys2Proof.Claims

/-! ## A save ends (R62) -/

/-- The event of a failed save writes none of the store's objects. -/
theorem State.logEv_get_store (s : State) (e : Ev) {a : Nat} (ha : a < 256) : (s.logEv e).get 0x1011 a = s.get 0x1011 a :=
  State.get_logEv _ _ (by decide) (by decide) ha

/-- A save that verified commits the other bank with the next generation. -/
theorem exec_storeSaveDone_verified {s : State} {img : AMap Nat} (hsaving : s.store.saving = some img) :
    let g := (s.get 0x1011 2 + 1) % 2 ^ 32
    let st := { s.store with saving := none }
    let st' := if st.inBank1 then { st with bank0 := ⟨true, true, g, img⟩ } else { st with bank1 := ⟨true, true, g, img⟩ }
    exec (.storeSaveDone true) s = .next ((({ s with store := st' }.put 0x1011 1 0).put 0x1011 2 g).put 0x1011 3 0) := by
  have hrow : exec (.storeSaveDone true) s = execStoreSaveDone true s := rfl
  rw [hrow, execStoreSaveDone, hsaving]
  rfl

/-- A save that failed leaves both banks. -/
theorem exec_storeSaveDone_failed {s : State} {img : AMap Nat} (hsaving : s.store.saving = some img) :
    exec (.storeSaveDone false) s = .next
      ((({ s with store := { s.store with saving := none } }.put 0x1011 1 2).put 0x1011 3 0xA00E).logEv (pkgEv 0xA00E warning)) := by
  have hrow : exec (.storeSaveDone false) s = execStoreSaveDone false s := rfl
  rw [hrow, execStoreSaveDone, hsaving]
  rfl

/-- An object of the store reads what was put into it, whatever other member was put after it. -/
theorem State.get_put_store (s : State) {a b : Nat} (v : Nat) (ha : a < 256) (hb : b < 256) (h : a ≠ b) :
    (s.put 0x1011 b v).get 0x1011 a = s.get 0x1011 a := State.get_put_ne _ _ (key_sub_ne ha hb h)

/-- Settles O21: the verified save and the failed one, object by object. -/
theorem saveEndsWithTheCommitFlag : Obligations.SaveEndsWithTheCommitFlag := by
  intro s img hsaving
  refine ⟨⟨_, exec_storeSaveDone_verified hsaving, ?saving, ?bank0, ?bank1, ?state, ?generation, ?result⟩,
    ⟨_, exec_storeSaveDone_failed hsaving, ?storeKept, ?stateFailed, ?resultFailed, ?event⟩⟩
  case saving =>
    simp only [State.put_store]
    split <;> rfl
  case bank0 =>
    intro h
    rw [State.put_store, State.put_store, State.put_store]
    dsimp only
    rw [if_pos (show ({ s.store with saving := none } : Store).inBank1 = true from h)]
    exact ⟨rfl, rfl⟩
  case bank1 =>
    intro h
    rw [State.put_store, State.put_store, State.put_store]
    dsimp only
    rw [if_neg (show ¬({ s.store with saving := none } : Store).inBank1 = true from Bool.eq_false_iff.mp h)]
    exact ⟨rfl, rfl⟩
  case state => rw [State.get_put_store _ _ (by decide) (by decide) (by decide), State.get_put_store _ _ (by decide) (by decide) (by decide), State.get_put]
  case generation => rw [State.get_put_store _ _ (by decide) (by decide) (by decide), State.get_put]
  case result => exact State.get_put _ _ _ _
  case storeKept => simp
  case stateFailed =>
    rw [State.logEv_get_store _ _ (by decide), State.get_put_store _ _ (by decide) (by decide) (by decide), State.get_put]
  case resultFailed => rw [State.logEv_get_store _ _ (by decide), State.get_put]
  case event =>
    obtain ⟨x, hx, -, -, hcode, hseverity, -⟩ := State.logEv_newest _ (pkgEv 0xA00E warning)
    exact ⟨x, hx, hcode, hseverity⟩

/-! ## One event (R72, R73) -/

/-- A ring that may hold an entry never holds more than its capacity. -/
theorem State.logEv_ring_length (s : State) (e : Ev) (hcap : 0 < s.ringCap) : (s.logEv e).log.ring.length ≤ s.ringCap := by
  have hring : (s.logEv e).log.ring.length = s.log.ring.length - (s.log.ring.length + 1 - s.ringCap) + 1 := by
    unfold State.logEv
    dsimp only
    repeat' split
    all_goals simp
  omega

/-- NEWEST_SEQ reads the number of the event (R75). -/
theorem State.logEv_newestSeq (s : State) (e : Ev) : (s.logEv e).get 0xA001 4 = s.log.nextSeq := by
  by_cases hclass : 1 ≤ e.code / 4096 ∧ e.code / 4096 ≤ 10
  · have hne : key 0xA001 4 ≠ key 0xA010 (e.code / 4096) := by unfold key; omega
    simp only [State.logEv, if_pos hclass]
    split <;> simp [State.get_count_ne _ _ _ hne]
  · simp only [State.logEv, if_neg hclass]
    split <;> simp

/-! ## EVENT frames and the flash log (R73, R74) -/

/-- What no step of a fold changes, the fold leaves as it was. -/
theorem foldl_field {α β γ : Type} (g : β → γ) (f : β → α → β) (h : ∀ b a, g (f b a) = g b) (l : List α) (b : β) :
    g (l.foldl f b) = g b := by
  induction l generalizing b with
  | nil => rfl
  | cons a l ih => exact (ih _).trans (h b a)

theorem State.tx_mem (s : State) (o : Output) : (s.tx o).mem = s.mem := by unfold State.tx; split <;> rfl
theorem State.tx_log (s : State) (o : Output) : (s.tx o).log = s.log := by unfold State.tx; split <;> rfl
/-- A frame that is sent changes no object but 0x1400:09. -/
theorem State.tx_get (s : State) (o : Output) {i a : Nat} (h : key i a ≠ key 0x1400 9) : (s.tx o).get i a = s.get i a := by
  unfold State.tx
  split
  · rfl
  · rw [State.emit_get, State.get_count_ne _ _ _ h]

/-- Sending EVENT frames marks entries of the ring, and keeps the log otherwise. -/
theorem State.sendEvents_frame (s : State) : s.sendEvents.log.ring.length = s.log.ring.length ∧ s.sendEvents.log.flash = s.log.flash
    ∧ s.sendEvents.log.nextSeq = s.log.nextSeq ∧ s.sendEvents.mem = s.mem ∧ s.sendEvents.get 0xA002 1 = s.get 0xA002 1 := by
  unfold State.sendEvents
  split
  · exact ⟨rfl, rfl, rfl, rfl, rfl⟩
  · have hlog := foldl_field State.log (fun s e => s.tx (s.eventFrame e)) (fun s e => s.tx_log _)
    have hmem := foldl_field State.mem (fun s e => s.tx (s.eventFrame e)) (fun s e => s.tx_mem _)
    have hget (es : List LogEntry) : (es.foldl (fun s e => s.tx (s.eventFrame e)) s).get 0xA002 1 = s.get 0xA002 1 :=
      foldl_get es _ 0xA002 1 (fun s e _ => s.tx_get _ (by decide)) s
    refine ⟨?_, ?_, ?_, ?_, ?_⟩
    · simp [hlog]
    · simp [hlog]
    · simp [hlog]
    · simp [hmem]
    · exact hget _

/-- After writing the flash log, an entry that is not persisted was below PERSIST_LEVEL, or older than the newest in flash (log 26). -/
theorem State.persistRing_persisted (s : State) : ∀ e ∈ s.persistRing.log.ring,
    e.persisted = true ∨ e.severity < s.get 0xA002 1 ∨ e.seq ≤ s.log.kept.foldl (fun m e => max m e.seq) 0 := by
  intro e he
  obtain ⟨x, -, rfl⟩ := List.mem_map.mp he
  split
  · exact .inl rfl
  · next hdue =>
    by_cases hp : x.persisted = true
    · exact .inl hp
    · by_cases hlevel : s.get 0xA002 1 ≤ x.severity
      · refine .inr (.inr (Nat.not_lt.mp fun hnewer => hdue ?_))
        simp [hp, hlevel, hnewer]
      · exact .inr (.inl (Nat.not_le.mp hlevel))

/-- Writing the flash log changes nothing but the log. -/
theorem State.persistRing_frame (s : State) : s.persistRing.log.ring.length = s.log.ring.length
    ∧ s.persistRing.log.nextSeq = s.log.nextSeq ∧ s.persistRing.mem = s.mem := ⟨List.length_map _, rfl, rfl⟩

theorem exec_eventLogPersist {s : State} (hoff : s.power.pst ≠ .off) : exec .eventLogPersist s = .next s.sendEvents.persistRing :=
  congrArg Host.Outcome.next (if_neg hoff)

/-- Settles O22: the entry that one event leaves, and the two parts of persisting the ring. -/
theorem eventsTakeRisingNumbersAndPersist : Obligations.EventsTakeRisingNumbersAndPersist := by
  constructor
  · intro s e
    exact ⟨s.logEv_log_nextSeq e, s.logEv_newest e, fun hcap _ => s.logEv_ring_length e hcap, s.logEv_newestSeq e,
      s.logEv_mem e, s.logEv_tiles e⟩
  · intro s hoff
    obtain ⟨hlen, hflash, hseq, hmem, hlevel⟩ := s.sendEvents_frame
    obtain ⟨hlen', hseq', hmem'⟩ := s.sendEvents.persistRing_frame
    have hkept : s.sendEvents.log.kept = s.log.kept := by simp only [EventLog.kept, hflash]
    refine ⟨_, exec_eventLogPersist hoff, hlen'.trans hlen, ?_, ?_, hmem'.trans hmem, hseq'.trans hseq⟩
    · have hpersisted := s.sendEvents.persistRing_persisted
      rwa [hlevel, hkept] at hpersisted
    · exact (State.persistRing_keeps (State.sendEvents_keeps (keeps_refl s))).sent

end Sys2Proof.Machine

/-! The lighthouse starts (R72, R487, R491, R499; O17). -/

namespace Sys2Proof.Machine

open Sys2Proof.Claims

/-! ## What the steps of a lighthouse start leave alone -/

/-- What a start reports and restores leaves the power and the management port, the timer, the staged members and the boot count. -/
structure State.StartKeeps (s t : State) : Prop where
  power : t.power = s.power
  mgmt : t.mgmt = s.mgmt
  timer : t.timer = s.timer
  staged : t.staged = s.staged
  boot : t.log.bootCount = s.log.bootCount

theorem startKeeps_refl (s : State) : s.StartKeeps s := ⟨rfl, rfl, rfl, rfl, rfl⟩
theorem startKeeps_trans {s t u : State} (h : s.StartKeeps t) (g : t.StartKeeps u) : s.StartKeeps u :=
  ⟨g.power.trans h.power, g.mgmt.trans h.mgmt, g.timer.trans h.timer, g.staged.trans h.staged, g.boot.trans h.boot⟩
theorem startKeeps_ite {s t u : State} {c : Prop} [Decidable c] (ht : s.StartKeeps t) (hu : s.StartKeeps u) :
    s.StartKeeps (if c then t else u) := by split <;> assumption

theorem State.logEv_bootCount (s : State) (e : Ev) : (s.logEv e).log.bootCount = s.log.bootCount := by
  unfold State.logEv
  dsimp only
  repeat' split
  all_goals simp

section
variable {z s : State} (h : z.StartKeeps s)
include h

theorem State.put_startKeeps (idx sub v : Nat) : z.StartKeeps (s.put idx sub v) := startKeeps_trans h ⟨rfl, rfl, rfl, rfl, rfl⟩

theorem State.logEv_startKeeps (e : Ev) : z.StartKeeps (s.logEv e) :=
  startKeeps_trans h ⟨s.logEv_power e, s.logEv_mgmt e, s.logEv_timer e, s.logEv_staged e, s.logEv_bootCount e⟩

theorem State.logHard_startKeeps (e : Ev) : z.StartKeeps (s.logHard e) := by
  have hcount : z.StartKeeps s.countHard := by
    unfold State.countHard
    exact startKeeps_ite (State.put_startKeeps h _ _ _) h
  exact State.logEv_startKeeps hcount _

theorem State.logEvery_startKeeps (period : Nat) (e : Ev) : z.StartKeeps (s.logEvery period e) := by
  have hlogged : z.StartKeeps { s.logEv e with log := { (s.logEv e).log with lastAt := mset s.log.lastAt e.code s.timer } } :=
    startKeeps_trans (State.logEv_startKeeps h e) ⟨rfl, rfl, rfl, rfl, rfl⟩
  unfold State.logEvery
  split
  · exact startKeeps_ite h hlogged
  · exact hlogged

theorem State.applySaved_startKeeps (k : Nat) : z.StartKeeps (s.applySaved k) := by
  have hlogged : z.StartKeeps ({ s with dict := merase s.dict k }.logEv { code := 0xA016, severity := note, kind := 11, id := k }) := by
    refine State.logEv_startKeeps ?_ _
    exact startKeeps_trans h ⟨rfl, rfl, rfl, rfl, rfl⟩
  unfold State.applySaved
  split
  · exact h
  · split
    · exact startKeeps_ite (startKeeps_trans h ⟨rfl, rfl, rfl, rfl, rfl⟩) hlogged
    · exact hlogged

theorem State.applySavedAll_startKeeps (keep : Nat → Bool) : z.StartKeeps (s.applySavedAll keep) := by
  unfold State.applySavedAll
  induction savedKeys keep generalizing s with
  | nil => exact h
  | cons k ks ih => exact ih (State.applySaved_startKeeps h k)

theorem State.fwStatus_startKeeps : z.StartKeeps s.fwStatus := startKeeps_trans h ⟨rfl, rfl, rfl, rfl, rfl⟩

theorem State.bootSelect_startKeeps : z.StartKeeps s.bootSelect := by
  unfold State.bootSelect
  split
  · refine State.fwStatus_startKeeps (startKeeps_ite ?_ (State.logEv_startKeeps ?_ _))
    all_goals exact startKeeps_trans h ⟨rfl, rfl, rfl, rfl, rfl⟩
  · refine State.fwStatus_startKeeps (State.logHard_startKeeps ?_ _)
    exact startKeeps_trans h ⟨rfl, rfl, rfl, rfl, rfl⟩

theorem State.setLh_startKeeps (x : Lighthouse) : z.StartKeeps { s with lh := x } := startKeeps_trans h ⟨rfl, rfl, rfl, rfl, rfl⟩

theorem State.newNonce_startKeeps : z.StartKeeps s.newNonce := startKeeps_trans h ⟨rfl, rfl, rfl, rfl, rfl⟩

end

/-! ## The start as a whole (R499) -/

/-- The state whose latches have been reported. -/
def State.unlatched (s : State) : State := { s with power := { s.power with ovLatch := false, resetLatch := false } }

/-- The state whose next boot has begun (log 26). -/
def State.rebooted (s : State) : State := { s with log := { s.log with bootCount := (s.log.bootCount + 1) % 65536, lastAt := [] } }

/-- A start reports the latches and clears them. -/
theorem State.startEvents_startKeeps {z s : State} (h : z.StartKeeps s) : z.unlatched.StartKeeps s.startEvents := by
  unfold State.startEvents
  extract_lets overvoltage reset power fw cleared reference conv0
  have hovervoltage : z.StartKeeps overvoltage := startKeeps_ite (State.logHard_startKeeps h _) h
  have hreset : z.StartKeeps reset := startKeeps_ite (State.logEv_startKeeps hovervoltage _) hovervoltage
  have hcleared : z.unlatched.StartKeeps cleared :=
    ⟨by simp only [cleared, power, State.unlatched, hreset.power], hreset.mgmt, hreset.timer, hreset.staged, hreset.boot⟩
  have hreference : z.unlatched.StartKeeps reference := startKeeps_ite hcleared (State.logEvery_startKeeps hcleared _ _)
  have hconv0 : z.unlatched.StartKeeps conv0 := startKeeps_ite (State.logEv_startKeeps hreference _) hreference
  exact startKeeps_ite (State.logEv_startKeeps hconv0 _) hconv0

/-- A start begins the next boot and clears the latches; the rest of the power state stays. -/
theorem State.lighthouseStart_startKeeps (s : State) : s.rebooted.unlatched.StartKeeps s.lighthouseStart := by
  unfold State.lighthouseStart
  extract_lets log counted store image saved lh ageing
  have hcounted : s.rebooted.StartKeeps counted := startKeeps_refl _
  have himage : s.rebooted.StartKeeps image := by
    unfold image
    split
    · refine State.put_startKeeps ?_ _ _ _
      exact startKeeps_trans hcounted ⟨rfl, rfl, rfl, rfl, rfl⟩
    · refine State.logEv_startKeeps ?_ _
      exact startKeeps_trans hcounted ⟨rfl, rfl, rfl, rfl, rfl⟩
  have hsaved : s.rebooted.StartKeeps saved := State.applySavedAll_startKeeps himage _
  have hageing : s.rebooted.StartKeeps ageing := by
    unfold ageing
    split
    · exact State.setLh_startKeeps hsaved _
    · exact State.logEv_startKeeps (State.setLh_startKeeps hsaved _) _
  exact State.newNonce_startKeeps (State.bootSelect_startKeeps (State.startEvents_startKeeps hageing))

/-- The management port runs once its reference is there (R519). -/
theorem State.mgmtStart_running {s : State} (hon : s.power.pst ≠ .off) : s.mgmtStart.mgmt.running = (s.mgmt.running || s.power.mref) := by
  cases hmref : s.power.mref <;> simp [State.mgmtStart, hon, hmref]

theorem State.mgmtStart_frame (s : State) : s.mgmtStart.power = s.power ∧ s.mgmtStart.timer = s.timer ∧ s.mgmtStart.staged = s.staged
    ∧ s.mgmtStart.log = s.log := by
  unfold State.mgmtStart
  split <;> exact ⟨rfl, rfl, rfl, rfl⟩

/-- The lighthouse and the management port start in a device that has its supply. -/
theorem State.lighthouseUp {s : State} (hon : s.power.pst ≠ .off) :
    let u := s.lighthouseStart.mgmtStart
    u.power = s.unlatched.power ∧ u.timer = s.timer ∧ u.staged = s.staged ∧ u.mgmt.running = (s.mgmt.running || s.power.mref)
      ∧ u.log.bootCount = (s.log.bootCount + 1) % 65536 := by
  obtain ⟨hpower, hmgmt, htimer, hstaged, hboot⟩ := s.lighthouseStart_startKeeps
  obtain ⟨hpower', htimer', hstaged', hlog'⟩ := s.lighthouseStart.mgmtStart_frame
  have hon' : s.lighthouseStart.power.pst ≠ .off := by rw [hpower]; exact hon
  refine ⟨hpower'.trans hpower, htimer'.trans htimer, hstaged'.trans hstaged, ?_, by rw [hlog', hboot]; rfl⟩
  rw [State.mgmtStart_running hon', hmgmt, hpower]
  rfl

/-! ## A start out of AUX waits for the clamp check (R33, log 69) -/

/-- The state in which a start is pending where AUTO_START asks for one. -/
def State.awaitStart (s : State) : State := { s with power := { s.power with startPending := s.autoStart } }

/-- Before the clamp check, AUTO_START leaves a start pending and nothing else. -/
theorem State.autoStart_waits {s : State} (hclamp : s.power.clampGood = false) (hpending : s.power.startPending = false) :
    (if s.autoStart then s.wantStart else s) = s.awaitStart := by
  unfold State.awaitStart
  split
  · next hauto => rw [State.wantStart, hclamp, hauto]; rfl
  · next hauto => rw [Bool.eq_false_iff.mpr hauto, ← hpending]

/-- The device after its lighthouse has started in AUX, with the start that AUTO_START asks for (R487, R499). -/
def State.comeUp (s : State) : State :=
  let u := s.lighthouseStart.mgmtStart
  if u.autoStart then u.wantStart else u

/-- Before the clamp check, a device that comes up stays where it is, with a start pending where AUTO_START asks for one. -/
theorem State.comeUp_frame {s : State} (hon : s.power.pst ≠ .off) (hclamp : s.power.clampGood = false)
    (hpending : s.power.startPending = false) :
    s.comeUp.power = { s.power with ovLatch := false, resetLatch := false, startPending := s.comeUp.autoStart } ∧ s.comeUp.timer = s.timer
      ∧ s.comeUp.staged = s.staged ∧ s.comeUp.mgmt.running = (s.mgmt.running || s.power.mref)
      ∧ s.comeUp.log.bootCount = (s.log.bootCount + 1) % 65536 := by
  have hup := State.lighthouseUp hon
  unfold State.comeUp
  generalize s.lighthouseStart.mgmtStart = u at hup
  obtain ⟨hpower, htimer, hstaged, hrunning, hboot⟩ := hup
  have hwaits : (if u.autoStart then u.wantStart else u) = u.awaitStart := by
    refine State.autoStart_waits ?_ ?_
    · rw [hpower]; exact hclamp
    · rw [hpower]; exact hpending
  dsimp only
  rw [hwaits]
  refine ⟨?_, htimer, hstaged, hrunning, hboot⟩
  have hauto : u.awaitStart.autoStart = u.autoStart := rfl
  rw [hauto, State.awaitStart, hpower]
  rfl

/-! ## Power-on and PKG_RESET_N (R72, R487, R491) -/

/-- A change of the power state leaves the management port, the staged members and the log. -/
theorem State.setPst_frame (s : State) (p : PState) :
    (s.setPst p).mgmt = s.mgmt ∧ (s.setPst p).staged = s.staged ∧ (s.setPst p).log = s.log := by
  unfold State.setPst
  split <;> simp

/-- The device as 48 V finds it in AUX: volatile objects at their defaults, the lighthouse fresh, the numbering resumed (R72). -/
def State.powered (s : State) : State :=
  (((s.resumed.volatileDefaults).freshLighthouse []).put 0xB000 6 (if s.power.ovLatch then s.get 0xB000 6 else 0)).setPst .aux

theorem exec_powerOn {s : State} (hoff : s.power.pst = .off) : exec .powerOn s = .next s.powered.comeUp :=
  congrArg Host.Outcome.next (if_neg (not_not.mpr hoff))

theorem State.powered_frame (s : State) : s.powered.power = { s.power with pst := .aux, clampGood := false, startPending := false }
    ∧ s.powered.timer = 0 ∧ s.powered.staged = [] ∧ s.powered.mgmt = s.mgmt ∧ s.powered.log.bootCount = s.log.bootCount := by
  obtain ⟨hmgmt, hstaged, hlog⟩ := State.setPst_frame
    (((s.resumed.volatileDefaults).freshLighthouse []).put 0xB000 6 (if s.power.ovLatch then s.get 0xB000 6 else 0)) .aux
  have hboot := congrArg EventLog.bootCount hlog
  exact ⟨State.setPst_power _ _, State.setPst_timer _ _, hstaged, hmgmt, hboot⟩

/-- A device that fell to AUX, as PKG_RESET_N holds it there (R491). -/
def State.heldInReset (s : State) (trip : List Nat) : State :=
  (((s.volatileDefaults).freshLighthouse trip).holdReset.put 0xB000 1 PState.aux.code).put 0xB000 6 0x800C

theorem State.heldInReset_power (s : State) (trip : List Nat) : (s.heldInReset trip).power =
    { s.power with clampGood := false, startPending := false, resetLow := true, resetLatch := true } := rfl
theorem State.heldInReset_frame (s : State) (trip : List Nat) : (s.heldInReset trip).timer = 0 ∧ (s.heldInReset trip).staged = []
    ∧ (s.heldInReset trip).plan = s.plan ∧ (s.heldInReset trip).store.orderly = false := ⟨rfl, rfl, rfl, rfl⟩
theorem State.heldInReset_cause (s : State) (trip : List Nat) : (s.heldInReset trip).get 0xB000 6 = 0x800C := State.get_put _ _ _ _
theorem State.heldInReset_state (s : State) (trip : List Nat) : (s.heldInReset trip).get 0xB000 1 = PState.aux.code :=
  (State.get_put_ne _ _ (by decide)).trans (State.get_put _ _ _ _)

theorem exec_pkgResetAssert {s : State} (hon : s.power.pst ≠ .off) :
    exec .pkgResetAssert s = .next ((s.fallTo .aux 0x800C).heldInReset s.lh.trip) := congrArg Host.Outcome.next (if_neg hon)
theorem exec_pkgResetAssert_off {s : State} (hoff : s.power.pst = .off) :
    exec .pkgResetAssert s = .next { s with power := { s.power with resetLow := true } } :=
  congrArg Host.Outcome.next (if_pos hoff)

/-- A fall stops the harbourmaster (R489). -/
theorem State.fallTo_hmRunning (s : State) (p : PState) (cause : Nat) : (s.fallTo p cause).power.hmRunning = false := by
  simp [State.fallTo, State.sweepTransfers, State.setPst_power, State.dropDram, State.forget, State.dropGroups, State.dropHarbourmaster]

/-- The device with PKG_RESET_N released. -/
def State.released (s : State) : State := { s with power := { s.power with resetLow := false } }

theorem exec_pkgResetRelease {s : State} (hlow : s.power.resetLow = true) (hon : s.power.pst ≠ .off) : exec .pkgResetRelease s =
    .next s.released.comeUp := by
  have hlow' : ¬(!s.power.resetLow) = true := by simp [hlow]
  exact congrArg Host.Outcome.next ((if_neg hlow').trans (if_neg hon))
theorem exec_pkgResetRelease_off {s : State} (hlow : s.power.resetLow = true) (hoff : s.power.pst = .off) :
    exec .pkgResetRelease s = .next s.released := by
  have hlow' : ¬(!s.power.resetLow) = true := by simp [hlow]
  exact congrArg Host.Outcome.next ((if_neg hlow').trans (if_pos hoff))

/-- Settles O17: each row is a start of the lighthouse, or the reset state that is held until one. -/
theorem powerOnAndPackageResetStartTheLighthouse : Obligations.PowerOnAndPackageResetStartTheLighthouse := by
  refine ⟨fun s hoff => ?powerOn, fun s hon => ?assert, fun s hoff => exec_pkgResetAssert_off hoff,
    fun s hlow => ⟨fun haux hclamp hpending => ?release, exec_pkgResetRelease_off hlow⟩⟩
  case powerOn =>
    obtain ⟨hpower, htimer, hstaged, hmgmt, hboot⟩ := s.powered_frame
    obtain ⟨hpower', htimer', hstaged', hrunning', hboot'⟩ :=
      State.comeUp_frame (s := s.powered) (by rw [hpower]; exact nofun) (by rw [hpower]) (by rw [hpower])
    obtain ⟨t, ht, hkeeps⟩ := exec_powerOn_keeps s
    rw [State.before_powerOn hoff] at hkeeps
    obtain rfl := Host.Outcome.next.inj ((exec_powerOn hoff).symm.trans ht)
    refine ⟨_, ht, ?_, htimer'.trans htimer, hstaged'.trans hstaged, ?_, ?_, ?_, by rw [hboot', hboot], hkeeps.seq⟩
    · rw [hpower', hpower]
    · rw [hrunning', hmgmt, hpower]
    · rw [hpower', hpower]
    · rw [hpower']
  case assert =>
    obtain ⟨htimer, hstaged, hplan, horderly⟩ := (s.fallTo .aux 0x800C).heldInReset_frame s.lh.trip
    refine ⟨_, exec_pkgResetAssert hon, ?_, ?_, htimer, State.heldInReset_cause _ _, State.heldInReset_state _ _, hstaged, ?_, ?_,
      hplan.trans (s.fallTo_plan _ _), horderly⟩
    all_goals rw [State.heldInReset_power]
    · exact s.fallTo_pst _ _
    · exact s.fallTo_hmRunning _ _
  case release =>
    obtain ⟨hpower', -, -, hrunning', hboot'⟩ := State.comeUp_frame (s := s.released) (by rw [State.released, haux]; decide) hclamp hpending
    refine ⟨_, exec_pkgResetRelease hlow (by rw [haux]; decide), ?_, ?_, ?_, hrunning', hboot'⟩
    · rw [hpower']; rfl
    · rw [hpower']; exact haux
    · rw [hpower']

end Sys2Proof.Machine

/-! The end of a plan's load and of its unload (R82, R85 to R88, R487; O23). A plan takes effect, and goes, at the row that completes
it (log 30). -/

namespace Sys2Proof.Machine

open Sys2Proof.Claims

/-! ## What a load and an unload leave alone -/

/-- What no step of an iteration changes, the iteration leaves as it was. -/
theorem iter_field {σ γ : Type} (g : σ → γ) (f : Nat → σ → σ) (h : ∀ i s, g (f i s) = g s) (n : Nat) (s : σ) :
    g (iter n f s) = g s := by
  induction n with
  | zero => rfl
  | succ n ih => exact (h n _).trans ih

/-- Memory, the power state and the plan itself: what the configuration of a plan leaves alone. -/
def State.loadFrame (s : State) : List Host.Cell × Power × Option Plan := (s.mem, s.power, s.plan)

theorem State.planPorts_loadFrame (s : State) (p : Plan) : (s.planPorts p).loadFrame = s.loadFrame := by
  refine iter_field State.loadFrame _ (fun i s => ?_) 32 s
  dsimp only
  split <;> rfl

theorem State.configure_loadFrame (s : State) (p : Plan) : (s.configure p).loadFrame = s.loadFrame := by
  have hctxs := foldl_field State.loadFrame State.freshCtx (fun _ _ => rfl)
  have hlayers := foldl_field State.loadFrame
    (fun s (x : LayerDef × Nat) => s.setLayer x.2 (s.freshLayer x.1 LayerSt.empty)) (fun _ _ => rfl)
  exact (State.planPorts_loadFrame _ p).trans ((hlayers _ _).trans (hctxs _ _))

/-- The plan with what its tiles and berths hold: what a return of objects to their defaults leaves alone. -/
def State.planFrame (s : State) : Option Plan × AMap Tile × AMap Berth := (s.plan, s.tiles, s.berths)

theorem State.put_planFrame (s : State) (idx sub v : Nat) : (s.put idx sub v).planFrame = s.planFrame := rfl

theorem State.planDefaults_planFrame (s : State) : s.planDefaults.planFrame = s.planFrame := by
  unfold State.planDefaults
  dsimp only
  have hports := iter_field State.planFrame (fun i (s : State) => (s.put (portIdx i) 1 0).put (portIdx i) 2 0) (fun _ _ => rfl) 32
  have hgroups := iter_field State.planFrame (fun i (s : State) => s.put 0x7100 (i + 1) 0xFFFF) (fun _ _ => rfl) 255
  rw [State.put_planFrame, State.put_planFrame, hports, hgroups]
  rfl

theorem State.unconfigure_planFrame (s : State) : s.unconfigure.planFrame = (none, [], []) := by
  refine (State.planDefaults_planFrame _).trans ?_
  split <;> rfl

theorem State.setPst_berths (s : State) (q : PState) : (s.setPst q).berths = s.berths := by
  unfold State.setPst
  split <;> simp

theorem State.setPst_planFrame (s : State) (q : PState) : (s.setPst q).planFrame = s.planFrame := by
  simp [State.planFrame, State.setPst_berths]

/-! ## A SLEEP that no load or unload has held (R88) -/

theorem State.heldSleep_of_not_held {s : State} (h : s.power.sleepHeld = false) : s.heldSleep = s := by
  simp [State.heldSleep, h]

/-! ## The load completes (R85, R487) -/

/-- The state in which a plan is LOADED, before the power state follows. -/
def State.planDone (s : State) (p : Plan) : State := (s.configure p).put 0x2400 4 3

theorem State.planDone_frame (s : State) (p : Plan) :
    (s.planDone p).mem = s.mem ∧ (s.planDone p).power = s.power ∧ (s.planDone p).plan = s.plan := by
  have h := s.configure_loadFrame p
  simpa [State.loadFrame, State.planDone] using h

theorem State.planDone_state (s : State) (p : Plan) : (s.planDone p).get 0x2400 4 = 3 := State.get_put _ _ _ _

theorem State.planDone_id (s : State) (p : Plan) : (s.planDone p).get 0x2400 8 = p.planId :=
  (State.get_put_ne _ _ (by decide)).trans (State.get_put _ _ _ _)

/-- READY becomes IDLE once a plan is loaded (R487). -/
def State.idleFromReady (s : State) : State := if s.power.pst = .ready then s.setPst .idle else s

theorem State.idleFromReady_frame (s : State) : s.idleFromReady.mem = s.mem ∧ s.idleFromReady.plan = s.plan
    ∧ s.idleFromReady.power.sleepHeld = s.power.sleepHeld := by
  unfold State.idleFromReady
  split
  · exact ⟨State.setPst_mem _ _, State.setPst_plan _ _, by rw [State.setPst_power]⟩
  · exact ⟨rfl, rfl, rfl⟩

theorem State.idleFromReady_get (s : State) {i a : Nat} (h : key i a ≠ key 0xB000 1) : s.idleFromReady.get i a = s.get i a := by
  unfold State.idleFromReady
  split
  · exact State.setPst_get _ _ h
  · rfl

theorem State.idleFromReady_of_ready {s : State} (h : s.power.pst = .ready) : s.idleFromReady.power.pst = .idle := by
  rw [State.idleFromReady, if_pos h, State.setPst_pst]

theorem State.idleFromReady_of_not_ready {s : State} (h : s.power.pst ≠ .ready) : s.idleFromReady = s := if_neg h

theorem exec_planLoadComplete {s : State} {p : Plan} (hplan : s.plan = some p) (hstate : s.get 0x2400 4 = 2) :
    exec .planLoadComplete s = .next (s.planDone p).idleFromReady.heldSleep := by
  have hrow : exec .planLoadComplete s = execPlanLoadComplete s := rfl
  rw [hrow, execPlanLoadComplete, hplan]
  exact congrArg Host.Outcome.next (if_neg (not_not_intro hstate))

/-! ## A write of the configuration fails (R86, R103) -/

/-- The state of a failed load, before a held SLEEP is taken. -/
def State.planFailed (s : State) (e : PlanErr) : State :=
  { s.planOutcome 0 e.code e.section_ e.entry with plan := none }.logEv
    (pkgEv e.code warning (leBytes 2 e.section_ ++ leBytes 4 e.entry))

theorem State.planFail_eq (s : State) (e : PlanErr) : s.planFail e = (s.planFailed e).heldSleep := rfl

theorem State.planFailed_frame (s : State) (e : PlanErr) : (s.planFailed e).plan = none ∧ (s.planFailed e).mem = s.mem
    ∧ (s.planFailed e).power = s.power := by
  simp [State.planFailed, State.planOutcome]

/-- What a failed load reports in PLAN_STATE, PLAN_RESULT, PLAN_FAULT_SECTION and PLAN_FAULT_ENTRY. -/
theorem State.planFailed_report (s : State) (e : PlanErr) : (s.planFailed e).get 0x2400 4 = 0 ∧ (s.planFailed e).get 0x2400 5 = e.code
    ∧ (s.planFailed e).get 0x2400 6 = e.section_ ∧ (s.planFailed e).get 0x2400 7 = e.entry := by
  have hlog (a : Nat) (ha : a < 256) : (s.planFailed e).get 0x2400 a = (s.planOutcome 0 e.code e.section_ e.entry).get 0x2400 a :=
    State.get_logEv _ _ (by decide) (by decide) ha
  have hput (u : State) {a b : Nat} (v : Nat) (ha : a < 256) (hb : b < 256) (h : a ≠ b) : (u.put 0x2400 b v).get 0x2400 a = u.get 0x2400 a :=
    State.get_put_ne _ _ (key_sub_ne ha hb h)
  refine ⟨(hlog 4 (by decide)).trans ?_, (hlog 5 (by decide)).trans ?_, (hlog 6 (by decide)).trans ?_, (hlog 7 (by decide)).trans ?_⟩
  all_goals simp [State.planOutcome, hput]

theorem State.planFailed_newest (s : State) (e : PlanErr) : newest (s.planFailed e) e.code warning := by
  obtain ⟨x, hx, -, -, hcode, hseverity, -⟩ := State.logEv_newest { s.planOutcome 0 e.code e.section_ e.entry with plan := none }
    (pkgEv e.code warning (leBytes 2 e.section_ ++ leBytes 4 e.entry))
  exact ⟨x, hx, hcode, hseverity⟩

theorem exec_planConfigWriteFail {s : State} (hstate : s.get 0x2400 4 = 2) :
    exec .planConfigWriteFail s = .next (s.planFail ⟨0x1114, 0xFFFF, 0xFFFFFFFF⟩) := congrArg Host.Outcome.next (if_pos hstate)

/-! ## The unload completes (R87, R487) -/

/-- The state in which no plan is loaded any more, before the power state follows. -/
def State.planGone (s : State) : State := s.swapOut.discardAllHolds.unconfigure.put 0x2400 4 0

theorem State.planGone_planFrame (s : State) : s.planGone.planFrame = (none, [], []) := by
  rw [State.planGone, State.put_planFrame, State.unconfigure_planFrame]

/-- IDLE and RUN become READY once no plan is loaded (R487). -/
def State.readyFromWork (s : State) : State := if s.power.pst = .idle ∨ s.power.pst = .run then s.setPst .ready else s

theorem State.readyFromWork_pst (s : State) : s.readyFromWork.power.pst ≠ .idle ∧ s.readyFromWork.power.pst ≠ .run := by
  unfold State.readyFromWork
  split
  · rw [State.setPst_pst]
    decide
  · next h => exact not_or.mp h

theorem State.readyFromWork_planFrame (s : State) : s.readyFromWork.planFrame = s.planFrame := by
  unfold State.readyFromWork
  split
  · exact State.setPst_planFrame _ _
  · rfl

theorem State.readyFromWork_get (s : State) {i a : Nat} (h : key i a ≠ key 0xB000 1) : s.readyFromWork.get i a = s.get i a := by
  unfold State.readyFromWork
  split
  · exact State.setPst_get _ _ h
  · rfl

theorem exec_planUnloadComplete {s : State} (hstate : s.get 0x2400 4 = 4) :
    exec .planUnloadComplete s = .next s.planGone.readyFromWork.heldSleep :=
  congrArg Host.Outcome.next (if_neg (not_not_intro hstate))

/-! ## The statement -/

/-- Settles O23: what each of the three rows leaves before a held SLEEP is taken, and that without one nothing follows. -/
theorem planLoadsAndUnloads : Obligations.PlanLoadsAndUnloads := by
  intro s
  refine ⟨fun p hplan hstate => ?load, fun hstate hheld => ?fail, fun hstate _ => exec_planConfigWriteFail hstate, fun hstate => ?unload⟩
  case load =>
    obtain ⟨hmem, hpower, hplan'⟩ := s.planDone_frame p
    obtain ⟨hmem', hplan'', hsleep⟩ := (s.planDone p).idleFromReady_frame
    have hexec := exec_planLoadComplete hplan hstate
    refine ⟨s.planDone_id p, hmem, fun hheld => ⟨(s.planDone p).idleFromReady, ?row, ?state, ?id, ?plan, ?ready, ?other, ?mem⟩,
      fun _ => ?held⟩
    case row => rw [hexec, State.heldSleep_of_not_held (by rw [hsleep, hpower, hheld])]
    case state => rw [State.idleFromReady_get _ (by decide), State.planDone_state]
    case id => rw [State.idleFromReady_get _ (by decide), State.planDone_id]
    case plan => rw [hplan'', hplan', hplan]
    case ready => exact fun h => State.idleFromReady_of_ready (by rw [hpower, h])
    case other => exact fun h => by rw [State.idleFromReady_of_not_ready (by rwa [hpower]), hpower]
    case mem => rw [hmem', hmem]
    case held =>
      rw [hexec, State.idleFromReady, hpower]
      rfl
  case fail =>
    obtain ⟨hplan, hmem, hpower⟩ := s.planFailed_frame ⟨0x1114, 0xFFFF, 0xFFFFFFFF⟩
    obtain ⟨hnone, hresult, hsection, hentry⟩ := s.planFailed_report ⟨0x1114, 0xFFFF, 0xFFFFFFFF⟩
    refine ⟨_, ?_, hplan, hnone, hresult, hsection, hentry, s.planFailed_newest _, hmem⟩
    rw [exec_planConfigWriteFail hstate, State.planFail_eq, State.heldSleep_of_not_held (by rw [hpower, hheld])]
  case unload =>
    have hframe := s.planGone.readyFromWork_planFrame.trans s.planGone_planFrame
    obtain ⟨hidle, hrun⟩ := s.planGone.readyFromWork_pst
    simp only [State.planFrame, Prod.mk.injEq] at hframe
    obtain ⟨hplan, htiles, hberths⟩ := hframe
    exact ⟨hplan, htiles, hberths, (State.readyFromWork_get _ (by decide)).trans (State.get_put _ _ _ _), hidle, hrun,
      exec_planUnloadComplete hstate⟩

end Sys2Proof.Machine

/-! Manifests and the taking of tasks (R106, R291, R292, R295; O26). That a manifest is fetched only while its context is taken is the
model's reading (log 38). -/

namespace Sys2Proof.Machine

/-! ## Manifests (R291, R292) -/

/-- The berths of a tile that the fetch engine may start: their contexts are taken, and they have a manifest to read and fewer than two
buffers. -/
def State.mayFetch (s : State) (t : Nat) (d : BerthDef) : Bool :=
  s.takes d.ctx && decide (((s.tile t).bufs.filter (fun m => m.berth == d.berth)).length < 2) && (s.nextMan t d.berth).isSome

theorem exec_manifestFetch {s : State} {n : TileId} {pl : Plan} {d : BerthDef} (hplan : s.plan = some pl)
    (hidle : (s.tile n.val).fetching = none) (hroom : (s.tile n.val).bufs.length < ((pl.tilePart n.val).map (·.mbufs)).getD 0)
    (htop : topBerth ((s.tileBerths n.val).filter (s.mayFetch n.val)) = some d) :
    exec (.manifestFetch n) s = .next (s.work.setTile n.val { s.tile n.val with fetching := some d.berth }) := by
  have hrow : exec (.manifestFetch n) s = execManifestFetch n s := rfl
  have hfree : ¬((s.tile n.val).fetching.isSome ∨ ((pl.tilePart n.val).map (·.mbufs)).getD 0 ≤ (s.tile n.val).bufs.length) := by
    simpa [hidle] using hroom
  unfold State.mayFetch at htop
  simp only [hrow, execManifestFetch, hplan, if_neg hfree, htop]

section
variable {s : State} {n : TileId} {b : Nat} {d : BerthDef} {m : Man} (hfetching : (s.tile n.val).fetching = some b)
  (hberth : s.berthDef b = some d) (hman : s.nextMan n.val b = some m)
include hfetching hberth hman

theorem exec_manifestArrive {t : State} (hburst : s.burstIn n.val d m = .ok t) : exec (.manifestArrive n) s = .next t := by
  have hrow : exec (.manifestArrive n) s = execManifestArrive n s := rfl
  simp only [hrow, execManifestArrive, hfetching, hberth, hman, hburst]

/-- A burst that faults ends the fetch, with the fault recorded in the berth's context (R292, R340). -/
theorem exec_manifestArrive_fault {f : AccFault} (hburst : s.burstIn n.val d m = .error f) (hheld : ∀ lines, f ≠ .stall lines) :
    exec (.manifestArrive n) s = .next ((s.fetchFault n.val d.ctx f).setTile n.val
      { (s.fetchFault n.val d.ctx f).tile n.val with fetching := none }) := by
  have hrow : exec (.manifestArrive n) s = execManifestArrive n s := rfl
  cases f with
  | stall lines => exact absurd rfl (hheld lines)
  | _ => simp only [hrow, execManifestArrive, hfetching, hberth, hman, hburst]

end

/-! ## Taking a task (R106, R295) -/

/-- The next task of a berth, as it is taken out of its manifest's buffer. -/
def State.nextOf (s : State) (d : BerthDef) (m : ManBuf) : Task :=
  Task.fresh s.nextTask (m.slots.getD (s.berth d.berth).curSlot []) d.berth m.man m.va (s.berth d.berth).curSlot

/-- The state in which a berth's next task has been taken out of its buffer. -/
def State.tookNext (s : State) (d : BerthDef) : State :=
  { s with nextTask := s.nextTask + 1 }.setBerth d.berth { s.berth d.berth with curSlot := (s.berth d.berth).curSlot + 1 }

section
variable {s : State} {n : TileId} {d : BerthDef} {m : ManBuf} (hpick : s.pickBerth n.val = some d)
  (hbuf : s.curBuf n.val d.berth = some m)
  (hclean : m.poisoned.find? (fun p => p / 65536 == (s.work.nextOf d m).slot) = none)
include hpick hbuf hclean

/-- A task whose slot is clean is validated (R106). -/
theorem exec_taskTake {k : Task} {u : State} (hk : s.work.nextOf d m = k) (hu : s.work.tookNext d = u) : exec (.taskTake n) s =
    .next (if u.validate d k ≠ 0 then (u.tookTurn d).reject d k (u.validate d k)
      else (u.standBy d (u.withUses n.val { k with noop := k.zeroAmount || u.replayNoop k })).finish n.val d.berth) := by
  have hrow : exec (.taskTake n) s = execTaskTake n s := rfl
  subst hk hu
  unfold State.nextOf at hclean
  simp only [hrow, execTaskTake, hpick, hbuf, hclean]
  rfl

end

/-! ## The statement -/

/-- Settles O26: the two rows of the fetch engine, and the row of the execute engine by what validation answers. -/
theorem manifestsAreFetchedAndTasksTaken : Obligations.ManifestsAreFetchedAndTasksTaken := by
  intro s n
  refine ⟨fun pl d hplan hidle hroom htop => exec_manifestFetch hplan hidle hroom htop,
    fun b d m hfetching hberth hman => ⟨fun t hburst => exec_manifestArrive hfetching hberth hman hburst,
      fun code va level w hburst => exec_manifestArrive_fault hfetching hberth hman hburst nofun⟩,
    fun d m hpick hbuf => ?_⟩
  intro w b k u hclean
  have htake := exec_taskTake hpick hbuf hclean (k := k) (u := u) rfl rfl
  exact ⟨fun hgood => htake.trans (congrArg Host.Outcome.next (if_neg (not_not_intro hgood))),
    fun hbad => htake.trans (congrArg Host.Outcome.next (if_pos hbad))⟩

end Sys2Proof.Machine

/-! Task rows: the run of the head task of a tile (R106, R296, R298, R303, R340, R346, R511; O29). The parts before the last of a product
that is split have no effect on data, which is the model's choice (log 37), and one row makes a task's whole effect (log 17). -/

namespace Sys2Proof.Machine

open Sys2Proof.Claims

/-! ## The run of a task whose ferry slots admit it -/

/-- The state in which a task of tile n has started on the ranges its body names. -/
def State.startedOn (s : State) (n : Nat) (k : Task) (body : Body) : State :=
  s.startedAs n k (body.reads s k ++ body.writes s k) (body.writes s k)

/-- The task as a fault finds it, with the ranges that its body names. -/
def Task.touching (k : Task) (s : State) (body : Body) : Task :=
  { k with written := body.writes s k, uses := body.reads s k ++ body.writes s k }

/-- What the row of an admitted task leaves, by the answer of its work: the effect and the status stand (R296); a ferry slot that is not
ready leaves the task waiting (R303); lines that a host holds are asked for (R511); any other fault stops the task (R298, R340). -/
def State.rowLeaves (s : State) (n : Nat) (k : Task) (body : Body) (slots : List (Nat × Nat)) (load : Option (Nat × Nat)) :
    Except AccFault (State × Nat) → State
  | .error .wait => s.work
  | .error (.stall lines) => s.work.snoopHeld lines
  | .error f => (s.work.startedOn n k body).stopTask n (k.touching s.work body) f
  | .ok (u, status) => taskDone n k slots load (body.writes s.work k) status u

section
variable (s : State) (n : Nat) (k : Task) (body : Body) (slots : List (Nat × Nat)) (load : Option (Nat × Nat))

theorem State.rowLeaves_done (u : State) (status : Nat) :
    s.rowLeaves n k body slots load (.ok (u, status)) = taskDone n k slots load (body.writes s.work k) status u := rfl

theorem State.rowLeaves_held (lines : List (Nat × Nat)) :
    s.rowLeaves n k body slots load (.error (.stall lines)) = s.work.snoopHeld lines := rfl

theorem State.rowLeaves_fault {f : AccFault} (hwait : f ≠ .wait) (hstall : ∀ lines, f ≠ .stall lines) :
    s.rowLeaves n k body slots load (.error f) = (s.work.startedOn n k body).stopTask n (k.touching s.work body) f := by
  cases f with
  | wait => exact absurd rfl hwait
  | stall lines => exact absurd rfl (hstall lines)
  | _ => rfl

end

section
variable {s : State} {n op : Nat} {form : Task → Bool} {body : Body} {k : Task} {slots : List (Nat × Nat)} {load : Option (Nat × Nat)}

/-- A task that begins passes every test a row makes of its tile and of the device. -/
theorem begins_passes (hb : begins s n op form k) :
    ¬(k.opcode ≠ op ∨ (!form k) = true ∨ (!s.mayStart k) = true ∨ (!s.operating) = true) := by
  obtain ⟨-, hop, hform, hstart, hoperating, -⟩ := hb
  simp [hop, hform, hstart, hoperating]

variable (hb : begins s n op form k) (ha : admits s.work n k (body.reads s.work k) (body.writes s.work k) slots load)
include hb ha

/-- An admitted task's row is decided by the answer of its work. -/
theorem State.runTask_admitted {x : Except AccFault (State × Nat)} (hx : body.run (s.work.startedOn n k body) n k = x) :
    s.runTask n op form body = s.rowLeaves n k body slots load x := by
  have hpass := begins_passes hb
  obtain ⟨hnext, -, -, -, -, hemu⟩ := hb
  obtain ⟨hread, hwrite⟩ := ha
  subst hx
  simp only [State.runTask, hnext, if_neg hpass, if_neg hemu, hread, hwrite]
  rfl

end

/-! ## The parts of a product (R217, R258, R345) -/

/-- The task after one of its parts that is not the last; a pre-emption request suspends it there, unless it is urgent (R345, R346). -/
def Task.partDone (k : Task) (held : Bool) : Task := { k with units := k.units + 1, st := if held then .suspended else .running }

section
variable {s : State} {n op : Nat} {form : Task → Bool} {body : Body} {parts : State → Task → Nat} {k : Task}

/-- The last part of a task runs it as a whole. -/
theorem State.runSplit_last (hnext : (s.tile n).next = some (k, none)) (hlast : parts s k ≤ k.units + 1) :
    s.runSplit n op form body parts = s.runTask n op form body := by
  simp only [State.runSplit, hnext]
  exact if_neg (Nat.not_lt.mpr hlast)

/-- A part before the last, of a task whose whole work could be done, counts. -/
theorem State.runSplit_part {j : Task} (hnext : (s.tile n).next = some (k, none)) (hpart : k.units + 1 < parts s k)
    (hopen : k.worked = false) (hfind : (s.runTask n op form body).findTask n k.id = some j) (hdone : j.worked = true) :
    s.runSplit n op form body parts =
      ((s.work.startedOn n k body).setTask n (k.partDone (k.prio != 3 && s.work.requestStands n))).regrant n := by
  simp only [State.runSplit, hnext, if_pos hpart, hfind]
  exact if_pos (by simp [hopen, hdone])

/-- A task with a single part is not split. -/
theorem State.runSplit_one (s : State) (n op : Nat) (form : Task → Bool) (body : Body) :
    s.runSplit n op form body (fun _ _ => 1) = s.runTask n op form body := by
  unfold State.runSplit
  split
  · exact if_neg (Nat.not_lt.mpr (Nat.le_add_left 1 _))
  · rfl

end

/-! ## The rows -/

/-- Every task row is the run of its body, part by part. -/
theorem exec_taskRow {c : Instr} {n op : Nat} {form : Task → Bool} {body : Body} {parts : State → Task → Nat}
    (hrow : taskRow c = some (n, op, form, body, parts)) (s : State) : exec c s = .next (s.runSplit n op form body parts) := by
  cases c with
  | gemm | matvec | gemmBwdPair =>
    cases hrow
    rfl
  | attnFwdBlock | attnBwdBlock | normForward | normBackward | act | actDerivative | softmaxForward | softmaxBackward | convert
  | rngFill | signal | wait | put | get | mcast | acc | dispatch | combine | lowrankProject | orthoGram | orthoFactor | orthoApply
  | reconstructOwner | reconstructResidual | optStepSgd | optStepAdamw =>
    cases hrow
    exact congrArg Host.Outcome.next (State.runSplit_one ..).symm
  | _ => cases hrow

/-- A task that touches no operand meets no ferry slot. -/
theorem admits_nothing (s : State) (n : Nat) (k : Task) : admits s n k [] [] [] none := ⟨rfl, rfl⟩

/-- A task that begins and touches no operand is done at once, where its work is to answer the state it started in. -/
theorem exec_taskRow_idle {c : Instr} {s : State} {n op : Nat} {form : Task → Bool}
    {run : State → Nat → Task → Except AccFault (State × Nat)} {k : Task}
    (hrow : taskRow c = some (n, op, form, ⟨noReads, fun _ _ => [], run⟩, fun _ _ => 1)) (hb : begins s n op form k)
    (hrun : ∀ u : State, run u n k = .ok (u, 0)) : exec c s = .next (taskDone n k [] none [] 0 (s.work.startedAs n k [] [])) := by
  rw [exec_taskRow hrow, State.runSplit_one, State.runTask_admitted hb (admits_nothing s.work n k) (hrun _)]
  rfl

/-! ## The statement -/

/-- Settles O29: a row is the run of the head task, by what the task's work answers and whether the part is its last. -/
theorem taskRowsRunTheHeadTask : Obligations.TaskRowsRunTheHeadTask := by
  refine ⟨fun c n op form body parts s k slots load hrow hb ha => ?row, fun t s k hb => ?wait, fun t s k hb hlocal => ?signal⟩
  case row =>
    have hnext : (s.tile n).next = some (k, none) := hb.1
    have hlastRow {x : Except AccFault (State × Nat)} (hx : body.run (s.work.startedOn n k body) n k = x)
        (hlast : parts s k ≤ k.units + 1) : exec c s = .next (s.rowLeaves n k body slots load x) := by
      rw [exec_taskRow hrow, State.runSplit_last hnext hlast, State.runTask_admitted hb ha hx]
    refine ⟨fun u status hdone hlast => ?done, fun u status j hdone hpart hopen hfind hworked => ?part,
      fun lines hheld hlast => ?held, fun f hfault hwait hstall hlast => ?stopped⟩
    case done => rw [hlastRow hdone hlast, State.rowLeaves_done]
    case held => rw [hlastRow hheld hlast, State.rowLeaves_held]
    case part =>
      have hwhole := (State.runTask_admitted hb ha hdone).trans (State.rowLeaves_done ..)
      rw [← hwhole] at hfind
      rw [exec_taskRow hrow, State.runSplit_part hnext hpart hopen hfind hworked]
      rfl
    case stopped =>
      rw [hlastRow hfault hlast, State.rowLeaves_fault _ _ _ _ _ _ hwait hstall]
      rfl
  case wait => exact exec_taskRow_idle rfl hb fun _ => rfl
  case signal => exact exec_taskRow_idle rfl hb fun _ => if_pos hlocal

end Sys2Proof.Machine

/-! Dock products: the zero detector's phases (R116; O34), and the start, the phases and the end of a DOCK_MVM (R119 to R124, R128, R131,
R137, R147; O35). That a layer at WIDE asks no dock is the model's reading (log 71). -/

namespace Sys2Proof.Machine

open Sys2Proof.Claims

/-! ## The zero detector (R116) -/

/-- The rows of a vector that a dock drives: those whose code is not zero, in ascending order. -/
def drivenRows (codes : List Int) : List Nat := (List.range codes.length).filter (fun r => decide (codes.getD r 0 ≠ 0))

/-- A list with its indices is the list of its indices with what stands there. -/
theorem zipIdx_eq_map_range {α : Type} (l : List α) (a : α) : l.zipIdx = (List.range l.length).map (fun r => (l.getD r a, r)) := by
  refine List.ext_getElem (by simp) fun r hr hr' => ?_
  have hlen : r < l.length := by simpa using hr
  simp [hlen]

/-- The detector's indices are the driven rows. -/
theorem nonzeroIdx_eq_drivenRows (codes : List Int) :
    (codes.zipIdx.filter (fun p => p.1 ≠ 0)).map (·.2) = drivenRows codes := by
  rw [zipIdx_eq_map_range codes 0, List.filter_map, List.map_map]
  exact List.map_id _

/-- There are at most as many driven rows as codes. -/
theorem drivenRows_length_le (codes : List Int) : (drivenRows codes).length ≤ codes.length := by
  calc (drivenRows codes).length
    _ ≤ (List.range codes.length).length := List.length_filter_le ..
    _ = codes.length := List.length_range

/-- The phases follow from the driven rows alone. -/
theorem phasesOf_eq (codes : List Int) : phasesOf codes =
    if drivenRows codes = [] then []
    else if (drivenRows codes).length ≤ 256 then [drivenRows codes]
    else [(drivenRows codes).take 256, (drivenRows codes).drop 256] := by
  rw [← nonzeroIdx_eq_drivenRows]
  rfl

section
variable {codes : List Int}

theorem phasesOf_none (h : drivenRows codes = []) : phasesOf codes = [] := by
  rw [phasesOf_eq, if_pos h]

theorem phasesOf_one (hpos : 1 ≤ (drivenRows codes).length) (hle : (drivenRows codes).length ≤ 256) :
    phasesOf codes = [drivenRows codes] := by
  rw [phasesOf_eq, if_neg (List.ne_nil_of_length_pos hpos), if_pos hle]

theorem phasesOf_two (h : 257 ≤ (drivenRows codes).length) :
    phasesOf codes = [(drivenRows codes).take 256, (drivenRows codes).drop 256] := by
  rw [phasesOf_eq, if_neg (List.ne_nil_of_length_pos (by omega)), if_neg (by omega)]

end

/-- A vector has no phase, one or two. -/
theorem phasesOf_cases (codes : List Int) :
    (drivenRows codes = [] ∧ phasesOf codes = [])
      ∨ ((drivenRows codes).length ≤ 256 ∧ phasesOf codes = [drivenRows codes])
      ∨ phasesOf codes = [(drivenRows codes).take 256, (drivenRows codes).drop 256] := by
  rcases Nat.eq_zero_or_pos (drivenRows codes).length with hzero | hpos
  · have hnone := List.eq_nil_of_length_eq_zero hzero
    exact .inl ⟨hnone, phasesOf_none hnone⟩
  · rcases Nat.lt_or_ge 256 (drivenRows codes).length with hgt | hle
    · exact .inr (.inr (phasesOf_two hgt))
    · exact .inr (.inl ⟨hle, phasesOf_one hpos hle⟩)

/-- Every driven row is driven in one phase, in order. -/
theorem phasesOf_flatten (codes : List Int) : (phasesOf codes).flatten = drivenRows codes := by
  rcases phasesOf_cases codes with ⟨hnone, h⟩ | ⟨-, h⟩ | h
  · simp [h, hnone]
  · simp [h]
  · simp [h]

/-- No phase of a dock's 512-row slice drives more than 256 rows. -/
theorem phasesOf_length_le {codes : List Int} (hlen : codes.length ≤ 512) : ∀ ph ∈ phasesOf codes, ph.length ≤ 256 := by
  have hrows := (drivenRows_length_le codes).trans hlen
  rcases phasesOf_cases codes with ⟨-, h⟩ | ⟨hle, h⟩ | h
  · simp [h]
  · simpa [h] using hle
  · simp only [h, List.forall_mem_cons, List.length_take, List.length_drop]
    exact ⟨by omega, by omega, nofun⟩

/-- The results of a later phase are added to those of the vector so far. -/
theorem MvmDock.phaseEnd_raw {m : MvmDock} (hraw : m.raw ≠ []) (ph : List Num) (err : List Rat) :
    (m.phaseEnd ph err).raw = (m.raw.zip ph).map (fun p => ((fadd p.1 p.2).run {}).1) := if_neg hraw

/-- Settles O34: the three sizes of the driven rows, and what holds of their phases in each. -/
theorem zeroDetectorChoosesThePhases : Obligations.ZeroDetectorChoosesThePhases := by
  refine ⟨fun m ph err hraw => m.phaseEnd_raw hraw ph err, fun codes hlen => ?_⟩
  intro rows
  have hrows : rows = drivenRows codes := by rw [drivenRows, hlen]
  rw [hrows]
  exact ⟨phasesOf_none, phasesOf_one, phasesOf_two, phasesOf_length_le hlen.le, phasesOf_flatten codes⟩

/-! ## A DOCK_MVM starts, or is refused (R123, R131, R137, R147) -/

/-- What the row of a DOCK_MVM leaves by what its set-up answers: the run on its docks, or the stopped task. -/
def State.mvmStarted (s : State) (n : Nat) (k : Task) : Except AccFault State → State
  | .ok u => u
  | .error f => s.work.stopTask n { k with written := mvmWrites s n k (s.mvmFmt k) } f

/-- A task that runs leaves what its finished row leaves. -/
theorem State.runTask_of_runs {s t : State} {n op : Nat} {form : Task → Bool} {body : Body} {k : Task}
    (h : runs s n op form body k t) : s.runTask n op form body = t := by
  obtain ⟨hbegins, slots, load, status, u, hadmits, hrun, ht⟩ := h
  rw [ht, State.runTask_admitted hbegins hadmits hrun, State.rowLeaves_done]

/-- A DOCK_MVM at WIDE as the work of one task (R217). -/
def mvmWideBody (n : Nat) : Body := ⟨fun s k => mvmReads s n k, fun s k => mvmWrites s n k (s.mvmFmt k), State.mvmWide⟩

section
variable {s : State} {n : TileId} {k : Task} {i : Nat} {l : LayerDef} (hhead : s.headOf n.val 0x01 = some k)
  (hlayer : s.layerOf k = some (i, l)) (hfree : s.mvm n.val = none)
include hhead hlayer hfree

/-- ZD1 emulation has no docks (R147). -/
theorem exec_dockMvm_emulating (hemu : s.emulating = true) :
    exec (.dockMvm n) s = .next (s.work.refuseDock n.val k 0x4007 (k.firstDock n.val)) := by
  have hrow : exec (.dockMvm n) s = execDockMvm n s := rfl
  simp [hrow, execDockMvm, hhead, hlayer, hfree, hemu]

variable (hemu : s.emulating = false)
include hemu

/-- A layer at WIDE is computed off the docks, in parts (R134, R217). -/
theorem exec_dockMvm_wide (hwide : s.isWide k = true) : exec (.dockMvm n) s =
    .next (s.runSplit n.val 0x01 (fun _ => true) (mvmWideBody n.val) (fun _ k => unitsFor wideVectors k.len0)) := by
  have hrow : exec (.dockMvm n) s = execDockMvm n s := rfl
  simp [hrow, execDockMvm, hhead, hlayer, hfree, hemu, hwide, mvmWideBody]

variable (hwide : s.isWide k = false) (hready : (k.maskDocks n.val).any (fun d => s.dockWaits k d) = false)
include hwide hready

/-- The first of its docks that must not run a task refuses it. -/
theorem exec_dockMvm_refused {d : Nat} (hfind : (k.maskDocks n.val).find? (fun d => s.dockRefuses k i d != 0) = some d) :
    exec (.dockMvm n) s = .next (s.work.refuseDock n.val k (s.dockRefuses k i d) d) := by
  have hrow : exec (.dockMvm n) s = execDockMvm n s := rfl
  simp [hrow, execDockMvm, hhead, hlayer, hfree, hemu, hwide, hready, hfind]

/-- A task that no dock refuses is set up. -/
theorem exec_dockMvm_started {x : Except AccFault State}
    (hfind : (k.maskDocks n.val).find? (fun d => s.dockRefuses k i d != 0) = none) (hx : s.work.mvmStart n.val k i l = x) :
    exec (.dockMvm n) s = .next (s.mvmStarted n.val k x) := by
  have hrow : exec (.dockMvm n) s = execDockMvm n s := rfl
  simp only [hrow, execDockMvm, hhead, hlayer, hfree, hemu, hwide, hready, hfind, hx]
  rfl

end

/-! ## A phase ends (R118 to R122, R145) -/

/-- A phase that has run is counted in PHASES. -/
theorem State.phaseCounted_phases (s : State) (counts : List Nat) (m : MvmDock) :
    (s.phaseCounted counts m).get 0x6001 1 = satAdd 64 (s.get 0x6001 1) 1 := by
  have hdock (d : Nat) (x : Dock) : ((s.count 0x6001 1 64 1).setDock d x).get 0x6001 1 = satAdd 64 (s.get 0x6001 1) 1 := s.get_count ..
  unfold State.phaseCounted
  split
  · exact s.get_count ..
  · exact hdock ..

section
variable {s : State} {d : DockId} {r : MvmRun} {m : MvmDock} {k : Task} (hrun : s.mvm (d.val / 8) = some r)
  (hdock : r.docks.find? (fun m => m.dock == d.val && !m.stale && decide (m.phases ≠ [])) = some m)
  (htask : s.findTask (d.val / 8) r.task = some k)
include hrun hdock htask

/-- The row of a phase on the dock that computes: impossible counts are no event, a saturation at gain 1 stops the task, and other
counts are taken. -/
theorem exec_dockPhaseDone (counts : List Nat) : exec (.dockPhaseDone d counts) s =
    .next (if (!s.phaseFault counts m && !s.phasePossible counts (m.codes k (r.ins.getD r.done.length [])) m) = true then s
      else if s.phaseFault counts m = true then (s.phaseCounted counts m).stopTask (d.val / 8)
        { k with written := mvmWrites s (d.val / 8) k (fmtOf r.outFmt) } (.dataErr 0x4003 3 [d.val])
      else (s.phaseCounted counts m).phaseGood counts r m) := by
  have hrow : exec (.dockPhaseDone d counts) s = execDockPhaseDone d counts s := rfl
  simp only [hrow, execDockPhaseDone, hrun, hdock, htask]

variable {counts : List Nat}

theorem exec_dockPhaseDone_good (hfault : s.phaseFault counts m = false)
    (hpossible : s.phasePossible counts (m.codes k (r.ins.getD r.done.length [])) m = true) :
    exec (.dockPhaseDone d counts) s = .next ((s.phaseCounted counts m).phaseGood counts r m) := by
  simp only [exec_dockPhaseDone hrun hdock htask, hfault, hpossible]
  rfl

theorem exec_dockPhaseDone_fault (hfault : s.phaseFault counts m = true) : exec (.dockPhaseDone d counts) s =
    .next ((s.phaseCounted counts m).stopTask (d.val / 8)
      { k with written := mvmWrites s (d.val / 8) k (fmtOf r.outFmt) } (.dataErr 0x4003 3 [d.val])) := by
  simp [exec_dockPhaseDone hrun hdock htask, hfault]

end

/-! ## A vector ends (R123, R128) -/

/-- What the row of the last vector leaves by what the task's end answers: the finished task (R123), one that waits or that asks a host
for lines (R511), or one that its fault stops. -/
def State.mvmEnded (s : State) (n : Nat) (k : Task) (r : MvmRun) : Except AccFault State → State
  | .ok u => u
  | .error .wait => s
  | .error (.stall lines) => s.snoopHeld lines
  | .error f => (s.vectorEnd n r).1.stopTask n { k with written := mvmWrites s n k (fmtOf r.outFmt) } f

theorem State.mvmEnded_trans (s : State) (n : Nat) (k : Task) (r : MvmRun) (code va level : Nat) (w : Bool) :
    s.mvmEnded n k r (.error (.trans code va level w)) =
      (s.vectorEnd n r).1.stopTask n { k with written := mvmWrites s n k (fmtOf r.outFmt) } (.trans code va level w) := rfl

section
variable {s : State} {n : TileId} {r : MvmRun} {k : Task} (hrun : s.mvm n.val = some r) (htask : s.findTask n.val r.task = some k)
  (hphases : r.docks.any (fun m => decide (m.phases ≠ [])) = false)
include hrun htask hphases

/-- The next vector starts. -/
theorem exec_dockVectorDone_next (hmore : (s.vectorEnd n.val r).2.done.length < (s.vectorEnd n.val r).2.ins.length) :
    exec (.dockVectorDone n) s = .next ((s.vectorEnd n.val r).1.vectorBegin n.val k (s.vectorEnd n.val r).2) := by
  have hrow : exec (.dockVectorDone n) s = execDockVectorDone n s := rfl
  simp only [hrow, execDockVectorDone, hrun, htask, hphases, if_pos hmore]
  rfl

variable {i : Nat} {l : LayerDef} (hlast : (s.vectorEnd n.val r).2.ins.length ≤ (s.vectorEnd n.val r).2.done.length)
  (hlayer : s.layerOf k = some (i, l))
include hlast hlayer

/-- After the last vector the row is decided by what the task's end answers. -/
theorem exec_dockVectorDone_last {x : Except AccFault State}
    (hx : (s.vectorEnd n.val r).1.mvmFinish n.val k i l (s.vectorEnd n.val r).2 = x) :
    exec (.dockVectorDone n) s = .next (s.mvmEnded n.val k r x) := by
  have hrow : exec (.dockVectorDone n) s = execDockVectorDone n s := rfl
  simp only [hrow, execDockVectorDone, hrun, htask, hphases, Bool.false_eq_true, if_false, if_neg (Nat.not_lt.mpr hlast), hlayer, hx]
  rfl

end

/-! ## The statement -/

/-- Settles O35: the row of the start by what its docks and its set-up answer, the row of a phase by its counts, and the row of a
vector's end by whether it was the last. -/
theorem dockMvmStartsPhasesAndEnds : Obligations.DockMvmStartsPhasesAndEnds := by
  refine ⟨fun s n k i l hhead hlayer hfree => ⟨?emulating, ?docks, ?wide⟩, fun s d n counts r k => ⟨?phase, ?vector⟩⟩
  case emulating => exact exec_dockMvm_emulating hhead hlayer hfree
  case docks =>
    intro hemu hwide hready
    exact ⟨fun d hfind => exec_dockMvm_refused hhead hlayer hfree hemu hwide hready hfind, fun hfind =>
      ⟨fun u hu => exec_dockMvm_started hhead hlayer hfree hemu hwide hready hfind hu,
        fun f hf => exec_dockMvm_started hhead hlayer hfree hemu hwide hready hfind hf⟩⟩
  case wide =>
    intro t hemu hwide hlastPart hruns
    obtain ⟨⟨hnext, -⟩, -⟩ := id hruns
    have hwork : s.runTask n.val 0x01 (fun _ => true) (mvmWideBody n.val) = t := State.runTask_of_runs hruns
    rw [exec_dockMvm_wide hhead hlayer hfree hemu hwide, State.runSplit_last hnext hlastPart, hwork]
  case phase =>
    intro m hrun hdock htask
    exact ⟨fun hfault hpossible => ⟨exec_dockPhaseDone_good hrun hdock htask hfault hpossible, s.phaseCounted_phases counts m⟩,
      exec_dockPhaseDone_fault hrun hdock htask⟩
  case vector =>
    intro hrun htask hphases e
    exact ⟨exec_dockVectorDone_next hrun htask hphases, fun i l hlast hlayer =>
      ⟨fun u hu => exec_dockVectorDone_last hrun htask hphases hlast hlayer hu,
        fun code va level w hf => by rw [exec_dockVectorDone_last hrun htask hphases hlast hlayer hf, State.mvmEnded_trans]⟩⟩

end Sys2Proof.Machine

/-! Codes and levels (R151): the four cells of a code, what tells one code from another, and which cells a change of code reprograms. -/

namespace Sys2Proof.Machine

/-! ## The levels of a code -/

/-- A code that is not negative stands in the positive cells. -/
theorem levelsOf_of_nonneg {q : Int} (h : 0 ≤ q) : levelsOf q = [q.natAbs / 16, 0, q.natAbs % 16, 0] := if_pos h

/-- A negative code stands in the negative cells. -/
theorem levelsOf_of_neg {q : Int} (h : q < 0) : levelsOf q = [0, q.natAbs / 16, 0, q.natAbs % 16] := if_neg (Int.not_le.mpr h)

theorem levelsOf_length (q : Int) : (levelsOf q).length = 4 := by
  rcases le_or_gt 0 q with h | h
  · rw [levelsOf_of_nonneg h]; rfl
  · rw [levelsOf_of_neg h]; rfl

/-- A negative code has a negative cell that is not zero, and a code that is not negative has none. -/
theorem levelsOf_ne_of_signs {q r : Int} (hq : 0 ≤ q) (hr : r < 0) : levelsOf q ≠ levelsOf r := by
  rw [levelsOf_of_nonneg hq, levelsOf_of_neg hr]
  simp only [ne_eq, List.cons.injEq]
  rintro ⟨-, hhigh, -, hlow, -⟩
  omega

/-- The levels determine the code. -/
theorem levelsOf_injective {q r : Int} (h : levelsOf q = levelsOf r) : q = r := by
  rcases le_or_gt 0 q with hq | hq <;> rcases le_or_gt 0 r with hr | hr
  · rw [levelsOf_of_nonneg hq, levelsOf_of_nonneg hr] at h
    simp only [List.cons.injEq] at h
    obtain ⟨hhigh, -, hlow, -⟩ := h
    omega
  · exact absurd h (levelsOf_ne_of_signs hq hr)
  · exact absurd h.symm (levelsOf_ne_of_signs hr hq)
  · rw [levelsOf_of_neg hq, levelsOf_of_neg hr] at h
    simp only [List.cons.injEq] at h
    obtain ⟨-, hhigh, -, hlow, -⟩ := h
    omega

/-! ## The cells that a change of code reprograms -/

/-- Two lists of one length, side by side, are what stands in them at each index. -/
theorem zip_eq_map_range {α β : Type} (a : α) (b : β) {xs : List α} {ys : List β} (h : xs.length = ys.length) :
    xs.zip ys = (List.range xs.length).map (fun i => (xs.getD i a, ys.getD i b)) := by
  refine List.ext_getElem (by simp [h]) fun i hi hi' => ?_
  obtain ⟨hx, hy⟩ : i < xs.length ∧ i < ys.length := by simpa using hi
  simp [hx, hy]

/-- The pulses of a change are its cells whose level changes. -/
theorem pulses_eq_changed (a b : Int) :
    pulses a b = ((List.range 4).filter (fun i => decide ((levelsOf a).getD i 0 ≠ (levelsOf b).getD i 0))).length := by
  rw [pulses, zip_eq_map_range 0 0 ((levelsOf_length a).trans (levelsOf_length b).symm), levelsOf_length, List.filter_map, List.length_map]
  rfl

/-- A change and its reverse pulse the same cells. -/
theorem pulses_comm (a b : Int) : pulses a b = pulses b a := by
  simp only [pulses_eq_changed, ne_comm]

/-- Of each cell one of the two levels is zero where the sign changes, so each level that is not zero is a change. -/
theorem pulses_of_signs {a b : Int} (ha : 0 ≤ a) (hb : b < 0) :
    pulses a b = ((levelsOf a ++ levelsOf b).filter (fun x => decide (x ≠ 0))).length := by
  rw [pulses, levelsOf_of_nonneg ha, levelsOf_of_neg hb]
  simp only [List.zip_cons_cons, List.zip_nil_left, List.cons_append, List.nil_append, ← List.countP_eq_length_filter, List.countP_cons,
    List.countP_nil, decide_eq_true_eq, ne_comm (a := 0), ne_self_iff_false, if_false]
  omega

/-! ## The statement -/

/-- Settles O59: the levels by the sign of the code, which they determine, and the changed cells of a change of code and of sign. -/
theorem codesHaveOneSetOfLevels : Obligations.CodesHaveOneSetOfLevels := by
  refine ⟨fun q hlow hhigh => ?levels, fun q r => levelsOf_injective, pulses_eq_changed, fun a b ha hb => ?signs⟩
  case levels =>
    exact ⟨q.natAbs / 16, q.natAbs % 16, by omega, by omega, (Nat.div_add_mod _ 16).symm, levelsOf_of_nonneg, levelsOf_of_neg⟩
  case signs =>
    have hcells := pulses_of_signs ha.le hb
    exact ⟨hcells, (pulses_comm b a).trans hcells⟩

end Sys2Proof.Machine

/-! Refits of docks (R150 to R160, R303; O36): a DOCK_REFIT is refused or handed to its dock, the dock's work ends, and a pass closes. -/

namespace Sys2Proof.Machine

/-! ## A DOCK_REFIT on its dock (R154, R155, R303) -/

/-- The state in which a refit task of tile n works: its pass is open, and it has started on its operands. -/
def State.refitBegun (s : State) (n : Nat) (k : Task) : State :=
  (s.work.openPass k (k.refitDock n)).startedAs n k (refitReads s k ++ refitWrites s k) (refitWrites s k)

section
variable {s : State} {n mode : Nat} {k : Task} (run : State → Task → Nat → DockMap → Except AccFault (State × Option Nat))
  (hhead : s.headOf n 0x02 = some k) (hmode : k.refitMode = mode)
  (hfree : ((s.dock (k.refitDock n)).held || s.calibrating (k.refitDock n) || s.dieCalibrating (dockDie (k.refitDock n))) = false)
include hhead hmode hfree

/-- A dock that must not run the task refuses it. -/
theorem State.refitTask_refused (hcode : s.refitRefuses k (k.refitDock n) ≠ 0) :
    s.refitTask n mode run = s.work.refuseDock n k (s.refitRefuses k (k.refitDock n)) (k.refitDock n) := by
  simp [State.refitTask, hhead, hmode, hfree, hcode]

/-- A task whose work is done is handed to its dock. -/
theorem State.refitTask_handed {e : DockMap} {slots : List (Nat × Nat)} {u : State} {status : Nat}
    (hcode : s.refitRefuses k (k.refitDock n) = 0) (hentry : s.dockEntry k (k.refitDock n) = some e)
    (hslots : s.ferryRead n (s.placeOf (some n) k.ctx (refitReads s k) false) = .ok slots)
    (hrun : run (s.refitBegun n k) k (k.refitDock n) e = .ok (u, some status)) :
    s.refitTask n mode run = u.handDock n k (k.refitDock n) status slots (refitWrites s k) := by
  unfold State.refitBegun at hrun
  simp [State.refitTask, hhead, hmode, hfree, hcode, hentry, hslots, hrun]

end

/-! A row of each mode: only the work of a REFIT can find no spare (R160), so that of the other two always answers a status. -/

theorem exec_dockRefit (s : State) (n : TileId) (failing : List Nat) : exec (.dockRefit n failing) s =
    .next (s.refitTask n.val 0 (fun s k d e => s.refitRun n.val k d e failing)) := rfl
theorem exec_dockRefitScan (s : State) (n : TileId) : exec (.dockRefitScan n) s =
    .next (s.refitTask n.val 1 (fun s k d e => (s.scanRun n.val k d e).map (fun p => (p.1, some p.2)))) := rfl
theorem exec_dockRefitReadback (s : State) (n : TileId) (bad : Bool) : exec (.dockRefitReadback n bad) s =
    .next (s.refitTask n.val 2 (fun s k d _ => (s.readbackRun n.val k d bad).map (fun p => (p.1, some p.2)))) := rfl

/-- The answer of a SCAN or a READBACK in the form that a REFIT's has. -/
theorem map_some_ok {x : Except AccFault (State × Nat)} {u : State} {status : Nat} (hx : x = .ok (u, status)) :
    x.map (fun p => (p.1, some p.2)) = .ok (u, some status) := by rw [hx]; rfl

/-! ## The dock's work ends (R155) -/

/-- The dock is free of its task; after a pass's last row the completion work is due. -/
def State.jobOver (s : State) (d : Nat) (last : Bool) : State :=
  if last then (s.setDock d { s.dock d with job := none }).modPass d (fun p => { p with closing := true })
  else s.setDock d { s.dock d with job := none }

theorem exec_dockRefitDone {s : State} {d : DockId} {t id : Nat} {last : Bool} (hjob : (s.dock d.val).job = some (t, id, last)) :
    exec (.dockRefitDone d) s = .next (match (s.jobOver d.val last).findTask t id with
      | some k => (s.jobOver d.val last).endTask t k
      | none => s.jobOver d.val last) := by
  have hrow : exec (.dockRefitDone d) s = execDockRefitDone d s := rfl
  simp only [hrow, execDockRefitDone, hjob]
  rfl

/-! ## A pass closes (R153, R156, R160) -/

/-- What the completion work leaves: a closed pass is counted, a dock without a spare retires, and a fault strikes the context. -/
def CloseEnd.leaves (d : Nat) (p : Pass) : CloseEnd → State
  | .done u => (u.setDock d { u.dock d with pass := none, suspect := [] }).count 0x6200 4 64 1
  | .spent u => u.closeSpent d p
  | .fault u f => u.closeStruck d p f

section
variable {s : State} {d : DockId} {p : Pass} (hpass : (s.dock d.val).pass = some p) (hclosing : p.closing = true)
  (hjob : (s.dock d.val).job = none)
include hpass hclosing hjob

theorem exec_refitPassClose (failing : List Nat) (fault : Bool) :
    exec (.refitPassClose d ⟨failing, fault⟩) s = .next (s.passClose d.val p failing fault) := by
  have hrow : exec (.refitPassClose d ⟨failing, fault⟩) s = execRefitPassClose d ⟨failing, fault⟩ s := rfl
  simp [hrow, execRefitPassClose, hpass, hclosing, hjob]

/-- The row of a pass whose completion work runs is decided by how the work ends. -/
theorem exec_refitPassClose_worked {failing : List Nat} {x : CloseEnd} (hx : s.closeWork d.val p failing = x) :
    exec (.refitPassClose d ⟨failing, false⟩) s = .next (x.leaves d.val p) := by
  rw [exec_refitPassClose hpass hclosing hjob, ← hx, State.passClose]
  cases s.closeWork d.val p failing <;> rfl

end

/-! ## The statement -/

/-- Settles O36: the rows of the three modes by whether the dock refuses the task, the end of the dock's work, and the closing of a
pass by how the completion work ends. -/
theorem refitTasksRunAndPassesClose : Obligations.RefitTasksRunAndPassesClose := by
  refine ⟨fun s u n k e status slots hhead hfree hcode hentry hslots => ⟨?refit, ?scan, ?readback⟩,
    fun s n k hhead hfree hcode c hc => ?refused, fun s d => ⟨?ended, ?close⟩⟩
  case refit =>
    intro failing hmode hrun
    rw [exec_dockRefit, State.refitTask_handed _ hhead hmode hfree hcode hentry hslots hrun]
  case scan =>
    intro hmode hrun
    rw [exec_dockRefitScan, State.refitTask_handed _ hhead hmode hfree hcode hentry hslots (map_some_ok hrun)]
  case readback =>
    intro bad hmode hrun
    rw [exec_dockRefitReadback, State.refitTask_handed _ hhead hmode hfree hcode hentry hslots (map_some_ok hrun)]
  case refused =>
    obtain ⟨failing, rfl, hmode⟩ | ⟨rfl, hmode⟩ | ⟨bad, rfl, hmode⟩ := hc
    · rw [exec_dockRefit, State.refitTask_refused _ hhead hmode hfree hcode]
    · rw [exec_dockRefitScan, State.refitTask_refused _ hhead hmode hfree hcode]
    · rw [exec_dockRefitReadback, State.refitTask_refused _ hhead hmode hfree hcode]
  case ended =>
    intro t id last hjob
    exact exec_dockRefitDone hjob
  case close =>
    intro p failing hpass hclosing hjob
    have hworked {x : CloseEnd} := exec_refitPassClose_worked (x := x) hpass hclosing hjob (failing := failing)
    exact ⟨fun u hdone => hworked hdone, fun u hspent => hworked hspent, fun u f hfault => hworked hfault,
      exec_refitPassClose hpass hclosing hjob failing true⟩

end Sys2Proof.Machine

/-! Calibrations (R131, R164 to R171, R174; O37): DOCK_CAL queues its docks, a tile's calibrations start and end, and a die's calibration
takes all its docks. That a tile's requests are served strictly in their order of arrival is the model's reading (log 52). -/

namespace Sys2Proof.Machine

open Sys2Proof.Claims

/-! ## DOCK_CAL (R171) -/

/-- DOCK_CAL as the work of one task: it touches no operand, and queues its docks in ascending order. -/
def calBody (n : Nat) (kind : CalKind) : Body :=
  ⟨fun _ _ => [], fun _ _ => [], fun s _ k =>
    .ok ((k.maskDocks n).foldl (fun (s : State) (d : Nat) => s.queueCal d kind k.calDones) s, 0)⟩

/-- A task that begins is the head of its tile. -/
theorem headOf_of_begins {s : State} {n op : Nat} {form : Task → Bool} {k : Task} (hb : begins s n op form k) : s.headOf n op = some k := by
  obtain ⟨hnext, hop, -, hstart, hoperating, -⟩ := hb
  simp [State.headOf, hnext, hop, hstart, hoperating]

section
variable {s : State} {n field : Nat} {kind : CalKind} {k : Task}
  (hdie : s.interrupting = true → s.dieCalibrating (n / 144) = false) (hfield : bits (k.w 6) 55 54 = field)
  (hb : begins s n 0x03 (fun _ => true) k)
include hdie hfield

/-- Neither its kind nor a calibration of its whole die holds the task off. -/
theorem calTask_passes : ¬(bits (k.w 6) 55 54 ≠ field ∨ (s.interrupting = true ∧ s.dieCalibrating (n / 144) = true)) := by
  rintro (hother | ⟨hinterrupting, hcalibrating⟩)
  · exact hother hfield
  · exact absurd hcalibrating (Bool.eq_false_iff.mp (hdie hinterrupting))

include hb

/-- A task without a retired dock is one row's work. -/
theorem State.calTask_runs (hdocks : (k.maskDocks n).find? s.dockRetired = none) :
    s.calTask n field kind = s.runTask n 0x03 (fun _ => true) (calBody n kind) := by
  simp only [State.calTask, headOf_of_begins hb, if_neg (calTask_passes hdie hfield), hdocks, calBody]

/-- Its docks are queued, and it is done. -/
theorem State.calTask_queued (hdocks : (k.maskDocks n).find? s.dockRetired = none) : s.calTask n field kind =
    taskDone n k [] none [] 0 ((k.maskDocks n).foldl (fun (s : State) (d : Nat) => s.queueCal d kind k.calDones) (s.work.startedAs n k [] [])) := by
  rw [State.calTask_runs hdie hfield hb hdocks,
    State.runTask_admitted (body := calBody n kind) hb (admits_nothing s.work n k) rfl]
  rfl

/-- A retired dock refuses the task. -/
theorem State.calTask_refused {d : Nat} (hdocks : (k.maskDocks n).find? s.dockRetired = some d) :
    s.calTask n field kind = s.work.refuseDock n k 0x4002 d := by
  simp only [State.calTask, headOf_of_begins hb, if_neg (calTask_passes hdie hfield), hdocks]

end

/-- The field of the descriptor and the kind of calibration that a row of DOCK_CAL stands for. -/
theorem exec_dockCal {c : Instr} {n : TileId} {k : Task} {kind : CalKind}
    (hc : (c = .dockCalNative n ∧ bits (k.w 6) 55 54 = 0 ∧ kind = .native) ∨ (c = .dockCalCold n ∧ bits (k.w 6) 55 54 = 1 ∧ kind = .cold)
      ∨ (c = .dockCalQuickVerify n ∧ bits (k.w 6) 55 54 = 2 ∧ kind = .verify)) (s : State) :
    exec c s = .next (s.calTask n.val (bits (k.w 6) 55 54) kind) := by
  obtain ⟨rfl, hfield, rfl⟩ | ⟨rfl, hfield, rfl⟩ | ⟨rfl, hfield, rfl⟩ := hc <;> rw [hfield] <;> rfl

/-! ## The calibrations of a tile (R131, R167, R169, R170) -/

/-- The request at the front starts where its dock is free; requests of docks that have retired are dropped. -/
theorem exec_calibrationStart {s : State} {n : TileId} {r : CalReq} {rest : List CalReq}
    (hfront : (s.calQueue n.val).filter (fun r => !s.dockRetired r.dock) = r :: rest) (hready : s.calReady r = true) :
    exec (.calibrationStart n) s = .next (s.setCalQueue n.val ({ r with running := true } :: rest)) := by
  have hrow : exec (.calibrationStart n) s = execCalibrationStart n s := rfl
  simp [hrow, execCalibrationStart, hfront, hready]

theorem exec_calibrationDone {s : State} {d : DockId} {r : CalReq}
    (hruns : (s.calQueue (d.val / 8)).find? (fun r => r.running && r.dock == d.val) = some r) (pass : Bool) :
    exec (.calibrationDone d pass) s = .next (s.calEnd d.val r pass) := by
  have hrow : exec (.calibrationDone d pass) s = execCalibrationDone d pass s := rfl
  simp only [hrow, execCalibrationDone, hruns]

/-- The queue of a tile without one request. -/
def State.calRest (s : State) (t : Nat) (r : CalReq) : List CalReq := (s.calQueue t).filter (fun x => x != r)

section
variable (s : State) (d : Nat) (r : CalReq)

/-- A calibration in order completes. -/
theorem State.calEnd_pass : s.calEnd d r true =
    (((s.calComplete d r.kind r.restore).setCalQueue (d / 8) (s.calRest (d / 8) r)).raiseDones r.dones).calSettled.regrant (d / 8) := by
  simp only [State.calEnd, State.calRest, if_true]

/-- A failed verify is counted, logged where it was a restored block's (R174), and followed by a cold calibration (R169). -/
theorem State.calEnd_verify (hkind : r.kind = .verify) : s.calEnd d r false =
    (if r.restore.isSome then (s.count 0x6100 10 32 1).logEv
        { code := 0x4108, severity := note, kind := 3, id := d, detail := leBytes 2 ((s.count 0x6100 10 32 1).dockLayer d) }
      else s.count 0x6100 10 32 1).setCalQueue (d / 8) ({ r with kind := .cold, running := false, restore := none } :: s.calRest (d / 8) r) := by
  simp only [State.calEnd, State.calRest, Bool.false_eq_true, if_false, if_pos hkind]

/-- A calibration that fails for the first time is repeated. -/
theorem State.calEnd_again (hkind : r.kind ≠ .verify) (hfails : r.fails = 0) : s.calEnd d r false =
    s.setCalQueue (d / 8) ({ r with fails := 1 } :: s.calRest (d / 8) r) := by
  simp only [State.calEnd, State.calRest, Bool.false_eq_true, if_false, if_neg hkind, if_pos hfails]

/-- A calibration that has failed before retires its dock. -/
theorem State.calEnd_retire (hkind : r.kind ≠ .verify) (hfails : r.fails ≠ 0) : s.calEnd d r false =
    (((s.calFault d).setCalQueue (d / 8) (s.calRest (d / 8) r)).raiseDones r.dones).calSettled.regrant (d / 8) := by
  simp only [State.calEnd, State.calRest, Bool.false_eq_true, if_false, if_neg hkind, if_neg hfails]

end

/-! ## The calibration of a die (R168, R170) -/

section
variable {s : State} {die : DieId} {x : DieCal} (hx : mget? s.dieCals die.val = some x)
include hx

theorem exec_dieCalibration (hwaits : x.running = false) (hfree : s.dieFree die.val = true) :
    exec (.dieCalibration die) s = .next { s with dieCals := mset s.dieCals die.val { x with running := true } } := by
  have hrow : exec (.dieCalibration die) s = execDieCalibration die s := rfl
  simp [hrow, execDieCalibration, hx, hwaits, hfree]

theorem exec_dieCalibrationDone (hruns : x.running = true) (failing : List DockId) :
    exec (.dieCalibrationDone ⟨die, failing⟩) s = .next (s.dieComplete die.val x (failing.map (fun d => d.val))) := by
  have hrow : exec (.dieCalibrationDone ⟨die, failing⟩) s = execDieCalibrationDone ⟨die, failing⟩ s := rfl
  simp only [hrow, execDieCalibrationDone, hx, if_pos hruns]

end

/-- The docks of a die take their native calibration. -/
def State.dieCalibrated (s : State) (docks : List Nat) : State :=
  docks.foldl (fun (s : State) (d : Nat) => s.calComplete d .native none) s

/-- Where no dock fails, every dock of the die is calibrated and the die's calibration is over. -/
theorem State.dieComplete_none_failing (s : State) (die : Nat) (x : DieCal) : s.dieComplete die x [] =
    ({ s.dieCalibrated (s.dieDocks die x) with dieCals := merase (s.dieCalibrated (s.dieDocks die x)).dieCals die }).raiseDones x.dones := by
  simp [State.dieComplete, State.dieCalibrated]

/-! ## The statement -/

/-- Settles O37: the task by whether one of its docks has retired, a tile's calibration by its start and its verdict, and a die's by its
start and its failing docks. -/
theorem calibrationsAreQueuedAndRun : Obligations.CalibrationsAreQueuedAndRun := by
  refine fun s n d die => ⟨fun k kind hdie hb c hc => ?task, fun r rest => exec_calibrationStart, fun r hruns => ?verdict,
    fun x => exec_dieCalibration, fun x hx hruns => ?die⟩
  case task =>
    rw [exec_dockCal hc]
    exact ⟨fun hdocks => congrArg _ (State.calTask_queued hdie rfl hb hdocks),
      fun d hdocks => congrArg _ (State.calTask_refused hdie rfl hb hdocks)⟩
  case verdict =>
    simp only [exec_calibrationDone hruns]
    refine ⟨congrArg _ (s.calEnd_pass d.val r), fun hkind hfails => congrArg _ (s.calEnd_again d.val r hkind hfails),
      fun hkind hfails => congrArg _ (s.calEnd_retire d.val r hkind hfails), fun hkind hrestore => ?_, fun hkind hrestore => ?_⟩
    · rw [State.calEnd_verify _ _ _ hkind, if_neg (by simp [hrestore])]
      rfl
    · rw [State.calEnd_verify _ _ _ hkind, if_pos (Option.isSome_iff_ne_none.mpr hrestore)]
      rfl
  case die =>
    refine ⟨?_, exec_dieCalibrationDone hx hruns⟩
    rw [exec_dieCalibrationDone hx hruns]
    exact congrArg _ (s.dieComplete_none_failing die.val x)

end Sys2Proof.Machine

/-! Tallies, gates and replays (R226, R228, R230 to R233, R423; O33). That a step whose manifest log has overflowed is found out when its
replay would begin, and what happens to the step then, is the model's reading (log 57). -/

namespace Sys2Proof.Machine

/-! ## The slots of a tally (R226, R230) -/

section
variable {s : State} {c : CtxId} {slot : Nat} {e : TallySlot} (hslot : slot < 64) (htally : s.tallyOf (c.val * 64 + slot) = some e)
include hslot htally

/-- The slot holds its copy. -/
theorem exec_tallySampleCopyDone :
    exec (.tallySampleCopyDone c slot) s = .next (s.setTally (c.val * 64 + slot) { e with copying := false }) := by
  have hrow : exec (.tallySampleCopyDone c slot) s = execTallySampleCopyDone c slot s := rfl
  simp only [hrow, execTallySampleCopyDone, htally, if_pos hslot]

/-- The sample of a tally that is not finished in time is dropped, and its slot freed (R230). -/
theorem exec_tallyTimeout : exec (.tallyTimeout c slot) s =
    .next (if s.tallyLate e = true then (s.dropSample c.val e.task.layerId).tallyEnd (c.val * 64 + slot) false else s) := by
  have hrow : exec (.tallyTimeout c slot) s = execTallyTimeout c slot s := rfl
  simp only [hrow, execTallyTimeout, htally, hslot, true_and]

end

/-! ## The recomputation of a sample (R228, R430) -/

/-- What a recomputation is taken for: the first one is judged by its bounds (R228), and those after it diagnose (R430). -/
def State.tallyResult (s : State) (key : Nat) (e : TallySlot) (js : List Judged) (factor : Rat) : State :=
  if e.kind = 0 then s.tallyFirst key e js factor else s.tallyNext key e js factor

/-- The state in which a recomputation of tile t has run: its overtaking and the task itself are counted (R323, R355). -/
def State.tallyRan (s : State) (t : Nat) : State := (s.overtake t).count 0x4030 3 64 1

/-- The checker tile runs the tally that is due on it, and a machine without a fault answers what it computes. -/
theorem exec_tally {s u : State} {n : TileId} {key : Nat} {e : TallySlot} {js : List Judged} (hdue : s.tallyDue n.val = some (key, e))
    (hoperating : s.operating = true) (hloaded : s.loaded = true) (hctx : s.ctxState (key / 64) = 2)
    (hidle : (s.tile n.val).busy = false) (hurgent : s.urgentFirst n.val = false)
    (hread : s.work.recompute n.val (key / 64) e.cap = .ok (js, u)) :
    exec (.tally n []) s = .next ((u.tallyRan n.val).tallyResult key e (js.zipIdx.map (fun p => p.1))
      (numOfF32 ((u.tallyRan n.val).get 0x5400 2)).rat) := by
  have hrow : exec (.tally n []) s = execTally n [] s := rfl
  simp [hrow, execTally, hdue, hoperating, hloaded, hctx, hidle, hurgent, hread, State.tallyResult, State.tallyRan]

/-! ## Gates (R231, R232) -/

/-- What a gate's evaluation leaves, once no tally is outstanding: the gate of a layer that has passed, or of a context without trouble
and without a data error, passes; trouble trips the step; and a data error alone leaves the gate to the replay. -/
def State.gateJudged (s : State) (t : Nat) (k : Task) (i : Nat) : State :=
  if (s.layer i).gate.isSome then s.gatePass t k i
  else match s.troubled k.ctx with
    | [] => if (s.ctx k.ctx).errs = [] then s.gatePass t k i else s
    | found => s.trip k.ctx found

section
variable {s : State} {t : Nat} {k : Task} {i : Nat}

theorem State.gateJudged_of_passed (hpassed : (s.layer i).gate ≠ none) : s.gateJudged t k i = s.gatePass t k i :=
  if_pos (Option.isSome_iff_ne_none.mpr hpassed)

variable (hopen : (s.layer i).gate = none)
include hopen

theorem State.gateJudged_of_calm (hcalm : s.troubled k.ctx = []) (hclean : (s.ctx k.ctx).errs = []) :
    s.gateJudged t k i = s.gatePass t k i := by
  simp [State.gateJudged, hopen, hcalm, hclean]

theorem State.gateJudged_of_troubled (htrouble : s.troubled k.ctx ≠ []) :
    s.gateJudged t k i = s.trip k.ctx (s.troubled k.ctx) := by
  obtain ⟨x, xs, hfound⟩ := List.exists_cons_of_ne_nil htrouble
  simp [State.gateJudged, hopen, hfound]

end

/-- A gate with no tally outstanding is judged, unless its context is not taken or already waits for its replay. -/
theorem exec_gateEvaluate {s : State} {n : TileId} {k : Task} {i : Nat} {l : LayerDef}
    (hgate : (s.tile n.val).tasks.find? (fun k => k.gate == 1 && k.st == .taken) = some k) (hlayer : s.layerOf k = some (i, l))
    (htakes : s.takes k.ctx = true) (htrip : (s.ctx k.ctx).tripReplay = false) (hready : s.gateReady k = true) :
    exec (.gateEvaluate n) s = .next (s.gateJudged n.val k i) := by
  have hrow : exec (.gateEvaluate n) s = execGateEvaluate n s := rfl
  simp only [hrow, execGateEvaluate, hgate, hlayer, htakes, htrip, hready]
  rfl

/-! ## The replay (R233, R423) -/

/-- The replay that a context waits for is given up. -/
def State.replayDropped (s : State) (c : Nat) : State :=
  s.setCtx c { s.ctx c with replaying := false, tripReplay := false, errs := [] }

/-- What a replay leaves once the context's work has stopped: the step from its mark again where its manifests are kept; else the skip
of its update (R232), or, after a data error, the end of the job (R423). -/
def State.replayed (s : State) (c : Nat) : State :=
  if (s.ctx c).manLog ≤ manLogMax then s.rewind c
  else if (s.ctx c).errs = [] then (s.replayDropped c).skipUpdate c
  else (s.replayDropped c).jobFault c 0x7005 9 c {} []

section
variable {s : State} {c : Nat}

theorem State.replayed_of_kept (hkept : (s.ctx c).manLog ≤ manLogMax) : s.replayed c = s.rewind c := if_pos hkept

variable (hover : manLogMax < (s.ctx c).manLog)
include hover

theorem State.replayed_of_overflow (hclean : (s.ctx c).errs = []) : s.replayed c = (s.replayDropped c).skipUpdate c := by
  rw [State.replayed, if_neg (Nat.not_le.mpr hover), if_pos hclean]

theorem State.replayed_of_overflow_error (herrs : (s.ctx c).errs ≠ []) :
    s.replayed c = (s.replayDropped c).jobFault c 0x7005 9 c {} [] := by
  rw [State.replayed, if_neg (Nat.not_le.mpr hover), if_neg herrs]

end

/-- The replay begins when no task of the context runs and no diagnosis is open. -/
theorem exec_replayRewind {s : State} {c : CtxId} (hwaits : (s.ctx c.val).replaying = true) (hstill : s.ctxRuns c.val = false)
    (hjudged : s.diagnosing c.val = false) (hctx : s.ctxState c.val = 2) :
    exec (.replayRewind c) s = .next (s.replayed c.val) := by
  have hrow : exec (.replayRewind c) s = execReplayRewind c s := rfl
  simp only [hrow, execReplayRewind, hwaits, hstill, hjudged, hctx]
  rfl

/-! ## The statement -/

/-- Settles O33: each row by what it finds: a slot, a tally that is due, a gate that is ready, a context that has stopped for its replay. -/
theorem talliesGatesAndReplaysEnd : Obligations.TalliesGatesAndReplaysEnd := by
  refine fun s n c slot hslot => ⟨fun e htally => ?slots, fun key e js u => exec_tally, fun k i l hgate hlayer htakes htrip hready => ?gates,
    fun hwaits hstill hjudged hctx => ?replays⟩
  case slots =>
    rw [exec_tallyTimeout hslot htally]
    exact ⟨exec_tallySampleCopyDone hslot htally, fun hlate => by rw [if_pos hlate],
      fun hearly => by rw [if_neg (Bool.eq_false_iff.mp hearly)]⟩
  case gates =>
    rw [exec_gateEvaluate hgate hlayer htakes htrip hready]
    exact ⟨fun hpassed => congrArg _ (State.gateJudged_of_passed hpassed),
      fun hopen => ⟨fun hcalm hclean => congrArg _ (State.gateJudged_of_calm hopen hcalm hclean),
        fun htrouble => congrArg _ (State.gateJudged_of_troubled hopen htrouble)⟩⟩
  case replays =>
    rw [exec_replayRewind hwaits hstill hjudged hctx]
    exact ⟨fun hkept => congrArg _ (State.replayed_of_kept hkept),
      fun hover => ⟨fun hclean => congrArg _ (State.replayed_of_overflow hover hclean),
        fun herrs => congrArg _ (State.replayed_of_overflow_error hover herrs)⟩⟩

end Sys2Proof.Machine

/-! The hold (R272 to R283, R340; O38): its two tasks, and the moves between its tiers that the hold controller makes. That a spill and a
fetch move 64 KiB or what there is to move where that is less is the model's reading (log 42). -/

namespace Sys2Proof.Machine

open Sys2Proof.Claims

section
variable {s : State} {n : TileId} {k : Task}

/-! ## HOLD_PUSH and HOLD_POP (R272 to R276) -/

/-- A push first reserves the room that it lacks (R279, R281), and then runs as one task. -/
theorem exec_holdPush {j : Task} {t : State} (hhead : s.headOf n.val 0x30 = some k)
    (hruns : runs (s.pushPrep n.val k) n.val 0x30 (fun _ => true) ⟨pushReads, fun _ _ => [], State.pushRun⟩ j t) :
    exec (.holdPush n) s = .next t := by
  have hrow : exec (.holdPush n) s = execHoldPush n s := rfl
  rw [hrow, execHoldPush, hhead]
  exact congrArg Host.Outcome.next (State.runTask_of_runs hruns)

/-- A pop as the work of one task: it writes its destination, except where the top entry is a segment mark. -/
def popTaskBody (n : Nat) : Body :=
  ⟨fun _ _ => [], fun s k => match (s.hold n).entries with
    | e :: _ => if e.mark then [] else popWrites s k
    | [] => [], State.popRun⟩

/-- A pop of a matching entry that lies in tier 1 whole waits for no move: it is one row's work. -/
theorem exec_holdPop_entry {e : HoldEntry} {rest : List HoldEntry} {t : State} (htop : (s.hold n.val).entries = e :: rest)
    (hmatch : s.popCheck n.val k = 0) (hentry : e.mark = false) (hin : e.size ≤ (s.hold n.val).t1)
    (hruns : runs s n.val 0x31 (fun _ => true) (popTaskBody n.val) k t) : exec (.holdPop n) s = .next t := by
  have hrow : exec (.holdPop n) s = execHoldPop n s := rfl
  have hhead : s.headOf n.val 0x31 = some k := headOf_of_begins hruns.1
  have hnear : ¬((s.hold n.val).t1 < e.size ∧ ((s.hold n.val).move.isSome || s.canFetch n.val || s.canRecall n.val k.ctx) = true) :=
    fun hfar => Nat.not_lt.mpr hin hfar.1
  simp only [hrow, execHoldPop, hhead, htop, hmatch, hentry, if_neg hnear]
  exact congrArg Host.Outcome.next (State.runTask_of_runs hruns)

/-! ## Moves start (R277, R278, R281) -/

section
variable {c : Nat} (hmover : s.mover n.val = some c)
include hmover

theorem exec_holdSpill : exec (.holdSpill n) s = .next (s.spillStart n.val c) := by
  have hrow : exec (.holdSpill n) s = execHoldSpill n s := rfl
  rw [hrow, execHoldSpill, hmover]

theorem exec_holdPrefetch : exec (.holdPrefetch n) s = .next (s.fetchStart n.val c) := by
  have hrow : exec (.holdPrefetch n) s = execHoldPrefetch n s := rfl
  rw [hrow, execHoldPrefetch, hmover]

end

/-- Where tier 1 holds something and has less free than SPILL_HEADROOM_KIB, and tier 2 alone can take it, a spill starts. -/
theorem State.spillStart_of_low {n c : Nat} {r2 : List Nat} (hheld : 0 < (s.hold n).t1)
    (hlow : s.holdFree n < s.get 0x2600 1 * 1024) (hreserve : s.reserveLow n c (min segmentBytes (s.hold n).t1) = some (r2, [])) :
    s.spillStart n c = s.setHold n { s.hold n with
      res2 := withMore (s.hold n).res2 r2, res3 := withMore (s.hold n).res3 [], move := some (.spill, min segmentBytes (s.hold n).t1) } := by
  have hsome : min segmentBytes (s.hold n).t1 ≠ 0 := Nat.ne_of_gt (Nat.lt_min.mpr ⟨by decide, hheld⟩)
  have hgoes : ¬(min segmentBytes (s.hold n).t1 = 0 ∨ (s.get 0x2600 1 * 1024 ≤ s.holdFree n ∧ (s.hold n).need ≤ s.holdFree n)) := by
    rintro (hnone | ⟨hroomy, -⟩)
    · exact hsome hnone
    · exact Nat.not_le.mpr hlow hroomy
  simp only [State.spillStart, if_neg hgoes, hreserve]

/-- Where tier 2 holds something and tier 1 has PREFETCH_ROOM_KIB free, a fetch starts. -/
theorem State.fetchStart_of_roomy {n c : Nat} (hcan : s.canFetch n = true) (hroomy : s.get 0x2600 2 * 1024 ≤ s.holdFree n) :
    s.fetchStart n c = s.setHold n { s.hold n with move := some (.fetch, min segmentBytes (min (s.hold n).t2 (s.holdFree n))) } := by
  have hgoes : (s.canFetch n && ((s.hold n).want || decide (s.get 0x2600 2 * 1024 ≤ s.holdFree n))) = true := by simp [hcan, hroomy]
  simp only [State.fetchStart, if_pos hgoes]

/-! ## A move ends (R279, R280, R340) -/

theorem exec_holdMoveDone (s : State) (n : TileId) : exec (.holdMoveDone n) s = execHoldMoveDone n s := rfl

section
variable {m : HoldMoveKind × Nat} {c : Nat} (hmove : (s.hold n.val).move = some m) (hctx : s.tileCtx n.val = some c)
include hmove hctx

theorem exec_holdMoveDone_nothing (hnone : s.moveHaul n.val c m = none) :
    exec (.holdMoveDone n) s = .next (s.setHold n.val (s.hold n.val).still) := by
  simp only [exec_holdMoveDone, execHoldMoveDone, hmove, hctx, hnone]

variable {x : Haul} (hhaul : s.moveHaul n.val c m = some x)
include hhaul

theorem exec_holdMoveDone_landed {u : State} (hlanded : s.haul n.val c .both x = .ok u) : exec (.holdMoveDone n) s = .next u := by
  simp only [exec_holdMoveDone, execHoldMoveDone, hmove, hctx, hhaul, hlanded]

/-- A translation fault gives the move up and is a fault of the context, of no task. -/
theorem exec_holdMoveDone_fault {code va level : Nat} {w : Bool} (hfault : s.haul n.val c .both x = .error (.trans code va level w)) :
    exec (.holdMoveDone n) s = .next (((s.setHold n.val (s.hold n.val).still).noteFault n.val c x.uses (.trans code va level w)).transFault
      c code { va := va, level := level, write := w, tile := n.val, noTask := true }) := by
  simp only [exec_holdMoveDone, execHoldMoveDone, hmove, hctx, hhaul, hfault]

end

end

/-! ## The statement -/

/-- Settles O38: each row by its case: a push, a pop of an entry, a move that starts, and a move that ends by what its haul answers. -/
theorem holdTasksAndMovesRun : Obligations.HoldTasksAndMovesRun := by
  refine fun s n k => ⟨fun t j => exec_holdPush, fun e rest t => exec_holdPop_entry, fun c hmover => ?starts, fun m c hmove hctx => ?ends⟩
  case starts =>
    rw [exec_holdSpill hmover, exec_holdPrefetch hmover]
    exact ⟨fun r2 hheld hlow hreserve => congrArg _ (State.spillStart_of_low hheld hlow hreserve),
      fun hcan hroomy => congrArg _ (State.fetchStart_of_roomy hcan hroomy), rfl, rfl⟩
  case ends =>
    exact ⟨fun x u hhaul => exec_holdMoveDone_landed hmove hctx hhaul, exec_holdMoveDone_nothing hmove hctx,
      fun x code va level w hhaul => exec_holdMoveDone_fault hmove hctx hhaul⟩

end Sys2Proof.Machine

/-! Unit rows: COPY, TRANSPOSE and SECURE_COPY (R296, R298, R345, R346; O30). That one row moves the units it names is the model's choice
(log 17), and so is that the units of a task's run-ahead transfers count against the same entries as all others (log 37). -/

namespace Sys2Proof.Machine

open Sys2Proof.Claims

/-! ## The move of a task's units -/

/-- The ranges that the units a task has not moved yet write. -/
def State.unitsLeft (s : State) (d : Dma) (k : Task) : List (Nat × Nat) := (d.moved s k (d.total s k)).drop k.units

/-- How many of the units that a row stands for move: no more than a pre-emption request lets through (R346), than are left, and than
the fetch engine has entries for (R296). -/
def State.unitsMoved (s : State) (n : Nat) (d : Dma) (k : Task) (units : Nat) : Nat :=
  min (s.unitsNow n k units) (s.unitsFree n k (s.unitsLeft d k))

/-- The state in which a task's units move: the head task has started, and one that runs ahead has not (R296). -/
def State.movesFrom (s : State) (n : Nat) (d : Dma) (k : Task) (head : Bool) : State :=
  if head then s.startedAs n k (d.reads s k ++ d.writes s k) (d.writes s k) else s

/-- The task as a fault finds it: written as far as the units it had moved before the row reach. -/
def Task.movingOn (k : Task) (s : State) (d : Dma) : Task :=
  { k with written := d.moved s k k.units, uses := d.reads s k ++ d.writes s k }

/-- What the row of an admitted task leaves, by the answer of its move of m units: the progress stands (R345); a copy that is not ready
leaves the task waiting; lines that a host holds are asked for (R511); any other fault stops the task (R298). -/
def State.unitsLeave (s : State) (n : Nat) (d : Dma) (k : Task) (head : Bool) (m : Nat) (slots : List (Nat × Nat))
    (load : Option (Nat × Nat)) : Except AccFault State → State
  | .error .wait => s.work
  | .error (.stall lines) => s.work.snoopHeld lines
  | .error f => (s.work.movesFrom n d k head).stopTask n (k.movingOn s.work d) f
  | .ok u => unitsDone n d s.work k head m (s.unitsLeft d k) slots load u

section
variable (s : State) (n : Nat) (d : Dma) (k : Task) (head : Bool) (m : Nat) (slots : List (Nat × Nat)) (load : Option (Nat × Nat))

theorem State.unitsLeave_done (u : State) :
    s.unitsLeave n d k head m slots load (.ok u) = unitsDone n d s.work k head m (s.unitsLeft d k) slots load u := rfl

theorem State.unitsLeave_held (lines : List (Nat × Nat)) :
    s.unitsLeave n d k head m slots load (.error (.stall lines)) = s.work.snoopHeld lines := rfl

theorem State.unitsLeave_fault {f : AccFault} (hwait : f ≠ .wait) (hstall : ∀ lines, f ≠ .stall lines) :
    s.unitsLeave n d k head m slots load (.error f) = (s.work.movesFrom n d k head).stopTask n (k.movingOn s.work d) f := by
  cases f with
  | wait => exact absurd rfl hwait
  | stall lines => exact absurd rfl (hstall lines)
  | _ => rfl

end

section
variable {s : State} {n op units : Nat} {d : Dma} {k : Task} {head : Bool} (htask : s.dmaTask n op = some (k, head))
include htask

/-- The head task with nothing left to move starts, and its work is done. -/
theorem State.runDma_nothing (hnone : s.unitsMoved n d k units = 0) (hhead : head = true) (hleft : s.unitsLeft d k = [])
    (hopen : k.worked = false) : s.runDma n op units d = s.work.dmaStart n k d := by
  have hstart : head = true ∧ s.unitsLeft d k = [] ∧ (!k.worked) = true := ⟨hhead, hleft, by simp [hopen]⟩
  unfold State.unitsMoved at hnone
  unfold State.unitsLeft at hnone hstart
  simp only [State.runDma, htask, if_pos hnone, if_pos hstart]

/-- The row of an admitted task that moves units is decided by the answer of the move. -/
theorem State.runDma_admitted {slots : List (Nat × Nat)} {load : Option (Nat × Nat)}
    (ha : admits s.work n k (d.reads s.work k) (d.writes s.work k) slots load) (hsome : s.unitsMoved n d k units ≠ 0)
    {x : Except AccFault State} (hx : d.run (s.work.movesFrom n d k head) n k k.units (s.unitsMoved n d k units) = x) :
    s.runDma n op units d = s.unitsLeave n d k head (s.unitsMoved n d k units) slots load x := by
  obtain ⟨hread, hwrite⟩ := ha
  subst hx
  unfold State.unitsMoved State.unitsLeft at hsome
  simp only [State.runDma, htask, if_neg hsome, hread, hwrite]
  rfl

end

/-- Every unit row is the move of its units. -/
theorem exec_unitRow {c : Instr} {n op units : Nat} {d : Dma} (hrow : unitRow c = some (n, op, units, d)) (s : State) :
    exec c s = .next (s.runDma n op units d) := by
  unfold unitRow at hrow
  split at hrow <;> cases hrow <;> rfl

/-! ## The statement -/

/-- Settles O30: a task with nothing left is done, and a row that moves units is decided by the answer of the move. -/
theorem unitRowsMoveUnitsOfTheHeadTask : Obligations.UnitRowsMoveUnitsOfTheHeadTask := by
  intro c n op units d s k head slots load hrow htask ha left m w v
  -- The statement's abbreviations are the operations named above.
  have hleft : left = s.unitsLeft d k := rfl
  have hm : m = s.unitsMoved n d k units := rfl
  have hw : w = d.writes s.work k := rfl
  have hv : v = s.work.movesFrom n d k head := rfl
  clear_value v w m left
  subst hv hw hm hleft
  rw [exec_unitRow hrow]
  refine ⟨fun hnone hhead hleft hopen => ?nothing, fun hsome => ?moves⟩
  case nothing =>
    rw [State.runDma_nothing htask hnone hhead hleft hopen]
    rfl
  case moves =>
    refine ⟨fun u hdone => ?done, fun lines hheld => ?held, fun f hfault hwait hstall => ?stopped⟩
    case done => rw [State.runDma_admitted htask ha hsome hdone, State.unitsLeave_done]
    case held => rw [State.runDma_admitted htask ha hsome hheld, State.unitsLeave_held]
    case stopped =>
      rw [State.runDma_admitted htask ha hsome hfault, State.unitsLeave_fault _ _ _ _ _ _ _ _ hwait hstall, Task.movingOn]

end Sys2Proof.Machine

/-! Tasks end and then signal; transfers are acknowledged; a running move of data is suspended (R293, R296, R308, R346; O27). -/

namespace Sys2Proof.Machine

section
variable {s : State} {n : TileId} {k : Task}

/-- A task whose answers are in, or one that waits for none because it is express (R309), passes the test of its end and of its signal. -/
theorem Task.answered_of (hanswered : k.express = true ∨ k.unanswered = []) :
    (k.express || k.unanswered.isEmpty) = true := by
  simpa using hanswered

/-- A task whose work is done ends, once its sample, if it is taken for one, is in its slot. -/
theorem exec_taskEnd {u : State} (hnext : (s.tile n.val).tasks.find? (fun k => k.st != .handed) = some k) (hworked : k.worked = true)
    (hgate : k.gate ≠ 1) (hanswered : k.express = true ∨ k.unanswered = [])
    (hsample : (if k.noop then .ok s else s.considerSample n.val k) = Except.ok u) :
    exec (.taskEnd n) s = .next ((u.endTask n.val ((u.findTask n.val k.id).getD k)).endEffects k) := by
  have hrow : exec (.taskEnd n) s = execTaskEnd n s := rfl
  have hends : ¬((!k.worked) = true ∨ k.gate = 1 ∨ (!(k.express || k.unanswered.isEmpty)) = true) := by
    simp [hworked, hgate, Task.answered_of hanswered]
  simp only [hrow, execTaskEnd, hnext, if_neg hends, hsample]

/-- The oldest ended task of a tile signals, once every write of its is acknowledged and its slot copy has ended. -/
theorem exec_taskSignal {rest : List Task} (hending : (s.tile n.val).ending = k :: rest) (hacked : k.outstanding = 0)
    (hissued : k.unissued = 0) (hanswered : k.express = true ∨ k.unanswered = []) (hcopied : s.copyPending k = false) :
    exec (.taskSignal n) s =
      .next ((k.signals.foldl (fun s g => s.raise g.1 g.2 false) (s.setTile n.val { s.tile n.val with ending := rest })).regrant n.val) := by
  have hrow : exec (.taskSignal n) s = execTaskSignal n s := rfl
  have hsignals : ¬(k.outstanding ≠ 0 ∨ k.unissued ≠ 0 ∨ (!(k.express || k.unanswered.isEmpty)) = true ∨ s.copyPending k = true) := by
    simp [hacked, hissued, Task.answered_of hanswered, hcopied]
  simp only [hrow, execTaskSignal, hending, if_neg hsignals]

theorem exec_transferAck {id : Nat} (hfind : s.findTask n.val id = some k) (hopen : k.outstanding ≠ 0) :
    exec (.transferAck n id) s =
      .next (((s.modTask n.val id (fun k => { k with outstanding := k.outstanding - 1 })).issue n.val).settleLoad n.val id) := by
  have hrow : exec (.transferAck n id) s = execTransferAck n id s := rfl
  simp only [hrow, execTransferAck, hfind, if_neg hopen]

/-- A move of data that has stopped for a pre-emption request is suspended, once its transfers are acknowledged (R346). -/
theorem exec_dmaSuspend {b : Option Task} (hnext : (s.tile n.val).next = some (k, b)) (hruns : k.st = .running) (hopen : k.worked = false)
    (hprio : k.prio ≠ 3) (hop : k.opcode = 0x29 ∨ k.opcode = 0x2A ∨ k.opcode = 0x70) (hacked : k.outstanding = 0)
    (hanswered : k.unanswered = []) (hstands : s.requestStands n.val = true) :
    exec (.dmaSuspend n) s = .next (((s.setTask n.val { k with st := .suspended }).count 0x3020 4 64 1).regrant n.val) := by
  have hrow : exec (.dmaSuspend n) s = execDmaSuspend n s := rfl
  have hstops : k.st = .running ∧ (!k.worked) = true ∧ k.prio ≠ 3 ∧ (k.opcode = 0x29 ∨ k.opcode = 0x2A ∨ k.opcode = 0x70)
      ∧ k.outstanding = 0 ∧ k.unanswered = [] ∧ s.requestStands n.val = true :=
    ⟨hruns, by simp [hopen], hprio, hop, hacked, hanswered, hstands⟩
  simp only [hrow, execDmaSuspend, hnext, if_pos hstops]

end

/-! ## The statement -/

/-- Settles O27: each of the four rows under the test it makes of its task. -/
theorem tasksEndAndThenSignal : Obligations.TasksEndAndThenSignal :=
  fun _ _ _ => ⟨fun _ => exec_taskEnd, fun _ => exec_taskSignal, fun _ => exec_transferAck, fun _ => exec_dmaSuspend⟩

end Sys2Proof.Machine

/-! Bollard counts saturate (R305, R307; O28). The bollard that the securing takes its requests from is emptied at once (R435). -/

namespace Sys2Proof.Machine

open Sys2Proof.Claims

/-! ## The event of a job fault (R426) -/

theorem State.recordFault_log (s : State) (c code : Nat) (f : FaultAt) : (s.recordFault c code f).log = s.log := by
  unfold State.recordFault
  split <;> rfl

theorem State.recordFault_secure (s : State) (c code : Nat) (f : FaultAt) : (s.recordFault c code f).secure = s.secure := by
  unfold State.recordFault
  split <;> rfl

/-- With no copy open there is none to abandon (R441). -/
theorem State.abandonCopy_of_none {s : State} (hcopy : s.secure.copy = none) : s.abandonCopy = s := by
  simp only [State.abandonCopy, hcopy]

/-- The event of a job fault, which is sent whatever NOTIFY_LEVEL holds (R426). -/
def State.jobFaultEv (s : State) (c code kind id : Nat) (detail : List Byte) : Ev :=
  { s.ctxEv c code Sys2Proof.Machine.jobFault kind id detail with force := true }

/-- With no copy open, a job fault logs its own event and no other. -/
theorem State.jobFault_log {s : State} (hcopy : s.secure.copy = none) (c code kind id : Nat) (f : FaultAt) (d : List Byte) :
    (s.jobFault c code kind id f d).log = (s.logEv (s.jobFaultEv c code kind id d)).log := by
  unfold State.jobFault
  extract_lets ev logged recorded faulted
  have hrecorded : recorded.log = logged.log := (State.recordFault_log ..).trans (State.count_log ..)
  have hkept : recorded.secure = s.secure := (State.recordFault_secure ..).trans (State.logEv_secure ..)
  have hlog : faulted.log = logged.log := by
    rw [← hrecorded]
    simp only [faulted]
    split
    · exact State.put_log ..
    · rfl
  have hnone : faulted.secure.copy = none := by
    rw [← hcopy, ← hkept]
    simp only [faulted]
    split
    · exact congrArg Secure.copy (State.put_secure ..)
    · rfl
  split
  · exact (congrArg State.log (State.abandonCopy_of_none hnone)).trans hlog
  · exact hlog

/-- With no copy open, the newest event after a job fault is its own. -/
theorem State.jobFault_newest {s : State} (hcopy : s.secure.copy = none) (c code kind id : Nat) (f : FaultAt) (d : List Byte) :
    newest (s.jobFault c code kind id f d) code Sys2Proof.Machine.jobFault := by
  obtain ⟨x, hlast, -, -, hcode, hseverity, -⟩ := s.logEv_newest (s.jobFaultEv c code kind id d)
  exact ⟨x, (State.jobFault_log hcopy c code kind id f d).symm ▸ hlast, hcode, hseverity⟩

/-! ## A signal's count -/

/-- The state in which a signal has been added to a bollard, at most up to 2^32 − 1. -/
def State.signalled (s : State) (b inc : Nat) (ext : Bool) : State :=
  s.setBollard b { s.bollard b with count := min (2 ^ 32 - 1) ((s.bollard b).count + inc),
                                    ext := if ext then (s.bollard b).ext + inc else (s.bollard b).ext }

/-- What a count beyond 2^32 − 1 causes: a job fault of the bollard's context, where the plan gives it one (R307). -/
def State.excessLost (s : State) (b : Nat) : State := match s.bollardOwner b with
  | some c => s.jobFault c 0x1302 9 c {} []
  | none => s

section
variable (s : State) (b : Nat)

theorem State.excessLost_of_owned {s : State} {b c : Nat} (howner : s.bollardOwner b = some c) :
    s.excessLost b = s.jobFault c 0x1302 9 c {} [] := by
  simp only [State.excessLost, howner]

@[simp] theorem State.excessLost_bollards : (s.excessLost b).bollards = s.bollards := by
  unfold State.excessLost
  split
  · exact State.jobFault_bollards ..
  · rfl
@[simp] theorem State.excessLost_mem : (s.excessLost b).mem = s.mem := by
  unfold State.excessLost
  split
  · exact State.jobFault_mem ..
  · rfl
@[simp] theorem State.excessLost_tiles : (s.excessLost b).tiles = s.tiles := by
  unfold State.excessLost
  split
  · exact State.jobFault_tiles ..
  · rfl

/-- The bollard that the securing takes its requests from stays what it was. -/
theorem State.excessLost_requestBollard (hctx : ∀ c, s.bollardOwner b = some c → c < 64) :
    (s.excessLost b).get 0x8200 13 = s.get 0x8200 13 := by
  unfold State.excessLost
  split
  next c howner =>
    have hidx : 0x8200 ≠ ctxIdx c := by
      have hlt := hctx c howner
      unfold ctxIdx
      omega
    exact State.get_jobFault _ _ _ _ _ _ _ (by decide) (by decide) (by decide) (by decide) hidx (by decide)
  · rfl

end

section
variable {s : State} {b inc : Nat} (ext : Bool) (hother : b ≠ s.get 0x8200 13) (hctx : ∀ c, s.bollardOwner b = some c → c < 64)
include hother hctx

/-- A signal to a bollard that the securing does not consume adds to the count, and loses what lies beyond 2^32 − 1. -/
theorem State.bump_eq : s.bump b inc ext =
    if 2 ^ 32 ≤ (s.bollard b).count + inc then (s.signalled b inc ext).excessLost b else s.signalled b inc ext := by
  have hbump : s.bump b inc ext =
      (let u := if 2 ^ 32 ≤ (s.bollard b).count + inc then (s.signalled b inc ext).excessLost b else s.signalled b inc ext
       if u.secureCtx ≠ 0xFF ∧ b = u.get 0x8200 13 then u.processRequests else u) := rfl
  rw [hbump]
  refine if_neg fun hrequest => hother (hrequest.2.trans ?_)
  split
  · exact State.excessLost_requestBollard _ b hctx
  · rfl

theorem State.bump_bollards : (s.bump b inc ext).bollards = (s.signalled b inc ext).bollards := by
  rw [State.bump_eq ext hother hctx]
  split
  · exact State.excessLost_bollards _ b
  · rfl
theorem State.bump_mem : (s.bump b inc ext).mem = s.mem := by
  rw [State.bump_eq ext hother hctx]
  split
  · exact State.excessLost_mem _ b
  · rfl
theorem State.bump_tiles : (s.bump b inc ext).tiles = s.tiles := by
  rw [State.bump_eq ext hother hctx]
  split
  · exact State.excessLost_tiles _ b
  · rfl

theorem State.bump_bollard (e : Nat) : (s.bump b inc ext).bollard e = (s.signalled b inc ext).bollard e :=
  congrArg (fun m => mgetD m e _) (State.bump_bollards ext hother hctx)

/-- A count that fits is added without an event. -/
theorem State.bump_log_of_fits (hfits : (s.bollard b).count + inc < 2 ^ 32) : (s.bump b inc ext).log = s.log := by
  rw [State.bump_eq ext hother hctx, if_neg (Nat.not_le.mpr hfits)]
  rfl

/-- An excess is logged as a job fault of the bollard's context. -/
theorem State.bump_newest {c : Nat} (howner : s.bollardOwner b = some c) (hcopy : s.secure.copy = none)
    (hover : 2 ^ 32 ≤ (s.bollard b).count + inc) : newest (s.bump b inc ext) 0x1302 Sys2Proof.Machine.jobFault := by
  have howned : (s.signalled b inc ext).bollardOwner b = some c := howner
  rw [State.bump_eq ext hother hctx, if_pos hover, State.excessLost_of_owned howned]
  exact State.jobFault_newest (s := s.signalled b inc ext) hcopy ..

end

/-! ## The statement -/

/-- Settles O28: the bollards, memory and tiles as the signal's own addition leaves them, and the event by whether the count fits. -/
theorem bollardCountsSaturate : Obligations.BollardCountsSaturate := by
  intro s b inc ext hother hctx
  refine ⟨?count, fun e he => ?others, State.bump_mem ext hother hctx, State.bump_tiles ext hother hctx,
    fun c => State.bump_newest ext hother hctx, State.bump_log_of_fits ext hother hctx⟩
  case count => rw [State.bump_bollard ext hother hctx, State.signalled, State.setBollard_bollard]
  case others => rw [State.bump_bollard ext hother hctx, State.signalled, State.setBollard_bollard_ne _ _ he]

end Sys2Proof.Machine

/-! Synchronisation: FENCE, BARRIER, and the hangs of what is held too long (R309, R310, R312, R313, R318, R339; O31). That a BARRIER
arrives only while its context is taken is the model's reading (log 39). -/

namespace Sys2Proof.Machine

section
variable {s : State} {n : TileId} {k : Task}

/-! ## FENCE (R310) -/

theorem exec_fence (hhead : s.headOf n.val 0x52 = some k) (htaken : k.st = .taken) :
    exec (.fence n) s = .next (((s.work.startedAs n.val k [] []).setTask n.val { k with st := .running }).regrant n.val) := by
  have hrow : exec (.fence n) s = execFence n s := rfl
  simp only [hrow, execFence, hhead, if_pos htaken]

theorem exec_fenceDone (hhead : s.headOf n.val 0x52 = some k) (hruns : k.st = .running) (hmet : s.fenceMet n.val k = true) :
    exec (.fenceDone n) s = .next (s.setTask n.val { k with worked := true }) := by
  have hrow : exec (.fenceDone n) s = execFenceDone n s := rfl
  simp only [hrow, execFenceDone, hhead, if_pos (And.intro hruns hmet)]

/-! ## BARRIER (R312, R313) -/

theorem exec_barrier
    (htaken : (s.tile n.val).tasks.find? (fun k => k.opcode == 0x53 && k.st == .handed && !k.worked && s.takes k.ctx) = some k) :
    exec (.barrier n) s = .next (s.barrierArrive n.val k) := by
  have hrow : exec (.barrier n) s = execBarrier n s := rfl
  simp only [hrow, execBarrier, htaken]

@[simp] theorem State.setPst_ctxs (s : State) (p : PState) : (s.setPst p).ctxs = s.ctxs := by unfold State.setPst; split <;> simp

/-- Work changes no context. -/
theorem State.work_ctx (s : State) (c : Nat) : s.work.ctx c = s.ctx c := by
  have hctxs : s.work.ctxs = s.ctxs := by
    unfold State.work
    dsimp only
    split
    · exact State.setPst_ctxs _ _
    · rfl
  exact congrArg (fun m => mgetD m c _) hctxs

/-- A BARRIER with another sequence number than the first arrival's is a job fault (R313). -/
theorem State.barrierArrive_mismatch {t : Nat} {x : BarSt} (hfirst : (s.ctx k.ctx).barrier = some x) (hother : x.seq ≠ k.barSeq) :
    s.barrierArrive t k =
      (s.work.setTask t { k with worked := true }).jobFault k.ctx 0x1305 9 k.ctx { tile := t, opcode := 0x53 } [] := by
  have hstands : ((s.work.setTask t { k with worked := true }).ctx k.ctx).barrier = some x :=
    (congrArg CtxSt.barrier (s.work_ctx k.ctx)).trans hfirst
  simp only [State.barrierArrive, hstands, if_pos hother]

/-! ## Hangs (R318, R339) -/

theorem exec_hangTimeout (w : HangKind) : exec (.hangTimeout w n) s = execHangTimeout w n s := rfl

variable (hloaded : s.loaded = true)
include hloaded

theorem exec_hangTimeout_wait {b : Nat} (hheld : s.heldWait n.val = some (k, b)) :
    exec (.hangTimeout .wait n) s = .next (s.hang k.ctx 0 b 0 n.val k.opcode) := by
  simp [exec_hangTimeout, execHangTimeout, hloaded, hheld]

theorem exec_hangTimeout_chainSlot {x : FerrySlot} (hheld : s.heldSlot n.val = some (k, x)) :
    exec (.hangTimeout .chainSlot n) s = .next (s.hang k.ctx 1 x.chain x.slot n.val k.opcode) := by
  simp [exec_hangTimeout, execHangTimeout, hloaded, hheld]

theorem exec_hangTimeout_fence (hhead : s.headOf n.val 0x52 = some k) (hruns : k.st = .running) (hheld : s.fenceMet n.val k = false) :
    exec (.hangTimeout .fence n) s = .next (s.hang k.ctx 2 0 0 n.val 0x52) := by
  simp [exec_hangTimeout, execHangTimeout, hloaded, hhead, hruns, hheld]

theorem exec_hangTimeout_barrier (hheld : (s.tile n.val).tasks.find? (fun k => k.opcode == 0x53 && k.st == .handed) = some k) :
    exec (.hangTimeout .barrier n) s = .next (s.hang k.ctx 3 0 0 n.val 0x53) := by
  simp [exec_hangTimeout, execHangTimeout, hloaded, hheld]

theorem exec_hangTimeout_invalidation {i : Inval} (hopen : s.inval = some i) :
    exec (.hangTimeout .invalidation n) s = .next (s.hang i.ctx 4 0 0 0xFFFF 0) := by
  simp [exec_hangTimeout, execHangTimeout, hloaded, hopen]

end

/-! ## The statement -/

/-- Settles O31: the rows of a FENCE and of a BARRIER by what they find, and the hang of each of the five things that hold. -/
theorem synchronisationTasksWaitForTheirCondition : Obligations.SynchronisationTasksWaitForTheirCondition := by
  refine fun s n k => ⟨exec_fence, exec_fenceDone, fun htaken => ⟨exec_barrier htaken, fun x hfirst hother => ?mismatch⟩,
    fun b hloaded => exec_hangTimeout_wait hloaded, fun x hloaded => exec_hangTimeout_chainSlot hloaded,
    exec_hangTimeout_fence, exec_hangTimeout_barrier, fun i hloaded => exec_hangTimeout_invalidation hloaded⟩
  case mismatch => rw [exec_barrier htaken, State.barrierArrive_mismatch hfirst hother]

end Sys2Proof.Machine

/-! Ferry chains forward their chunks (R300, R302; O32). -/

namespace Sys2Proof.Machine

/-! ## The members of a chain -/

section
variable {s : State} {chain i : Nat} {d : ChainDef} {m : ChainMember}

theorem State.members_length (hchain : s.chainDef chain = some d) : (s.members chain).length = d.tiles.length := by
  simp [State.members, hchain]

/-- A chain's members are the stored ones where as many are stored as it has tiles. -/
theorem State.members_of_stored {ms : List ChainMember} (hchain : s.chainDef chain = some d)
    (hstored : mget? s.chains chain = some ms) (hlength : ms.length = d.tiles.length) : s.members chain = ms := by
  refine List.ext_getElem ((State.members_length hchain).trans hlength.symm) fun j hj hms => ?_
  simp [State.members, hchain, mgetD, hstored, hms]

theorem State.setMember_members (hchain : s.chainDef chain = some d) :
    (s.setMember chain i m).members chain = (s.members chain).set i m :=
  State.members_of_stored (s := s.setMember chain i m) hchain (mget?_mset _ _ _) (by simp [State.members_length hchain])

/-- The member that is set reads back. -/
theorem State.setMember_member (hchain : s.chainDef chain = some d) (hi : i < d.tiles.length) :
    (s.setMember chain i m).member chain i = m := by
  simp [State.member, State.setMember_members hchain, State.members_length hchain, hi]

theorem State.setMember_member_ne {j : Nat} (hchain : s.chainDef chain = some d) (hj : j ≠ i) :
    (s.setMember chain i m).member chain j = s.member chain j := by
  simp [State.member, State.setMember_members hchain, List.getElem?_set_ne hj.symm]

end

/-! ## A forward (R302) -/

/-! What the move of a chunk's bytes leaves of the rest. -/

theorem State.moveBytes_tiles (s : State) (src dst n : Nat) : (s.moveBytes src dst n).tiles = s.tiles := rfl
theorem State.moveBytes_dict (s : State) (src dst n : Nat) : (s.moveBytes src dst n).dict = s.dict := rfl
theorem State.moveBytes_member (s : State) (src dst n chain i : Nat) : (s.moveBytes src dst n).member chain i = s.member chain i := rfl
theorem State.moveBytes_chainDef (s : State) (src dst n chain : Nat) : (s.moveBytes src dst n).chainDef chain = s.chainDef chain := rfl

section
variable {s : State} {chain member : Nat} {d : ChainDef} (hchain : s.chainDef chain = some d)
include hchain

/-- The next chunk of a member that waits to leave it starts if the slot downstream is free, and else stays. -/
theorem exec_ferryForward (hoperating : s.operating = true) (hloaded : s.loaded = true)
    (hstill : (s.member chain member).moving = false) (hnext : member + 1 < d.tiles.length)
    (hwaits : (s.member chain member).forwarded < (s.member chain member).loaded) :
    exec (.ferryForward chain member) s = .next
      (if s.slotFree chain (member + 1) (s.member chain member).forwarded then
        s.setMember chain member { s.member chain member with moving := true } else s) := by
  have hrow : exec (.ferryForward chain member) s = execFerryForward chain member s := rfl
  cases hfree : s.slotFree chain (member + 1) (s.member chain member).forwarded <;>
    simp [hrow, execFerryForward, hchain, hoperating, hloaded, hstill, hnext, hwaits, hfree]

/-- A member that a chunk has left. -/
def ChainMember.left (m : ChainMember) : ChainMember := { m with forwarded := m.forwarded + 1, moving := false }

/-- A member at which one chunk more is loaded. -/
def ChainMember.loadedOne (m : ChainMember) : ChainMember := { m with loaded := m.loaded + 1 }

/-- The books of a forward: the chunk has left its member, and is loaded at the next. -/
def State.chunkBooked (s : State) (chain member : Nat) : State :=
  let u := s.setMember chain member (s.member chain member).left
  u.setMember chain (member + 1) (u.member chain (member + 1)).loadedOne

/-- The chunk that has left its member is no longer on its way. -/
theorem State.chunkBooked_member (hi : member < d.tiles.length) :
    (s.chunkBooked chain member).member chain member = (s.member chain member).left := by
  unfold State.chunkBooked
  extract_lets u
  have hsame : u.chainDef chain = some d := hchain
  rw [State.setMember_member_ne hsame (Nat.ne_of_lt (Nat.lt_succ_self member)), State.setMember_member hchain hi]

/-- The next member has one chunk more. -/
theorem State.chunkBooked_next (hnext : member + 1 < d.tiles.length) :
    (s.chunkBooked chain member).member chain (member + 1) = (s.member chain (member + 1)).loadedOne := by
  unfold State.chunkBooked
  extract_lets u
  have hsame : u.chainDef chain = some d := hchain
  rw [State.setMember_member hsame hnext, State.setMember_member_ne hchain (Nat.succ_ne_self member)]

/-- A chunk of a chain copied from its slot on tile a to its slot on tile b (R300). -/
def State.chunkMoved (s : State) (chain a b slot : Nat) : State :=
  s.moveBytes (s.slotAddr a chain slot) (s.slotAddr b chain slot) ferryBytes

/-- The forward of a chunk from tile a to tile b copies its slot, and books the chunk at the next member. -/
theorem exec_ferryForwardDone {a b : Nat} (ha : d.tiles[member]? = some a) (hb : d.tiles[member + 1]? = some b)
    (hmoves : (s.member chain member).moving = true) :
    exec (.ferryForwardDone chain member) s = .next
      ((s.chunkMoved chain a b ((s.member chain member).forwarded % max 1 d.credits)).chunkBooked chain member) := by
  have hrow : exec (.ferryForwardDone chain member) s = execFerryForwardDone chain member s := rfl
  rw [hrow, State.chunkBooked, State.chunkMoved, State.moveBytes_member]
  simp only [execFerryForwardDone, hchain, ha, hb, hmoves, ChainMember.left, ChainMember.loadedOne, Bool.not_true, Bool.false_eq_true,
    if_false]

end

/-! What the books of a forward leave of the rest. -/

theorem State.chunkBooked_mem (s : State) (chain i : Nat) : (s.chunkBooked chain i).mem = s.mem := rfl
theorem State.chunkBooked_tiles (s : State) (chain i : Nat) : (s.chunkBooked chain i).tiles = s.tiles := rfl
theorem State.chunkBooked_dict (s : State) (chain i : Nat) : (s.chunkBooked chain i).dict = s.dict := rfl

/-! ## The statement -/

/-- Settles O32: the start of a forward by whether the slot downstream is free, and its end by the bytes moved and the books made. -/
theorem ferryForwardsChunksInOrder : Obligations.FerryForwardsChunksInOrder := by
  intro s chain member a b d hchain ha hb hnext m
  refine ⟨fun hoperating hloaded hstill hwaits => ?starts, fun hmoves => ?ends⟩
  case starts =>
    rw [exec_ferryForward hchain hoperating hloaded hstill hnext hwaits]
    exact ⟨fun hfree => congrArg _ (if_pos hfree), fun hheld => congrArg _ (if_neg (Bool.eq_false_iff.mp hheld))⟩
  case ends =>
    have hsame (slot : Nat) : (s.chunkMoved chain a b slot).chainDef chain = some d := (s.moveBytes_chainDef ..).trans hchain
    refine ⟨_, exec_ferryForwardDone hchain ha hb hmoves, State.chunkBooked_mem .., ?left, ?loaded,
      (State.chunkBooked_tiles ..).trans (s.moveBytes_tiles ..), (State.chunkBooked_dict ..).trans (s.moveBytes_dict ..)⟩
    case left =>
      rw [State.chunkBooked_member (hsame _) (Nat.lt_of_succ_lt hnext), State.chunkMoved, State.moveBytes_member, ChainMember.left]
    case loaded =>
      rw [State.chunkBooked_next (hsame _) hnext, State.chunkMoved, State.moveBytes_member, ChainMember.loadedOne]

end Sys2Proof.Machine

/-! Steps of the queue keep memory canonical (R72, R326; O4, O5). -/

namespace Sys2Proof.Machine

/-! ## A step by its queue -/

theorem step_of_empty {s : State} (hqueue : s.pending = []) : step s = .next s.idle := by
  unfold step; rw [hqueue]

theorem step_of_front {s : State} {c : Instr} {rest : List Instr} (hqueue : s.pending = c :: rest) :
    step s = exec c { s with pending := rest } := by
  unfold step; rw [hqueue]

/-! ## What the state that a command's effect is measured from shares with the state itself (R72) -/

theorem State.before_pending (s : State) (c : Instr) : (s.before c).pending = s.pending := by unfold State.before; split <;> rfl
theorem State.before_draws (s : State) (c : Instr) : (s.before c).draws = s.draws := by unfold State.before; split <;> rfl
theorem State.before_out (s : State) (c : Instr) : (s.before c).out = s.out := by unfold State.before; split <;> rfl
theorem State.before_mem (s : State) (c : Instr) : (s.before c).mem = s.mem := by unfold State.before; split <;> rfl

theorem State.before_canonical {s : State} (c : Instr) (hcanonical : s.Canonical) : (s.before c).Canonical :=
  (congrArg (Memory.wf · = true) (s.before_mem c)).mpr hcanonical

/-! ## The statements -/

/-- Settles O4: an idle step by what the timer's advance keeps, and a step with a command by what every command keeps (O3). -/
theorem everyStepKeepsMemoryCanonical : Obligations.EveryStepKeepsMemoryCanonical := by
  intro s
  cases hqueue : s.pending with
  | nil =>
    obtain ⟨hpending, hcells, hdraws, hseq, hsent⟩ := State.idle_keeps (keeps_refl s)
    exact ⟨s.idle, step_of_empty hqueue, hcells, hpending.trans hqueue, hdraws, fun _ => hseq, hsent⟩
  | cons c rest =>
    let u : State := { s with pending := rest }
    obtain ⟨t, hstep, hpending, hcells, hdraws, hseq, hsent⟩ := everyCommandCompletesAndKeeps c u
    refine ⟨t, (step_of_front hqueue).trans hstep, fun hcanonical => hcells (State.before_canonical (s := u) c hcanonical),
      hpending.trans (u.before_pending c), (u.before_draws c).ge.trans hdraws, fun hother => ?numbers, u.before_out c ▸ hsent⟩
    case numbers =>
      have hc : c ≠ .powerOn := fun h => hother (congrArg some h)
      rw [u.before_other hc] at hseq
      exact hseq

/-- Settles O5: at reset no byte of memory is listed. -/
theorem resetMemoryIsCanonical : Obligations.ResetMemoryIsCanonical := rfl

end Sys2Proof.Machine

/-! Memory reads back what was written, and what was written is no longer poisoned (R326, R350; O39). That poison is kept per byte, so that
a write clears it of just the bytes that it covers, is the model's reading (log 50). -/

namespace Sys2Proof.Machine

/-! ## A table of which only some keys are kept -/

theorem mget?_mfilter {α : Type} (p : Nat → Bool) (m : AMap α) (k : Nat) :
    mget? (mfilter p m) k = if p k then mget? m k else none := by
  induction m with
  | nil => simp [mfilter, mget?]
  | cons e r ih =>
    obtain ⟨j, w⟩ := e
    unfold mfilter at ih ⊢
    by_cases hj : j = k
    · subst hj
      cases hp : p j <;> simp [mget?, hp, ih]
    · cases hp : p j <;> simp [mget?, hp, ih, hj]

/-! ## Cells -/

/-- An address below every listed one reads 0. -/
theorem cellGet_of_cellsAbove {m : List Host.Cell} {a : Nat} (hw : Memory.wf m = true) (ha : cellsAbove a m) : cellGet m a = 0 := by
  induction m with
  | nil => rfl
  | cons e r ih =>
    obtain ⟨j, w⟩ := e
    have haj : a < j := ha
    obtain ⟨-, hj, hr⟩ := wf_cons.1 hw
    have har : cellsAbove a r := by
      cases r with
      | nil => trivial
      | cons d r => exact Nat.lt_trans haj hj
    simp [cellGet, Nat.ne_of_gt haj, ih hr har]

/-- A byte written reads as it was written; for the byte 0, which is not listed, this needs the canonical form. -/
theorem cellGet_cellSet {m : List Host.Cell} (hw : Memory.wf m = true) (a : Nat) (v : Byte) : cellGet (cellSet m a v) a = v := by
  induction m with
  | nil =>
    simp only [cellSet]
    split
    · next hv => rw [hv]; rfl
    · simp [cellGet]
  | cons e r ih =>
    obtain ⟨j, w⟩ := e
    obtain ⟨-, hj, hr⟩ := wf_cons.1 hw
    simp only [cellSet]
    split
    · next hlt =>
      split
      · next hv => rw [hv]; exact cellGet_of_cellsAbove hw hlt
      · simp [cellGet]
    · split
      · next heq =>
        subst heq
        split
        · next hv => rw [hv]; exact cellGet_of_cellsAbove hr hj
        · simp [cellGet]
      · next hne => simp [cellGet, hne, ih hr]

theorem cellGet_cellsSet {m : List Host.Cell} (hw : Memory.wf m = true) (a : Nat) (bs : List Byte) (i : Nat) (h : i < bs.length) :
    cellGet (cellsSet m a bs) (a + i) = bs[i] := by
  induction bs generalizing m a i with
  | nil => exact absurd h (Nat.not_lt_zero i)
  | cons b r ih =>
    cases i with
    | zero => exact (cellGet_cellsSet_outside _ r (Or.inl (Nat.lt_succ_self a))).trans (cellGet_cellSet hw a b)
    | succ i =>
      rw [← Nat.succ_add_eq_add_succ]
      exact ih (cellSet_wf hw a b) (a + 1) i (Nat.lt_of_succ_lt_succ h)

/-! ## Bytes of the state -/

section
variable {s : State} (a : Nat) (bs : List Byte)

theorem State.byteAt_writeAt (hcanonical : s.Canonical) (i : Nat) (h : i < bs.length) : (s.writeAt a bs).byteAt (a + i) = bs[i] :=
  cellGet_cellsSet hcanonical a bs i h

theorem State.writeAt_canonical (hcanonical : s.Canonical) : (s.writeAt a bs).Canonical := cellsSet_wf hcanonical a bs

/-- Bytes that read one by one as those of a string read together as the string. -/
theorem State.bytesAt_of_byteAt (hbytes : ∀ (i : Nat) (h : i < bs.length), s.byteAt (a + i) = bs[i]) : s.bytesAt a bs.length = bs := by
  induction bs generalizing a with
  | nil => rfl
  | cons b r ih =>
    have hfirst : s.byteAt a = b := hbytes 0 (Nat.succ_pos _)
    have hrest : s.bytesAt (a + 1) r.length = r := by
      refine ih (a + 1) fun i h => ?_
      rw [Nat.succ_add_eq_add_succ]
      exact hbytes (i + 1) (Nat.succ_lt_succ h)
    rw [List.length_cons, State.bytesAt, hfirst, hrest]

/-- A write takes the poison of the bytes that it covers, and of no others (R350). -/
theorem State.writeAt_poison_eq (s : State) :
    (s.writeAt a bs).poison = mfilter (fun b => decide (b < a ∨ a + bs.length ≤ b)) s.poison := rfl

end

/-! ## The statement -/

/-- Settles O39: bytes by the cells that a write sets, and poison by the keys that it keeps. -/
theorem writtenBytesReadBackUnpoisoned : Obligations.WrittenBytesReadBackUnpoisoned := by
  refine ⟨fun s a bs hcanonical => ?bytes, fun s a bs b => ?poison⟩
  case bytes =>
    have hbytes := State.byteAt_writeAt a bs hcanonical
    exact ⟨hbytes, fun b houtside => s.byteAt_writeAt_outside bs houtside, State.bytesAt_of_byteAt a bs hbytes,
      State.writeAt_canonical a bs hcanonical⟩
  case poison =>
    rw [State.writeAt_poison_eq, mget?_mfilter]
    exact ⟨fun hlow hhigh => if_neg (by simp; omega), fun houtside => if_pos (decide_eq_true houtside)⟩

end Sys2Proof.Machine

/-! The end of a TLB walk and of an invalidation (R336, R338 to R340; O40). -/

namespace Sys2Proof.Machine

section
variable {s : State} {n : TileId} {c : CtxId} (va : Nat) (write : Bool)

/-- An address that the TLB covers needs no walk. -/
theorem exec_tlbWalkDone_covered (hcovered : (s.tlb n.val).any (fun e => e.covers (va % 2 ^ 48)) = true) :
    exec (.tlbWalkDone n c va write) s = .next s :=
  congrArg Host.Outcome.next (if_pos (Or.inr (Or.inr hcovered)))

section
variable {va write} (hctx : s.tileCtx n.val = some c.val) (hoperating : s.operating = true)
  (hneeded : (s.tlb n.val).any (fun e => e.covers (va % 2 ^ 48)) = false)
include hctx hoperating hneeded

theorem tlbWalkDone_needed :
    ¬(s.tileCtx n.val ≠ some c.val ∨ (!s.operating) = true ∨ (s.tlb n.val).any (fun e => e.covers (va % 2 ^ 48)) = true) := by
  rw [hneeded, hctx, hoperating]
  simp

/-- The state that a translation answers holds its leaf in the TLB. -/
theorem exec_tlbWalkDone_leaf {pa : Nat} {u : State}
    (hleaf : s.translate (some n.val) c.val (va % 2 ^ 48) (if write then .write else .read) = .ok (pa, u)) :
    exec (.tlbWalkDone n c va write) s = .next u := by
  refine congrArg Host.Outcome.next ((if_neg (tlbWalkDone_needed hctx hoperating hneeded)).trans ?_)
  rw [hleaf]

theorem exec_tlbWalkDone_fault {f : AccFault}
    (hfault : s.translate (some n.val) c.val (va % 2 ^ 48) (if write then .write else .read) = .error f) :
    exec (.tlbWalkDone n c va write) s = .next (s.walkStruck n.val c.val (va % 2 ^ 48) f) := by
  refine congrArg Host.Outcome.next ((if_neg (tlbWalkDone_needed hctx hoperating hneeded)).trans ?_)
  rw [hfault]

end

variable {i : Inval} (hopen : s.inval = some i)
include hopen

theorem exec_tlbInvalidateDone_free (hfree : s.rangeBusy i.ctx i.va i.bytes = false) :
    exec .tlbInvalidateDone s = .next (({ s with inval := none }.dropEntries i.ctx i.va i.bytes).put 0x3001 5 2) := by
  have hrow : exec .tlbInvalidateDone s = execTlbInvalidateDone s := rfl
  simp [hrow, execTlbInvalidateDone, hopen, hfree]

/-- What is in use in the range holds the invalidation. -/
theorem exec_tlbInvalidateDone_busy (hbusy : s.rangeBusy i.ctx i.va i.bytes = true) : exec .tlbInvalidateDone s = .next s := by
  have hrow : exec .tlbInvalidateDone s = execTlbInvalidateDone s := rfl
  simp [hrow, execTlbInvalidateDone, hopen, hbusy]

end

/-! ## The statement -/

/-- Settles O40: a walk by whether it is needed and how it ends, and an invalidation by whether its range is in use. -/
theorem tlbWalksAndInvalidationsEnd : Obligations.TlbWalksAndInvalidationsEnd := by
  intro s n c va write hctx hoperating
  refine ⟨fun hneeded => ⟨fun pa u => exec_tlbWalkDone_leaf hctx hoperating hneeded,
      fun f => exec_tlbWalkDone_fault hctx hoperating hneeded⟩,
    exec_tlbWalkDone_covered va write, fun i hopen => ⟨fun hfree => ?free, exec_tlbInvalidateDone_busy hopen⟩⟩
  case free => exact ⟨_, exec_tlbInvalidateDone_free hopen hfree, State.get_put _ _ _ _, rfl, rfl⟩

end Sys2Proof.Machine

/-! Errors of data: parity, mesh flits, DRAM and host poison (R349, R350, R355, R453; O41). The context that an error is a fault of is the
model's reading (log 36), and so is the line of 64 bytes that is poisoned (log 50). -/

namespace Sys2Proof.Machine

open Sys2Proof.Claims

/-! ## What the log of a mismatch and a poisoned line leave of the rest -/

section
variable (s : State) (code severity kind id n : Nat)

theorem State.logMismatch_mem : (s.logMismatch code severity kind id n).mem = s.mem :=
  iter_field State.mem _ (fun _ u => u.logEv_mem _) n s
theorem State.logMismatch_poison : (s.logMismatch code severity kind id n).poison = s.poison :=
  iter_field State.poison _ (fun _ u => u.logEv_poison _) n s
theorem State.logMismatch_tiles : (s.logMismatch code severity kind id n).tiles = s.tiles :=
  iter_field State.tiles _ (fun _ u => u.logEv_tiles _) n s

/-- The log of a mismatch is no error counter of the memory (R355). -/
theorem State.logMismatch_get {sub : Nat} (hsub : sub < 256) :
    (s.logMismatch code severity kind id n).get 0x3020 sub = s.get 0x3020 sub :=
  iter_get n _ 0x3020 sub (fun _ _ _ => State.get_logEv _ _ (by decide) (by decide) hsub) s

theorem State.logMismatch_newest (hlogged : 0 < n) : newest (s.logMismatch code severity kind id n) code severity := by
  obtain ⟨n, rfl⟩ := Nat.exists_eq_succ_of_ne_zero (Nat.ne_of_gt hlogged)
  obtain ⟨e, hlast, -, -, hcode, hseverity, -⟩ :=
    (s.logMismatch code severity kind id n).logEv_newest { code := code, severity := severity, kind := kind, id := id }
  exact ⟨e, hlast, hcode, hseverity⟩

end

/-- The decay to the present changes the lighthouse alone. -/
theorem State.riskDecay_lh (s : State) : ∃ x, s.riskDecay = { s with lh := x } := by
  unfold State.riskDecay
  exact ⟨_, rfl⟩

/-- A weight added to the risk changes the lighthouse alone. -/
theorem State.riskAddE_lh (s : State) (w : Nat) : ∃ x, s.riskAddE w = { s with lh := x } := by
  obtain ⟨x, hdecayed⟩ := s.riskDecay_lh
  unfold State.riskAddE
  rw [hdecayed]
  exact ⟨_, rfl⟩

/-! ## An error that is counted and logged -/

/-- In t there are n errors more in a counter of 0x3020 than in s, an event of them is the newest, and `poison` lists what is poisoned;
memory and tiles stay. -/
structure State.Notes (s t : State) (sub n code severity : Nat) (poison : AMap Nat) : Prop where
  counted : t.get 0x3020 sub = satAdd 64 (s.get 0x3020 sub) n
  event : newest t code severity
  poison : t.poison = poison
  mem : t.mem = s.mem
  tiles : t.tiles = s.tiles

/-- Errors counted in 0x3020, and mismatches logged. -/
def State.noted (s : State) (sub n code severity kind id logged : Nat) : State :=
  (s.count 0x3020 sub 64 n).logMismatch code severity kind id logged

theorem State.noted_notes (s : State) {sub : Nat} (n code severity kind id : Nat) {logged : Nat} (hsub : sub < 256) (hlogged : 0 < logged) :
    s.Notes (s.noted sub n code severity kind id logged) sub n code severity s.poison where
  counted := (State.logMismatch_get _ _ _ _ _ _ hsub).trans (s.get_count _ _ _ _)
  event := State.logMismatch_newest _ _ _ _ _ _ hlogged
  poison := State.logMismatch_poison ..
  mem := State.logMismatch_mem ..
  tiles := State.logMismatch_tiles ..

/-- A line poisoned changes nothing else, and is the same line whatever was counted and logged before it. -/
theorem State.Notes.poisonLine {s t : State} {sub n code severity : Nat} (h : s.Notes t sub n code severity s.poison) (pa c : Nat) :
    s.Notes (t.poisonLine pa c) sub n code severity (s.poisonLine pa c).poison := by
  obtain ⟨x, hline⟩ : ∃ x, t.poisonLine pa c = { t with poison := x } := ⟨_, rfl⟩
  have hsame : (t.poisonLine pa c).poison = (s.poisonLine pa c).poison := by simp only [State.poisonLine, State.poisonAt, h.poison]
  rw [hline] at hsame ⊢
  exact ⟨h.counted, h.event, hsame, h.mem, h.tiles⟩

/-! ## The rows -/

section
variable {s : State} {n : TileId} {offset pa : Nat} (hoperating : s.operating = true)
include hoperating

theorem sramParityError_served (hoffset : offset < 16777216) : ¬((!s.operating) = true ∨ 16777216 ≤ offset) := by
  simp [hoperating, hoffset]

/-- A parity error of a read by the running task aborts the task. -/
theorem exec_sramParityError_task {k : Task} (hoffset : offset < 16777216) (hstruck : s.struckTask n.val = some k) :
    exec (.sramParityError n offset .task) s = .next ((s.count 0x3020 5 64 1).stopTask n.val k (.dataErr 0x7001 2 [n.val])) := by
  refine congrArg Host.Outcome.next ((if_neg (sramParityError_served hoperating hoffset)).trans ?_)
  rw [hstruck]

theorem exec_sramParityError_once (hoffset : offset < 16777216) :
    exec (.sramParityError n offset (.other false)) s = .next (s.noted 5 1 0x7001 warning 2 n.val 1) :=
  congrArg Host.Outcome.next (if_neg (sramParityError_served hoperating hoffset))

/-- A second mismatch of the same read poisons the line. -/
theorem exec_sramParityError_twice (hoffset : offset < 16777216) : exec (.sramParityError n offset (.other true)) s =
    .next ((s.noted 5 2 0x7001 warning 2 n.val 2).poisonLine (tileAddr n.val offset) 0x7001) :=
  congrArg Host.Outcome.next (if_neg (sramParityError_served hoperating hoffset))

section
variable {bad : Nat} (hplan : s.plan.isSome = true) (htile : s.tileState n.val ≠ 2)
include hplan htile

theorem exec_meshFlitError (hbad : 0 < bad) : exec (.meshFlitError n pa bad) s = .next
    (if 4 < bad then (s.noted 6 (min 4 bad) 0x7004 warning 2 n.val (min 5 bad)).poisonLine pa 0x7004
      else s.noted 6 (min 4 bad) 0x7004 warning 2 n.val (min 5 bad)) :=
  congrArg Host.Outcome.next (if_neg (by simp [hoperating, hplan, htile, Nat.ne_of_gt hbad]))

/-- A flit is retried up to four times. -/
theorem exec_meshFlitError_retried (hbad : 0 < bad) (hfour : bad ≤ 4) :
    exec (.meshFlitError n pa bad) s = .next (s.noted 6 (min 4 bad) 0x7004 warning 2 n.val (min 5 bad)) := by
  rw [exec_meshFlitError hoperating hplan htile hbad, if_neg (Nat.not_lt.mpr hfour)]

/-- A fifth mismatch poisons the line. -/
theorem exec_meshFlitError_poisoned (hfive : 4 < bad) : exec (.meshFlitError n pa bad) s =
    .next ((s.noted 6 (min 4 bad) 0x7004 warning 2 n.val (min 5 bad)).poisonLine pa 0x7004) := by
  rw [exec_meshFlitError hoperating hplan htile (Nat.zero_lt_of_lt hfive), if_pos hfive]

end

section
variable (hdram : pa < sramBase)
include hdram

theorem dramReadError_served : ¬((!s.operating) = true ∨ sramBase ≤ pa) := by
  rw [hoperating]
  simpa using hdram

theorem exec_dramReadError_corrected :
    exec (.dramReadError pa .corrected) s = .next ((s.count 0x3020 7 64 1).riskAddE (s.get 0x9500 10)) :=
  congrArg Host.Outcome.next (if_neg (dramReadError_served hoperating hdram))

theorem exec_dramReadError_parity : exec (.dramReadError pa .parity) s =
    .next ((s.noted 8 1 0x7002 warning 5 (channelOf pa) 1).poisonLine pa 0x7002) :=
  congrArg Host.Outcome.next (if_neg (dramReadError_served hoperating hdram))

theorem exec_dramReadError_uncorrectable : exec (.dramReadError pa .uncorrectable) s =
    .next ((s.noted 9 1 0x7003 jobFault 5 (channelOf pa) 1).poisonLine pa 0x7003) :=
  congrArg Host.Outcome.next (if_neg (dramReadError_served hoperating hdram))

end

/-! Poison that arrives over a host window. -/

section
variable {p : HostPort} {c : Nat} (hlink : s.linkUp p.val = true) (hlow : hostWindowBase p.val ≤ pa)
  (hhigh : pa < hostWindowBase p.val + hostWindowBytes) (hctx : s.tileCtx n.val = some c)

include hlink hlow hhigh in
theorem hostPoisonReceived_served : ¬((!s.operating) = true ∨ (!s.linkUp p.val) = true ∨ pa < hostWindowBase p.val
    ∨ hostWindowBase p.val + hostWindowBytes ≤ pa) := by
  rw [hoperating, hlink]
  simpa using ⟨hlow, hhigh⟩

include hlink hlow hhigh hctx

/-- It aborts the task that it strikes. -/
theorem exec_hostPoisonReceived_struck {k : Task} (hstruck : (s.count 0x3020 9 64 1).struckTask n.val = some k) :
    exec (.hostPoisonReceived p pa n) s = .next ((s.count 0x3020 9 64 1).stopTask n.val k (.job 0x7003 7 p.val [])) := by
  refine congrArg Host.Outcome.next ((if_neg (hostPoisonReceived_served hoperating hlink hlow hhigh)).trans ?_)
  simp only [hctx, hstruck]

/-- Where it strikes no task, it is a fault of the tile's context. -/
theorem exec_hostPoisonReceived_idle (hnone : (s.count 0x3020 9 64 1).struckTask n.val = none) : exec (.hostPoisonReceived p pa n) s =
    .next ((s.count 0x3020 9 64 1).jobFault c 0x7003 7 p.val { tile := n.val, noTask := true } []) := by
  refine congrArg Host.Outcome.next ((if_neg (hostPoisonReceived_served hoperating hlink hlow hhigh)).trans ?_)
  simp only [hctx, hnone]

end

end

/-! ## The statement -/

/-- Settles O41: each row by what it counts, logs and poisons, and the poison of a host by whether it strikes a task. -/
theorem dataErrorsAreCountedAndPoison : Obligations.DataErrorsAreCountedAndPoison := by
  intro s n offset pa hoperating
  refine ⟨fun hoffset => ⟨fun k => exec_sramParityError_task hoperating hoffset, ?once, ?twice⟩, fun bad hplan htile hbad => ?mesh,
    fun hdram => ⟨?corrected, ?parity, ?uncorrectable⟩, fun p c hlink hlow hhigh hctx =>
      ⟨fun k => exec_hostPoisonReceived_struck hoperating hlink hlow hhigh hctx,
        exec_hostPoisonReceived_idle hoperating hlink hlow hhigh hctx⟩⟩
  case once =>
    have h := s.noted_notes (sub := 5) 1 0x7001 warning 2 n.val (by decide) Nat.one_pos
    exact ⟨_, exec_sramParityError_once hoperating hoffset, h.counted, h.event, h.poison, h.mem, h.tiles⟩
  case twice =>
    have h := (s.noted_notes (sub := 5) 2 0x7001 warning 2 n.val (by decide) Nat.two_pos).poisonLine (tileAddr n.val offset) 0x7001
    exact ⟨_, exec_sramParityError_twice hoperating hoffset, h.counted, h.event, h.poison, h.mem, h.tiles⟩
  case mesh =>
    have h := s.noted_notes (sub := 6) (logged := min 5 bad) (min 4 bad) 0x7004 warning 2 n.val (by decide) (by omega)
    rcases Nat.lt_or_ge 4 bad with hfive | hfour
    · have h := h.poisonLine pa 0x7004
      exact ⟨_, exec_meshFlitError_poisoned hoperating hplan htile hfive, h.counted, h.event, h.mem, h.tiles,
        fun hfour => absurd hfive (Nat.not_lt.mpr hfour), fun _ => h.poison⟩
    · exact ⟨_, exec_meshFlitError_retried hoperating hplan htile hbad hfour, h.counted, h.event, h.mem, h.tiles,
        fun _ => h.poison, fun hfive => absurd hfive (Nat.not_lt.mpr hfour)⟩
  case corrected =>
    obtain ⟨x, hrisk⟩ := (s.count 0x3020 7 64 1).riskAddE_lh (s.get 0x9500 10)
    refine ⟨_, exec_dramReadError_corrected hoperating hdram, ?_⟩
    rw [hrisk]
    exact ⟨s.get_count _ _ _ _, rfl, rfl, rfl⟩
  case parity =>
    have h := (s.noted_notes (sub := 8) 1 0x7002 warning 5 (channelOf pa) (by decide) Nat.one_pos).poisonLine pa 0x7002
    exact ⟨_, exec_dramReadError_parity hoperating hdram, h.counted, h.event, h.poison, h.mem⟩
  case uncorrectable =>
    have h := (s.noted_notes (sub := 9) 1 0x7003 jobFault 5 (channelOf pa) (by decide) Nat.one_pos).poisonLine pa 0x7003
    exact ⟨_, exec_dramReadError_uncorrectable hoperating hdram, h.counted, h.event, h.poison, h.mem⟩

end Sys2Proof.Machine

/-! Messages at their package and on their way (R311, R360, R362, R366, R367, R369, R372 to R374, R404; O42, O43). That an unknown transfer is
handed down with F = 0 is the model's reading (log 33), and so are the codes that a NACK keeps (log 34). -/

namespace Sys2Proof.Machine

open Sys2Proof.Claims

/-! ## Where a message arrives (R362, R369) -/

theorem received_ownDom (s : State) (p : HawserPort) (m : Msg) : (received s p m).ownDom = s.ownDom := s.get_count_ne _ _ (by decide)
theorem received_ownPkg (s : State) (p : HawserPort) (m : Msg) : (received s p m).ownPkg = s.ownPkg := s.get_count_ne _ _ (by decide)

theorem arrive_served {s : State} {p : HawserPort} (hawake : s.operating = true ∨ s.power.pst = .nap) (hup : s.linkState p.val = 2) :
    ¬((!(s.operating || s.power.pst == .nap)) = true ∨ s.linkState p.val ≠ 2) := by
  rcases hawake with hruns | hnaps
  · simp [hruns, hup]
  · simp [hnaps, hup]

/-- A message that arrives at its package takes its effect in the state it lands in, and gives its flits back (R362). -/
theorem State.arrive_landed {s : State} {p : HawserPort} {m : Msg} (harrives : arrives s p m) (f : State → State) :
    s.arrive p.val m f = credited p m (f (landed s p m)) := by
  obtain ⟨hawake, hup, hdom, hpkg, hctx⟩ := harrives
  have hhere : ¬(m.dstDom ≠ (received s p m).ownDom ∨ m.dstPkg ≠ (received s p m).ownPkg) := by
    simp [received_ownDom, received_ownPkg, hdom, hpkg]
  exact (if_neg (arrive_served hawake hup)).trans ((if_neg hhere).trans (if_neg (Nat.not_le.mpr hctx)))

/-- A message for another package goes in transit, whatever its effect would be (R369). -/
theorem State.arrive_passing {s : State} {p : HawserPort} {m : Msg} (hawake : s.operating = true ∨ s.power.pst = .nap)
    (hup : s.linkState p.val = 2) (hother : ¬(s.ownDom = m.dstDom ∧ s.ownPkg = m.dstPkg)) (f : State → State) :
    s.arrive p.val m f = (received s p m).transit p.val m := by
  have hpasses : m.dstDom ≠ (received s p m).ownDom ∨ m.dstPkg ≠ (received s p m).ownPkg := by
    rw [received_ownDom, received_ownPkg, ← not_and_or]
    exact fun ⟨hdom, hpkg⟩ => hother ⟨hdom.symm, hpkg.symm⟩
  exact (if_neg (arrive_served hawake hup)).trans (if_pos hpasses)

/-- A row that is an arrival answers what its effect makes of the state that the message lands in. -/
theorem exec_arrival {c : Instr} {s : State} {p : HawserPort} {m : Msg} {f : State → State} (hrow : exec c s = .next (s.arrive p.val m f))
    (harrives : arrives s p m) {t : State} (heffect : f (landed s p m) = t) : exec c s = .next (credited p m t) := by
  rw [hrow, State.arrive_landed harrives, heffect]

/-- Every message whose effect is one shared operation is an arrival with that effect. -/
theorem exec_landRow {c : Instr} {p : HawserPort} {m : Msg} {f : State → State} (hrow : landRow c = some (p, m, f)) (s : State) :
    exec c s = .next (s.arrive p.val m f) := by
  unfold landRow at hrow
  split at hrow <;> cases hrow <;> rfl

/-! ## Data and signals that land (R311, R367) -/

section
variable {s : State} {m : Msg}

theorem State.landPut_written {rs : List (Nat × Nat)} {v : State} (hwrite : s.writeNow none m.ctx m.dstAddr m.payload = .ok (rs, v)) :
    s.landPut m = (if m.last then v.landSignal m.ctx m.bollard m.increment else v).ack m := by
  simp only [State.landPut, State.land, hwrite]

theorem State.landPut_fault {code va lv : Nat} {w : Bool}
    (hwrite : s.writeNow none m.ctx m.dstAddr m.payload = .error (.trans code va lv w)) :
    s.landPut m = (s.transFault m.ctx code { va := va, level := lv, write := w, noTask := true }).nack m code := by
  simp only [State.landPut, State.land, hwrite]

/-- A signal to a bollard in no range is dropped and logged (R311). -/
theorem State.landSignal_unowned {b c inc : Nat} (hinc : inc ≠ 0) (hnone : s.bollardOwner b = none) :
    s.landSignal c b inc = s.logEv (s.ctxEv c 0x1308 warning 9 c) := by
  simp only [State.landSignal, if_neg hinc, hnone]

theorem landRow_put {c : Instr} {p : HawserPort} (hput : c = .msgPut p m ∨ c = .msgDispatch p m ∨ c = .msgCombine p m) :
    landRow c = some (p, m, fun s => s.landPut m) := by
  rcases hput with rfl | rfl | rfl <;> rfl

end

/-- Settles O42: every row is an arrival; data lands by the answer of its write, a signal by the owner of its bollard. -/
theorem messagesTakeEffectOrGoInTransit : Obligations.MessagesTakeEffectOrGoInTransit := by
  refine ⟨fun c p m f s hrow harrives => exec_arrival (exec_landRow hrow s) harrives rfl, fun c p m s hput harrives => ⟨?written, ?fault⟩,
    fun p m s harrives hinc hnone => ?signal, fun s p m hawake hup hother => ?transit⟩
  case written => exact fun _ _ hwrite => exec_arrival (exec_landRow (landRow_put hput) s) harrives (State.landPut_written hwrite)
  case fault => exact fun _ _ _ _ hwrite => exec_arrival (exec_landRow (landRow_put hput) s) harrives (State.landPut_fault hwrite)
  case signal => exact exec_arrival rfl harrives (congrArg (State.ack · m) (State.landSignal_unowned hinc hnone))
  case transit => exact congrArg Host.Outcome.next (State.arrive_passing hawake hup hother _)

/-! ## Reads for other packages (R360, R367) -/

section
variable {s : State} {m : Msg} {n : Nat}

theorem State.answerRead_read {bs : List Byte} {v : State} (hread : s.readNow none m.ctx m.srcAddr n = .ok (bs, v)) (last : Bool)
    (bollard inc : Nat) : s.answerRead m n last bollard inc = v.getResp m bs last bollard inc := by
  simp only [State.answerRead, hread]

theorem State.answerRead_fault {code va lv : Nat} {w : Bool} (hread : s.readNow none m.ctx m.srcAddr n = .error (.trans code va lv w))
    (last : Bool) (bollard inc : Nat) : s.answerRead m n last bollard inc =
      (s.transFault m.ctx code { va := va, level := lv, write := w, noTask := true }).nack m code := by
  simp only [State.answerRead, hread]

end

/-! ## A node that is detached (R373) -/

/-- The recovery that a DETACH message starts. -/
def detachRecov (m : Msg) : Recov :=
  ⟨m.convoy, m.transfer, m.ctx, field m.payload 8 8, m.dstAddr, field m.payload 0 8, m.bollard, m.increment, m.step, 0, false⟩

/-- The transfer of a DETACH message as the nodes below are told of it where it is unknown here. -/
def relayBelow (m : Msg) : Relay :=
  ⟨m.transfer, m.convoy, m.ctx, none, field m.payload 8 8, m.dstAddr, 0, m.bollard, m.increment, m.step, false, 0, false, 0, []⟩

/-- A DETACH message is counted and logged. -/
def State.detachNoted (s : State) (m : Msg) : State := (s.count 0x7040 8 64 1).logEv (s.ctxEv m.ctx 0x500B note 9 m.ctx)

/-- A node detaches those of its children in a convoy that it has not yet detached. -/
def State.detachKids (s : State) (convoy : Nat) : State :=
  (s.convoyKids convoy).foldl (fun s k => if (s.edge convoy k).detached then s else s.detachChild convoy k) s

/-- A detached node ends a transfer that it relays, and hands down one that it does not know. -/
def State.handDown (s : State) (m : Msg) (known : Bool) : State :=
  if known then s.dropRelay m.transfer else (s.convoyKids m.convoy).foldl (fun s k => s.sendDetach (relayBelow m) k 0) s

/-- A node begins to fetch for itself. -/
def State.beginRecovery (s : State) (r : Recov) : State :=
  ({ s with fabric := { s.fabric with recovs := s.fabric.recovs ++ [r] } }).fetchMore r

/-! ## The answers, one row after the other -/

section
variable {s : State} {p : HawserPort} {m : Msg} (harrives : arrives s p m)
include harrives

/-- GET_REQ for plain data is a read that is answered. -/
theorem exec_msgGetReq_plain (hplain : m.convoy = 0xFFFF) :
    exec (.msgGetReq p m) s = .next (credited p m ((landed s p m).answerRead m m.plen m.last 0 0)) :=
  exec_arrival rfl harrives (by simp only [if_pos hplain])

section
variable {x : Xfer} (hxfer : (landed s p m).xfer? m.transfer = some x)
include hxfer

section
variable {n id : Nat} {k : Task} (howner : x.owner = .task n id) (htask : ((landed s p m).tile n).tasks.find? (fun k => k.id == id) = some k)
include howner htask

/-- A piece of a task's GET is written, and counted against the transfer. -/
theorem exec_msgGetResp_written {rs : List (Nat × Nat)} {v : State}
    (hwrite : (landed s p m).writeNow (some n) k.ctx m.dstAddr m.payload = .ok (rs, v)) :
    exec (.msgGetResp p m) s = .next (credited p m (if x.left ≤ 1 then (v.dropXfer m.transfer).answered n id m.transfer
      else v.setXfer m.transfer { x with left := x.left - 1 })) :=
  exec_arrival rfl harrives (by simp only [hxfer, howner, htask, hwrite])

/-- A piece of a task's GET that cannot be written stops the task. -/
theorem exec_msgGetResp_fault {f : AccFault} (hwrite : (landed s p m).writeNow (some n) k.ctx m.dstAddr m.payload = .error f) :
    exec (.msgGetResp p m) s =
      .next (credited p m (((landed s p m).dropXfer m.transfer).stopTask n { k with written := [(k.addrD, k.len0)] } f)) :=
  exec_arrival rfl harrives (by simp only [hxfer, howner, htask, hwrite])

end

theorem exec_msgGetResp_recovery {i : Nat} {r : Recov} (howner : x.owner = .recovery i)
    (hrecov : (landed s p m).fabric.recovs.find? (fun r => r.xfer == m.transfer) = some r) :
    exec (.msgGetResp p m) s = .next (credited p m ((landed s p m).recovered r m)) :=
  exec_arrival rfl harrives (by simp only [hxfer, howner, hrecov])

section
variable (hrelay : (landed s p m).relay? m.transfer = none)
include hrelay

theorem exec_msgAck_transfer : exec (.msgAck p m) s = .next (credited p m (if x.left ≤ 1 then (landed s p m).xferDone m.transfer x
    else (landed s p m).setXfer m.transfer { x with left := x.left - 1 })) :=
  exec_arrival rfl harrives (by simp only [hrelay, hxfer])

/-- A task's transfer fails with the code of a data error that the responder found, else with 0x5005 (R367, log 34). -/
theorem exec_msgNack_transfer {n id : Nat} (howner : x.owner = .task n id) :
    exec (.msgNack p m) s = .next (credited p m (((landed s p m).count 0x7040 5 64 1).xferFails m.transfer x
      (if [0x5007, 0x7001, 0x7002, 0x7004].contains (field m.typeData 0 2) then field m.typeData 0 2 else 0x5005))) := by
  have hrelay' : ((landed s p m).count 0x7040 5 64 1).relay? m.transfer = none := hrelay
  have hxfer' : ((landed s p m).count 0x7040 5 64 1).xfer? m.transfer = some x := hxfer
  exact exec_arrival rfl harrives (by simp only [hrelay', hxfer', howner])

end

end

section
variable {r : Relay} (hrelay : (landed s p m).relay? m.transfer = some r)
include hrelay

theorem exec_msgAck_relay : exec (.msgAck p m) s = .next (credited p m ((landed s p m).childAck r m.srcPkg)) :=
  exec_arrival rfl harrives (by simp only [hrelay])

theorem exec_msgNack_relay :
    exec (.msgNack p m) s = .next (credited p m (((landed s p m).count 0x7040 5 64 1).relayFails r 0x5005 m.typeData)) := by
  have hrelay' : ((landed s p m).count 0x7040 5 64 1).relay? m.transfer = some r := hrelay
  exact exec_arrival rfl harrives (by simp only [hrelay'])

end

theorem exec_msgReply_readmits (hrecovered : field m.typeData 0 1 = 0x10)
    (hchild : ((landed s p m).convoyKids m.convoy).contains m.srcPkg = true) :
    exec (.msgReply p m) s = .next (credited p m ((landed s p m).readmit m.convoy m.srcPkg)) :=
  exec_arrival rfl harrives (by simp only [if_pos hrecovered, if_pos hchild])

theorem exec_msgReply_contribution (hcontribution : field m.typeData 0 1 ≠ 0x10) :
    exec (.msgReply p m) s = .next (credited p m ((landed s p m).accReply m)) :=
  exec_arrival rfl harrives (by simp only [if_neg hcontribution])

theorem exec_msgDetach_unknown (hconvoy : (landed s p m).convoyDef m.convoy = none) :
    exec (.msgDetach p m) s = .next (credited p m ((landed s p m).dropMsg p.val)) :=
  exec_arrival rfl harrives (by simp only [hconvoy])

section
variable {d : ConvoyDef} (hconvoy : (landed s p m).convoyDef m.convoy = some d)
include hconvoy

/-- A recovery that has begun is not begun again. -/
theorem exec_msgDetach_repeated (hbegun : (landed s p m).fabric.recovs.any (fun r => r.tid == m.transfer) = true) :
    exec (.msgDetach p m) s = .next (credited p m (landed s p m)) :=
  exec_arrival rfl harrives (by simp only [hconvoy, if_pos hbegun])

/-- The first DETACH of a transfer detaches the children, hands it down where it is unknown, and begins its recovery. -/
theorem exec_msgDetach_first (hfirst : (landed s p m).fabric.recovs.any (fun r => r.tid == m.transfer) = false) :
    exec (.msgDetach p m) s = .next (credited p m
      (((((landed s p m).detachNoted m).detachKids m.convoy).handDown m (((landed s p m).detachNoted m).relay? m.transfer).isSome).beginRecovery
        (detachRecov m))) := by
  have hnew : ¬(landed s p m).fabric.recovs.any (fun r => r.tid == m.transfer) = true := by simp [hfirst]
  exact exec_arrival rfl harrives (by simp only [hconvoy, if_neg hnew]; rfl)

end

end

/-! ## The statement -/

/-- Settles O43: each answer by the transfer, the relay or the convoy that the package has for it. -/
theorem answersCompleteTheirTransfers : Obligations.AnswersCompleteTheirTransfers := by
  intro s p m harrives
  refine ⟨fun hplain => ⟨fun bs v hread => ?read, fun code va lv w hread => ?fault⟩,
    fun x n id k hxfer howner htask => ⟨fun rs v => exec_msgGetResp_written harrives hxfer howner htask,
      fun f => exec_msgGetResp_fault harrives hxfer howner htask⟩,
    fun x i r hxfer => exec_msgGetResp_recovery harrives hxfer,
    fun r hrelay => ⟨exec_msgAck_relay harrives hrelay, exec_msgNack_relay harrives hrelay⟩,
    fun x hrelay hxfer => ⟨exec_msgAck_transfer harrives hxfer hrelay, fun n id => exec_msgNack_transfer harrives hxfer hrelay⟩,
    exec_msgReply_readmits harrives, exec_msgReply_contribution harrives, exec_msgDetach_unknown harrives,
    fun d hconvoy => ⟨exec_msgDetach_repeated harrives hconvoy, exec_msgDetach_first harrives hconvoy⟩⟩
  case read => rw [exec_msgGetReq_plain harrives hplain, State.answerRead_read hread]
  case fault => rw [exec_msgGetReq_plain harrives hplain, State.answerRead_fault hread]

end Sys2Proof.Machine

/-! Links: resends, credits, retrains and training (R359, R361, R362, R371, R372; O44, O45, O46). What a credit return holds is the model's
choice (log 16). -/

namespace Sys2Proof.Machine

open Sys2Proof.Claims

/-! ## The objects of a port (R386) -/

theorem State.newest_logEv (s : State) (e : Ev) : newest (s.logEv e) e.code e.severity := by
  obtain ⟨x, hlast, -, -, hcode, hseverity, -⟩ := s.logEv_newest e
  exact ⟨x, hlast, hcode, hseverity⟩

section
variable {p : Nat} (hp : p < 32)
include hp

theorem portIdx_ne_logCount : portIdx p ≠ 0xA001 := by unfold portIdx; omega
theorem portIdx_ne_classCount : portIdx p ≠ 0xA010 := by unfold portIdx; omega

/-- An event is no object of a port. -/
theorem State.logEv_port (s : State) (e : Ev) {a : Nat} (ha : a < 256) : (s.logEv e).get (portIdx p) a = s.get (portIdx p) a :=
  s.get_logEv e (portIdx_ne_logCount hp) (portIdx_ne_classCount hp) ha

end

theorem key_portIdx_ne {p q a b : Nat} (ha : a < 256) (hb : b < 256) (h : q ≠ p ∨ a ≠ b) : key (portIdx q) a ≠ key (portIdx p) b := by
  rw [Ne, key_eq ha hb]
  unfold portIdx
  omega

@[simp] theorem State.linkState_put (s : State) (p v : Nat) : (s.put (portIdx p) 2 v).linkState p = v := s.get_put _ _ _

/-- The state of a link is its own object. -/
theorem State.linkState_put_ne (s : State) {p q b : Nat} (v : Nat) (hb : b < 256) (h : q ≠ p ∨ 2 ≠ b) :
    (s.put (portIdx p) b v).linkState q = s.linkState q :=
  s.get_put_ne v (key_portIdx_ne (by decide) hb h)

/-- What a port holds is no object of a port. -/
theorem State.port_put (s : State) {p b : Nat} (hp : p < 32) (hb : b < 256) (v q : Nat) : (s.put (portIdx p) b v).port q = s.port q := by
  have hcredits : ∀ vc ∈ List.range 8, (s.put (portIdx p) b v).get 0x7030 (vc + 1) = s.get 0x7030 (vc + 1) := by
    intro vc hvc
    have hvc : vc < 8 := List.mem_range.mp hvc
    exact s.get_put_ne v (by unfold key portIdx; omega)
  unfold State.port
  rw [List.map_congr_left hcredits]
  rfl

/-! ## What retrains a link, and how a retrain ends (R359, R361) -/

section
variable {s : State} {p : HawserPort}

theorem exec_creditTimeout_missing {vc : Nat} (hvc : vc < 8) (hmissing : (s.port p.val).credits.getD vc 0 < s.get 0x7030 (vc + 1)) :
    exec (.creditTimeout p vc) s = .next (s.retrain p.val) :=
  congrArg Host.Outcome.next (if_pos ⟨hvc, hmissing⟩)

theorem exec_creditTimeout_whole {vc : Nat} (hwhole : s.get 0x7030 (vc + 1) ≤ (s.port p.val).credits.getD vc 0) :
    exec (.creditTimeout p vc) s = .next s :=
  congrArg Host.Outcome.next (if_neg fun h => Nat.not_lt.mpr hwhole h.2)

theorem exec_laneBerCheck_high {lane ber : Nat} (hlane : lane < 8) (hhigh : 2400 < ber) :
    exec (.laneBerCheck p lane ber) s = .next (s.retrain p.val) :=
  congrArg Host.Outcome.next (if_pos ⟨hlane, hhigh⟩)

theorem exec_laneBerCheck_low {lane ber : Nat} (hlow : ber ≤ 2400) : exec (.laneBerCheck p lane ber) s = .next s :=
  congrArg Host.Outcome.next (if_neg fun h => Nat.not_lt.mpr hlow h.2)

section
variable (hretrains : s.linkState p.val = 3)
include hretrains

theorem exec_linkRetrainDone : exec (.linkRetrainDone p true) s =
    .next ((if (s.port p.val).tx = (s.port p.val).acked then s.put (portIdx p.val) 2 2
      else (s.put (portIdx p.val) 2 2).emit (.linkResend p.val ((s.port p.val).acked % 4096))).pump p.val) := by
  have hrow : exec (.linkRetrainDone p true) s = execLinkRetrainDone p true s := rfl
  simp only [hrow, execLinkRetrainDone, if_neg (not_not.mpr hretrains), if_true, State.port_put _ p.isLt (by decide : 2 < 256)]

/-- A link that has retrained with nothing unacknowledged goes on. -/
theorem exec_linkRetrainDone_acked (hacked : (s.port p.val).tx = (s.port p.val).acked) :
    exec (.linkRetrainDone p true) s = .next ((s.put (portIdx p.val) 2 2).pump p.val) := by
  rw [exec_linkRetrainDone hretrains, if_pos hacked]

/-- A link that has retrained sends again what is unacknowledged, and goes on. -/
theorem exec_linkRetrainDone_resends (hunacked : (s.port p.val).tx ≠ (s.port p.val).acked) : exec (.linkRetrainDone p true) s =
    .next (((s.put (portIdx p.val) 2 2).emit (.linkResend p.val ((s.port p.val).acked % 4096))).pump p.val) := by
  rw [exec_linkRetrainDone hretrains, if_neg hunacked]

theorem exec_linkRetrainDone_failed : exec (.linkRetrainDone p false) s = .next (s.failLink p.val) :=
  congrArg Host.Outcome.next (if_neg (not_not.mpr hretrains))

end

/-! ## The end of training (R371) -/

/-- The identity that the peer of a port has given. -/
def State.peerNoted (s : State) (p dom pkg port : Nat) : State :=
  (s.put (portIdx p) 3 (dom % 256 * 65536 + port % 256 * 256)).put (portIdx p) 4 (pkg % 65536)

/-- A port that is held down for its peer. -/
def State.portHeld (s : State) (p : Nat) : State := (s.put (portIdx p) 2 5).logEv (portEv 0x5004 warning p)

@[simp] theorem State.peerNoted_mem (s : State) (p dom pkg port : Nat) : (s.peerNoted p dom pkg port).mem = s.mem := rfl

theorem State.peerNoted_linkState (s : State) (p dom pkg port q : Nat) : (s.peerNoted p dom pkg port).linkState q = s.linkState q := by
  unfold State.peerNoted
  rw [State.linkState_put_ne _ _ (by decide) (.inr (by decide)), State.linkState_put_ne _ _ (by decide) (.inr (by decide))]

@[simp] theorem State.portHeld_mem (s : State) (p : Nat) : (s.portHeld p).mem = s.mem := by
  rw [State.portHeld, State.logEv_mem, State.put_mem]

theorem State.portHeld_newest (s : State) (p : Nat) : newest (s.portHeld p) 0x5004 warning := State.newest_logEv _ _

theorem State.portHeld_linkState (s : State) {p : Nat} (hp : p < 32) : (s.portHeld p).linkState p = 5 :=
  (State.logEv_port hp _ _ (by decide)).trans (s.linkState_put p 5)

theorem State.portHeld_linkState_ne (s : State) {p q : Nat} (hq : q < 32) (h : q ≠ p) : (s.portHeld p).linkState q = s.linkState q :=
  (State.logEv_port hq _ _ (by decide)).trans (s.linkState_put_ne 5 (by decide) (.inl h))

section
variable {f : FabricDef} {dom pkg port : Nat} (hplan : s.fabricDef p.val = some f) (htrains : s.linkState p.val = 1)
include hplan htrains

theorem exec_linkTrainingDone : exec (.linkTrainingDone p dom pkg port) s = .next
    (if f.mode = 2 then
      if dom = f.peerDom ∧ pkg = f.peerPkg ∧ port = f.peerPort then ((s.peerNoted p.val dom pkg port).put (portIdx p.val) 2 2).pump p.val
      else (s.peerNoted p.val dom pkg port).portHeld p.val
    else (s.put (portIdx p.val) 2 2).pump p.val) := by
  have hrow : exec (.linkTrainingDone p dom pkg port) s = execLinkTrainingDone p dom pkg port s := rfl
  simp only [hrow, execLinkTrainingDone, hplan, if_neg (not_not.mpr htrains), State.peerNoted, State.portHeld]

/-- A port that is no fairway comes up with any peer. -/
theorem exec_linkTrainingDone_other (hmode : f.mode ≠ 2) :
    exec (.linkTrainingDone p dom pkg port) s = .next ((s.put (portIdx p.val) 2 2).pump p.val) := by
  rw [exec_linkTrainingDone hplan htrains, if_neg hmode]

theorem exec_linkTrainingDone_fairway (hmode : f.mode = 2) (hpeer : dom = f.peerDom ∧ pkg = f.peerPkg ∧ port = f.peerPort) :
    exec (.linkTrainingDone p dom pkg port) s = .next (((s.peerNoted p.val dom pkg port).put (portIdx p.val) 2 2).pump p.val) := by
  rw [exec_linkTrainingDone hplan htrains, if_pos hmode, if_pos hpeer]

/-- A fairway port with a wrong peer is held down. -/
theorem exec_linkTrainingDone_stranger (hmode : f.mode = 2) (hstranger : ¬(dom = f.peerDom ∧ pkg = f.peerPkg ∧ port = f.peerPort)) :
    exec (.linkTrainingDone p dom pkg port) s = .next ((s.peerNoted p.val dom pkg port).portHeld p.val) := by
  rw [exec_linkTrainingDone hplan htrains, if_pos hmode, if_neg hstranger]

end

end

/-- Settles O44: each row by its test of the link, and a fairway's training by its peer. -/
theorem linksTrainRetrainAndRecover : Obligations.LinksTrainRetrainAndRecover := by
  refine ⟨fun s p => ⟨fun vc hvc => ⟨exec_creditTimeout_missing hvc, exec_creditTimeout_whole⟩, fun lane ber => exec_laneBerCheck_high,
    fun lane ber => exec_laneBerCheck_low, fun hretrains => ⟨exec_linkRetrainDone_acked hretrains, exec_linkRetrainDone_resends hretrains,
      exec_linkRetrainDone_failed hretrains⟩, fun f dom pkg port => exec_linkTrainingDone_other⟩,
    fun s p f dom pkg port hplan htrains hmode => ⟨fun hdom hpkg hport => ?peer, fun hstranger => ?stranger⟩⟩
  case peer => exact exec_linkTrainingDone_fairway hplan htrains hmode ⟨hdom, hpkg, hport⟩
  case stranger =>
    refine ⟨_, exec_linkTrainingDone_stranger hplan htrains hmode hstranger, State.portHeld_linkState _ p.isLt, State.portHeld_newest _ _,
      fun q hq => ?others, State.portHeld_mem _ _⟩
    case others => rw [State.portHeld_linkState_ne _ q.isLt (Fin.val_ne_of_ne hq), State.peerNoted_linkState]

/-! ## Resends and credits (R359, R361, R362, R372) -/

/-- How many flits a port has sent from a sequence number on. -/
def Port.sentSince (x : Port) (seq : Nat) : Nat := (x.tx + 4096 - seq % 4096) % 4096

/-- How often in a row the flit at the head of a resend has then been asked for. -/
def Port.asked (x : Port) (seq : Nat) : Nat :=
  if x.retry.1 = x.tx - x.sentSince seq ∧ 0 < x.retry.2 then x.retry.2 + 1 else 1

theorem Port.asked_again {x : Port} {seq n : Nat} (hretry : x.retry = (x.tx - x.sentSince seq, n)) (hbefore : 0 < n) :
    x.asked seq = n + 1 := by
  unfold Port.asked
  rw [hretry]
  exact if_pos ⟨rfl, hbefore⟩

/-- A resend asked for the n-th time in a row is noted, counted in flits and sent. -/
def State.resent (s : State) (p seq n : Nat) : State :=
  ((s.setPort p { s.port p with retry := ((s.port p).tx - (s.port p).sentSince seq, n) }).count (portIdx p) 6 64
    ((s.port p).sentSince seq)).emit (.linkResend p (seq % 4096))

/-- The flits that an acknowledgement leaves acknowledged. -/
def Port.ackedBy (x : Port) (seq : Nat) : Nat := if x.tx - x.acked < x.sentSince seq then x.acked else x.tx - x.sentSince seq

/-- A port that its peer has returned n credits of a channel and an acknowledgement. -/
def Port.credit (x : Port) (vc limit n seq : Nat) : Port :=
  { x with credits := x.credits.set vc (min limit (x.credits.getD vc 0 + n)), acked := x.ackedBy seq,
           replay := x.replay.filter (fun e => decide (x.ackedBy seq < e.1)),
           retry := if x.ackedBy seq = x.acked then x.retry else (0, 0) }

section
variable {s : State} {p : HawserPort} {seq : Nat} (hup : s.linkState p.val = 2)
include hup

section
variable (hsent : (s.port p.val).sentSince seq ≠ 0) (hheld : (s.port p.val).sentSince seq ≤ (s.port p.val).tx - (s.port p.val).acked)
include hsent hheld

theorem exec_flitResendRequest {n : Nat} (hasked : (s.port p.val).asked seq = n) : exec (.flitResendRequest p seq) s = .next
    (if 8 ≤ n then ((s.resent p.val seq n).setPort p.val { (s.resent p.val seq n).port p.val with retry := (0, 0) }).retrain p.val
      else s.resent p.val seq n) := by
  have hresends : ¬(s.linkState p.val ≠ 2 ∨ (s.port p.val).sentSince seq = 0
      ∨ (s.port p.val).tx - (s.port p.val).acked < (s.port p.val).sentSince seq) := by
    simp [hup, hsent, hheld]
  subst hasked
  exact congrArg Host.Outcome.next (if_neg hresends)

/-- A flit that was not asked for before is sent again. -/
theorem exec_flitResendRequest_new (hnew : (s.port p.val).retry.1 ≠ (s.port p.val).tx - (s.port p.val).sentSince seq) :
    exec (.flitResendRequest p seq) s = .next (s.resent p.val seq 1) :=
  exec_flitResendRequest hup hsent hheld (if_neg fun h => hnew h.1)

section
variable {n : Nat} (hretry : (s.port p.val).retry = ((s.port p.val).tx - (s.port p.val).sentSince seq, n)) (hbefore : 0 < n)
include hretry hbefore

theorem exec_flitResendRequest_again (hfew : n < 7) : exec (.flitResendRequest p seq) s = .next (s.resent p.val seq (n + 1)) := by
  rw [exec_flitResendRequest hup hsent hheld (Port.asked_again hretry hbefore), if_neg (by omega)]

/-- The eighth request in a row for one flit retrains the link. -/
theorem exec_flitResendRequest_eighth (hmany : 7 ≤ n) : exec (.flitResendRequest p seq) s =
    .next (((s.resent p.val seq (n + 1)).setPort p.val { (s.resent p.val seq (n + 1)).port p.val with retry := (0, 0) }).retrain p.val) := by
  rw [exec_flitResendRequest hup hsent hheld (Port.asked_again hretry hbefore), if_pos (by omega)]

end

end

theorem exec_creditReturn {vc : Nat} (hvc : vc < 8) (n : Nat) (edges : List EdgeCredit) : exec (.creditReturn p vc n ⟨seq, edges⟩) s =
    .next (edges.foldl State.edgeCredit ((s.setPort p.val ((s.port p.val).credit vc (s.get 0x7030 (vc + 1)) n seq)).pump p.val)) := by
  have hrow : exec (.creditReturn p vc n ⟨seq, edges⟩) s = execCreditReturn p vc n ⟨seq, edges⟩ s := rfl
  simp only [hrow, execCreditReturn, if_neg (not_not.mpr hup), if_pos hvc]
  rfl

end

/-- A credit that is set stays within its limit, and sets no other. -/
theorem getD_set_min {cs : List Nat} {vc : Nat} (hvc : vc < cs.length) (limit n v : Nat) :
    (cs.set vc (min limit n)).getD vc 0 ≤ limit ∧ (v ≠ vc → (cs.set vc (min limit n)).getD v 0 = cs.getD v 0) := by
  simp only [List.getD_eq_getElem?_getD]
  refine ⟨?_, fun hother => ?_⟩
  · rw [List.getElem?_set_self hvc]
    exact Nat.min_le_left _ _
  · rw [List.getElem?_set_ne hother.symm]

/-- Settles O45: a resend by how often its flit was asked for, a credit return by the channel it names. -/
theorem flitsAreResentAndCreditsBounded : Obligations.FlitsAreResentAndCreditsBounded :=
  ⟨fun _ _ => ⟨fun _ hup hsent hheld hnew => exec_flitResendRequest_new hup hsent hheld hnew,
    fun _ _ hup hsent hheld hretry hbefore => ⟨exec_flitResendRequest_again hup hsent hheld hretry hbefore,
      exec_flitResendRequest_eighth hup hsent hheld hretry hbefore⟩,
    fun _ n _ edges hup hvc => exec_creditReturn hup hvc n edges⟩,
   fun _ _ _ v _ hvc => getD_set_min hvc _ _ v⟩

/-! ## Retrains (R361) -/

/-- The retrains of a port within the last 10 s, with the one that begins now. -/
def State.recentRetrains (s : State) (p : Nat) : List Nat :=
  s.timer :: (s.port p).retrains.filter (fun t => decide (s.timer ≤ t + 10000000000))

/-- A retrain that begins is kept and counted. -/
def State.retrainCounted (s : State) (p : Nat) : State :=
  (s.setPort p { s.port p with retrains := s.recentRetrains p }).count (portIdx p) 7 32 1

/-- A retrain that begins is counted, logged, weighed into the risk and asked for. -/
def State.retrainNoted (s : State) (p : Nat) : State :=
  (((s.retrainCounted p).logEv (portEv 0x500C note p)).riskAddK ((s.retrainCounted p).get 0x9500 11)).emit (.linkRetrain p)

/-- A weight added to the link term of the risk changes the lighthouse alone. -/
theorem State.riskAddK_lh (s : State) (w : Nat) : ∃ x, s.riskAddK w = { s with lh := x } := by
  obtain ⟨x, hdecayed⟩ := s.riskDecay_lh
  unfold State.riskAddK
  rw [hdecayed]
  exact ⟨_, rfl⟩

section
variable (s : State) (p : Nat)

/-- Beside its event, a retrain that begins changes the lighthouse and what is sent alone. -/
theorem State.retrainNoted_event : ∃ x o, s.retrainNoted p =
    { (s.retrainCounted p).logEv (portEv 0x500C note p) with lh := x, out := o } := by
  obtain ⟨x, hrisk⟩ := ((s.retrainCounted p).logEv (portEv 0x500C note p)).riskAddK_lh ((s.retrainCounted p).get 0x9500 11)
  unfold State.retrainNoted
  rw [hrisk]
  exact ⟨_, _, rfl⟩

theorem State.retrainNoted_newest : newest (s.retrainNoted p) 0x500C note := by
  obtain ⟨x, o, hevent⟩ := s.retrainNoted_event p
  rw [hevent]
  exact State.newest_logEv _ _

theorem State.retrainNoted_mem : (s.retrainNoted p).mem = s.mem := by
  obtain ⟨x, o, hevent⟩ := s.retrainNoted_event p
  rw [hevent]
  exact State.logEv_mem _ _

/-- Of the objects that are no event's, a retrain that begins changes its counter alone. -/
theorem State.retrainNoted_get_counted {i a : Nat} (h1 : i ≠ 0xA001) (h2 : i ≠ 0xA010) (ha : a < 256) :
    (s.retrainNoted p).get i a = (s.retrainCounted p).get i a := by
  obtain ⟨x, o, hevent⟩ := s.retrainNoted_event p
  rw [hevent]
  exact State.get_logEv _ _ h1 h2 ha

theorem State.retrainNoted_get {i a : Nat} (h1 : i ≠ 0xA001) (h2 : i ≠ 0xA010) (ha : a < 256) (h : key i a ≠ key (portIdx p) 7) :
    (s.retrainNoted p).get i a = s.get i a :=
  (s.retrainNoted_get_counted p h1 h2 ha).trans (State.get_count_ne _ _ _ h)

end

theorem State.retrainNoted_count (s : State) {p : Nat} (hp : p < 32) : (s.retrainNoted p).get (portIdx p) 7 = satAdd 32 (s.get (portIdx p) 7) 1 :=
  (s.retrainNoted_get_counted p (portIdx_ne_logCount hp) (portIdx_ne_classCount hp) (by decide)).trans (State.get_count _ _ _ _ _)

section
variable {s : State} {p : Nat} (hp : p < 32) (hup : s.linkState p = 2)
include hp hup

theorem State.retrain_up : s.retrain p =
    if s.get 0x7001 4 < (s.recentRetrains p).length then (s.retrainNoted p).failLink p else (s.retrainNoted p).put (portIdx p) 2 3 := by
  have hlimit : (s.retrainNoted p).get 0x7001 4 = s.get 0x7001 4 :=
    s.retrainNoted_get p (by decide) (by decide) (by decide) (by unfold key portIdx; omega)
  rw [← hlimit]
  exact if_neg (not_not.mpr hup)

/-- Within the limit, a link goes to RETRAINING. -/
theorem State.retrain_allowed (hfew : (s.recentRetrains p).length ≤ s.get 0x7001 4) :
    s.retrain p = (s.retrainNoted p).put (portIdx p) 2 3 := by
  rw [State.retrain_up hp hup, if_neg (Nat.not_lt.mpr hfew)]

theorem State.retrain_fails (hmany : s.get 0x7001 4 < (s.recentRetrains p).length) : s.retrain p = (s.retrainNoted p).failLink p := by
  rw [State.retrain_up hp hup, if_pos hmany]

end

/-- Settles O46: a retrain is noted, and then its link goes on or fails by the retrains of the last 10 s. -/
theorem retrainsAreCountedAndLimited : Obligations.RetrainsAreCountedAndLimited := by
  intro s p hup
  refine ⟨fun hfew => ?allowed, fun hmany => ⟨_, State.retrain_fails p.isLt hup hmany, s.retrainNoted_newest p.val,
    s.retrainNoted_count p.isLt, s.retrainNoted_mem p.val⟩⟩
  case allowed =>
    rw [State.retrain_allowed p.isLt hup hfew]
    refine ⟨State.linkState_put _ _ _, s.retrainNoted_newest p.val, ?count, s.retrainNoted_mem p.val, fun q hq => ?others⟩
    case count => rw [State.get_put_ne _ _ (key_portIdx_ne (by decide) (by decide) (.inr (by decide))), s.retrainNoted_count p.isLt]
    case others =>
      have hother : q.val ≠ p.val := Fin.val_ne_of_ne hq
      rw [State.linkState_put_ne _ _ (by decide) (.inl hother)]
      exact s.retrainNoted_get p.val (portIdx_ne_logCount q.isLt) (portIdx_ne_classCount q.isLt) (by decide)
        (key_portIdx_ne (by decide) (by decide) (.inl hother))

end Sys2Proof.Machine

/-! Peers that are silent, edges that stall and buckets that are late (R366, R373, R402; O47), and what a step runs (R383; O1). -/

namespace Sys2Proof.Machine

section
variable {s : State}

/-! ## Transfers and convoy messages without an answer (R366) -/

theorem exec_ackTimeout_transfer {xid : Nat} {x : Xfer} (hxfer : s.xfer? xid = some x) :
    exec (.ackTimeout xid) s = .next (s.xferFails xid x 0x5008) := by
  have hrow : exec (.ackTimeout xid) s = execAckTimeout xid s := rfl
  simp only [hrow, execAckTimeout, hxfer]

section
variable {xid : Nat} {r : Relay} (hxfer : s.xfer? xid = none) (hrelay : s.relay? xid = some r)
include hxfer hrelay

theorem exec_ackTimeout_relay : exec (.ackTimeout xid) s =
    .next (if r.last = true ∧ r.floor = r.count then s else s.relayFails r 0x5008 (leBytes 2 0x5008 ++ zeros 14)) := by
  have hrow : exec (.ackTimeout xid) s = execAckTimeout xid s := rfl
  simp only [hrow, execAckTimeout, hxfer, hrelay]

theorem exec_ackTimeout_unanswered (hopen : ¬(r.last = true ∧ r.floor = r.count)) :
    exec (.ackTimeout xid) s = .next (s.relayFails r 0x5008 (leBytes 2 0x5008 ++ zeros 14)) := by
  rw [exec_ackTimeout_relay hxfer hrelay, if_neg hopen]

/-- A multicast that is wholly acknowledged waits for no answer. -/
theorem exec_ackTimeout_complete (hlast : r.last = true) (hfloor : r.floor = r.count) : exec (.ackTimeout xid) s = .next s := by
  rw [exec_ackTimeout_relay hxfer hrelay, if_pos ⟨hlast, hfloor⟩]

end

/-! ## Edges that stall (R373) -/

theorem exec_convoyStallLimit_stalled {cv child : Nat} (hwaiting : (s.edge cv child).waiting ≠ [])
    (hattached : (s.edge cv child).detached = false) (hfree : (s.edge cv child).held = false) :
    exec (.convoyStallLimit cv child) s = .next (s.detachChild cv child) :=
  congrArg Host.Outcome.next (if_neg (by simp [hwaiting, hattached, hfree]))

/-- The limit's time does not run while the child holds its returns. -/
theorem exec_convoyStallLimit_held {cv child : Nat} (hheld : (s.edge cv child).held = true) :
    exec (.convoyStallLimit cv child) s = .next s :=
  congrArg Host.Outcome.next (if_pos (.inr (.inr hheld)))

/-! ## Buckets that are late (R402) -/

section
variable {entry round bucket t : Nat} {x : Inst} (hinst : s.inst? (instKey entry (round == 1) bucket) = some x) (htimer : x.timer = some t)
include hinst htimer

theorem exec_bucketDeadline_passed (hopen : x.phase = 0) (hpassed : t + x.deadline * 1000 ≤ s.timer) :
    exec (.bucketDeadline entry round bucket) s = .next (s.closeInst entry (round == 1) bucket true) := by
  have hrow : exec (.bucketDeadline entry round bucket) s = execBucketDeadline entry round bucket s := rfl
  simp only [hrow, execBucketDeadline, hinst, htimer, if_pos (And.intro hopen hpassed)]

theorem exec_bucketDeadline_early (hearly : s.timer < t + x.deadline * 1000) :
    exec (.bucketDeadline entry round bucket) s = .next s := by
  have hrow : exec (.bucketDeadline entry round bucket) s = execBucketDeadline entry round bucket s := rfl
  have hwaits : ¬(x.phase = 0 ∧ t + x.deadline * 1000 ≤ s.timer) := fun h => Nat.not_le.mpr hearly h.2
  simp only [hrow, execBucketDeadline, hinst, htimer, if_neg hwaits]

end

end

/-! ## The statements -/

/-- Settles O47: each of the three limits under the test it makes of what is late. -/
theorem silentPeersAndLateBucketsAreClosed : Obligations.SilentPeersAndLateBucketsAreClosed :=
  ⟨fun _ _ => ⟨fun _ => exec_ackTimeout_transfer,
      fun _ hxfer hrelay => ⟨exec_ackTimeout_unanswered hxfer hrelay, exec_ackTimeout_complete hxfer hrelay⟩,
      fun _ _ hwaiting hattached => ⟨exec_convoyStallLimit_stalled hwaiting hattached, exec_convoyStallLimit_held⟩⟩,
    fun _ _ _ _ _ _ hinst htimer hopen => ⟨exec_bucketDeadline_passed hinst htimer hopen, exec_bucketDeadline_early hinst htimer⟩⟩

/-- Settles O1: the front of the queue decides a step; the idle step is the timer's advance (log 2). -/
theorem stepRunsTheFrontCommandOrIdles : Obligations.StepRunsTheFrontCommandOrIdles :=
  ⟨fun _ _ _ => step_of_front, fun _ => step_of_empty⟩

end Sys2Proof.Machine

/-! The end of a close: its bollard and the exponent the bucket next opens with (R397, R398; O48). -/

namespace Sys2Proof.Machine

/-! ## The record of R397 -/

/-- The record of a close whose largest finite |element| is m (R397): no exponent where only zeros were written. -/
def State.recordExp (s : State) (k : Nat) (m : Rat) : State :=
  { s with weigh := { s.weigh with exps := if m = 0 then merase s.weigh.exps k else mset s.weigh.exps k (ilogR m) } }

/-- A close whose bucket has opened again is no longer waited for (R395). -/
def State.dropClosing (s : State) (k : Nat) : State :=
  { s with weigh := { s.weigh with closing := s.weigh.closing.eraseP (fun e => e.1 == k) } }

section
variable (s : State) (k : Nat)

@[simp] theorem State.recordExp_baseExp (m : Rat) :
    (s.recordExp k m).baseExp k = if m = 0 then 0 else clampInt (-64) 64 (ilogR m + 4) := by
  by_cases hzeros : m = 0
  · simp [State.baseExp, State.recordExp, hzeros, mget?_merase]
  · simp [State.baseExp, State.recordExp, hzeros, mget?_mset]

theorem State.recordExp_baseExp_ne (m : Rat) {j : Nat} (hother : j ≠ k) : (s.recordExp k m).baseExp j = s.baseExp j := by
  by_cases hzeros : m = 0
  · simp [State.baseExp, State.recordExp, hzeros, mget?_merase_ne _ hother]
  · simp [State.baseExp, State.recordExp, hzeros, mget?_mset_ne _ _ hother]

@[simp] theorem State.recordExp_inst? (m : Rat) (j : Nat) : (s.recordExp k m).inst? j = s.inst? j := rfl
@[simp] theorem State.recordExp_mem (m : Rat) : (s.recordExp k m).mem = s.mem := rfl
@[simp] theorem State.recordExp_bollards (m : Rat) : (s.recordExp k m).bollards = s.bollards := rfl
@[simp] theorem State.recordExp_dict (m : Rat) : (s.recordExp k m).dict = s.dict := rfl

@[simp] theorem State.setInst_baseExp (x : Inst) (j : Nat) : (s.setInst k x).baseExp j = s.baseExp j := rfl

@[simp] theorem State.dropClosing_baseExp (j : Nat) : (s.dropClosing k).baseExp j = s.baseExp j := rfl
@[simp] theorem State.dropClosing_inst? (j : Nat) : (s.dropClosing k).inst? j = s.inst? j := rfl
@[simp] theorem State.dropClosing_mem : (s.dropClosing k).mem = s.mem := rfl
@[simp] theorem State.dropClosing_bollards : (s.dropClosing k).bollards = s.bollards := rfl
@[simp] theorem State.dropClosing_dict : (s.dropClosing k).dict = s.dict := rfl

/-- The bollard rises after the exponent is recorded. -/
theorem State.closeRecord_eq (entry : Nat) (q : Bool) (x : Inst) :
    s.closeRecord entry q k x = (s.recordExp k (maxFinite (closeValues x q))).raise
      ((s.recordExp k (maxFinite (closeValues x q))).redBind entry).closeBol 1 false := rfl

end

/-! ## The acknowledgement of a close (R398) -/

section
variable {s : State} {entry round bucket : Nat}

theorem exec_bucketCloseAcked_closing {x : Inst} (hinst : s.inst? (instKey entry (round == 1) bucket) = some x) (hclosing : x.phase = 1)
    (hlast : s.weigh.closing.find? (fun e => e.1 == instKey entry (round == 1) bucket) = none) :
    exec (.bucketCloseAcked entry round bucket) s =
      .next ((s.setInst (instKey entry (round == 1) bucket) { x with phase := 2 }).closeRecord entry (round == 1)
        (instKey entry (round == 1) bucket) x) := by
  have hrow : exec (.bucketCloseAcked entry round bucket) s = execBucketCloseAcked entry round bucket s := rfl
  simp only [hrow, execBucketCloseAcked, hlast, hinst, hclosing, ne_eq, not_true_eq_false, if_false]

/-- A close whose bucket has opened again is acknowledged first. -/
theorem exec_bucketCloseAcked_followed {y : Nat × Inst}
    (hfollowed : s.weigh.closing.find? (fun e => e.1 == instKey entry (round == 1) bucket) = some y) :
    exec (.bucketCloseAcked entry round bucket) s =
      .next ((s.dropClosing (instKey entry (round == 1) bucket)).closeRecord entry (round == 1)
        (instKey entry (round == 1) bucket) y.2) := by
  have hrow : exec (.bucketCloseAcked entry round bucket) s = execBucketCloseAcked entry round bucket s := rfl
  simp only [hrow, execBucketCloseAcked, hfollowed, State.dropClosing]

end

/-! ## The statement -/

/-- Settles O48: both closes end in the record of R397, one of a bucket that still closes, one of a bucket that has opened again. -/
theorem closeFixesTheNextExponent : Obligations.CloseFixesTheNextExponent := by
  constructor
  case left =>
    intro s entry round bucket x k hinst hclosing hlast m
    refine ⟨(s.setInst k { x with phase := 2 }).recordExp k m,
      by rw [exec_bucketCloseAcked_closing hinst hclosing hlast, State.closeRecord_eq],
      State.recordExp_baseExp .., by simp, fun j hother => ⟨?_, ?_⟩, by simp, by simp, by simp⟩
    · simp [State.recordExp_baseExp_ne _ _ _ hother]
    · simp [State.setInst_inst?_ne _ _ hother]
  case right =>
    intro s entry round bucket y k hfollowed m
    refine ⟨(s.dropClosing k).recordExp k m, by rw [exec_bucketCloseAcked_followed hfollowed, State.closeRecord_eq],
      State.recordExp_baseExp .., fun j hother => ?_, by simp, by simp, by simp, by simp⟩
    simp [State.recordExp_baseExp_ne _ _ _ hother]

end Sys2Proof.Machine

/-! The queue runs first in, first out (O6). -/

namespace Sys2Proof.Machine

open Sys2Proof.Claims

theorem steps_succ {s t : State} (n : Nat) (hstep : step s = .next t) : steps (n + 1) s = steps n t := by
  simp only [steps, hstep]

/-- As many steps as there are commands in front of `rest` run exactly those; each step's part is O4. -/
theorem steps_front (rest cs : List Instr) (s : State) (hqueue : s.pending = cs ++ rest) :
    ∃ t, steps cs.length s = some t ∧ t.pending = rest ∧ (s.Canonical → t.Canonical) ∧ s.draws ≤ t.draws
      ∧ (.powerOn ∉ cs → s.log.nextSeq ≤ t.log.nextSeq) ∧ s.out <+: t.out := by
  induction cs generalizing s with
  | nil => exact ⟨s, rfl, hqueue, id, le_refl _, fun _ => le_refl _, List.prefix_refl _⟩
  | cons c cs ih =>
    obtain ⟨u, hstep, hcells, hpending, hdraws, hseq, hsent⟩ := everyStepKeepsMemoryCanonical s
    rw [hqueue] at hpending hseq
    obtain ⟨t, hsteps, hrest, hcells', hdraws', hseq', hsent'⟩ := ih u hpending
    refine ⟨t, (steps_succ _ hstep).trans hsteps, hrest, hcells' ∘ hcells, hdraws.trans hdraws', fun hother => ?numbers,
      hsent.trans hsent'⟩
    case numbers =>
      have hc : Instr.powerOn ≠ c := List.ne_of_not_mem_cons hother
      exact (hseq fun h => hc (Option.some.inj h).symm).trans (hseq' (List.not_mem_of_not_mem_cons hother))

/-- Settles O6, by induction on the commands in front. -/
theorem commandsRunFirstInFirstOut : Obligations.CommandsRunFirstInFirstOut := by
  intro s cs rest
  exact steps_front rest cs { s with pending := cs ++ rest } rfl

end Sys2Proof.Machine

/-! The securing's copies and restores (R433, R438, R440, R441, R445, R447; O49, O50). -/

namespace Sys2Proof.Machine

/-! ## Copies (R433, R438, R440, R441) -/

/-- What the record holds before its chunks. -/
def CopySt.head (cp : CopySt) : List Byte := cp.header ++ cp.table ++ cp.history

/-- The copy is committed with its head on record, and the swap has begun. -/
def State.commitBegun (s : State) (cp : CopySt) : State :=
  let u := s.modCopy (fun c => { c with stage := 3, committed := true, swapping := true })
  { u with secure := { u.secure with record := cp.head } }

/-- A swap ends where its copy is not committed, or its commit record is acknowledged. -/
theorem CopySt.swap_ends {cp : CopySt} (hswap : cp.swapping = true) (hstage : cp.committed = true → cp.stage = 4) :
    ¬((!cp.swapping) = true ∨ (cp.committed = true ∧ cp.stage ≠ 4)) := by
  simpa [hswap] using hstage

section
variable {s : State} {cp : CopySt} (hcopy : s.secure.copy = some cp)
include hcopy

/-- Every chunk is acknowledged: the commit record is written. -/
theorem exec_secureCommit (hopen : cp.swapping = false) (hstage : cp.stage = 2) (hleft : cp.left = 0) :
    exec .secureCommit s = .next (((s.commitBegun cp).storeAt cp .commit 7 ((s.commitBegun cp).get 0x8200 3 - 4096)
      (commitRecord cp.seq cp.head)).put 0x8201 3 2) := by
  have hrow : exec .secureCommit s = execSecureCommit s := rfl
  have hacked : ¬(cp.swapping = true ∨ cp.stage ≠ 2 ∨ cp.left ≠ 0) := by simp [hopen, hstage, hleft]
  simp only [hrow, execSecureCommit, hcopy, if_neg hacked]
  rfl

section
variable (hswap : cp.swapping = true) (hstage : cp.committed = true → cp.stage = 4)
include hswap hstage

theorem exec_swapDone_alone (hnone : (s.swapEnd cp).secure.deferred = none) : exec .swapDone s = .next (s.swapEnd cp) := by
  have hrow : exec .swapDone s = execSwapDone s := rfl
  simp only [hrow, execSwapDone, hcopy, if_neg (CopySt.swap_ends hswap hstage), hnone]

/-- The open that waited for the swap follows it (log 48). -/
theorem exec_swapDone_deferred (hsome : (s.swapEnd cp).secure.deferred ≠ none) : exec .swapDone s =
    .next (({ s.swapEnd cp with secure := { (s.swapEnd cp).secure with deferred := none } }).openCopy
      ((s.swapEnd cp).stepOf s.secureCtx - 1)) := by
  have hrow : exec .swapDone s = execSwapDone s := rfl
  obtain ⟨x, hx⟩ := Option.ne_none_iff_exists'.mp hsome
  simp only [hrow, execSwapDone, hcopy, if_neg (CopySt.swap_ends hswap hstage), hx]

end

theorem exec_secureTimeout : exec .secureTimeout s =
    .next (if cp.swapping = true ∨ s.timer < cp.openedAt + s.get 0x8200 10 * 1000000 then s else s.abandonCopy) := by
  have hrow : exec .secureTimeout s = execSecureTimeout s := rfl
  simp only [hrow, execSecureTimeout, hcopy]

end

/-- Settles O49: the three rows that a copy meets after its chunks have left; the swap's end is one operation of the model. -/
theorem copiesCommitSwapOrTimeOut : Obligations.CopiesCommitSwapOrTimeOut := by
  intro s cp hcopy
  refine ⟨exec_secureCommit hcopy, fun hswap hstage => ?swap, fun hopen hpassed => ?late, fun hwithin => ?within⟩
  case swap => exact ⟨exec_swapDone_alone hcopy hswap hstage, exec_swapDone_deferred hcopy hswap hstage⟩
  case late =>
    have hlate : ¬(cp.swapping = true ∨ s.timer < cp.openedAt + s.get 0x8200 10 * 1000000) := by simpa [hopen] using hpassed
    rw [exec_secureTimeout hcopy, if_neg hlate]
  case within => rw [exec_secureTimeout hcopy, if_pos hwithin]

/-! ## Restores (R445, R447) -/

section
variable {s : State}

/-- A restore that fails leaves FAILED and its code. -/
theorem State.restoreFail_state (s : State) (code : Nat) :
    (s.restoreFail code).get 0x8202 5 = 5 ∧ (s.restoreFail code).get 0x8202 6 = code := by
  have hstate : ((s.put 0x8202 5 5).put 0x8202 6 code).get 0x8202 5 = 5 := by
    rw [State.get_put_ne _ _ (by decide), State.get_put]
  unfold State.restoreFail
  dsimp only
  split
  · exact ⟨hstate, State.get_put ..⟩
  · rw [State.get_logEv _ _ (by decide) (by decide) (by decide), State.get_logEv _ _ (by decide) (by decide) (by decide)]
    exact ⟨hstate, State.get_put ..⟩

theorem State.loadFinish_state (s : State) (h : Head) : (s.loadFinish h).get 0x8202 5 = 2 := State.get_put ..

theorem State.loadData_local (hlocal : s.get 0x8202 1 = 2) (h : Head) (remote : List Byte) :
    s.loadData h remote = (s.flipLive, none) := if_pos hlocal

section
variable {remote : List Byte} (hloading : s.get 0x8202 5 = 1)
include hloading

theorem exec_restoreLoadDone_failed {u : State} {code : Nat} (hdata : s.loadData s.loadingHead remote = (u, some code)) :
    exec (.restoreLoadDone remote) s = .next (u.restoreFail code) := by
  have hrow : exec (.restoreLoadDone remote) s = execRestoreLoadDone remote s := rfl
  simp only [hrow, execRestoreLoadDone, if_neg (not_not_intro hloading), hdata]

/-- Every chunk of the record is written: the digests decide. -/
theorem exec_restoreLoadDone_written {u : State} (hdata : s.loadData s.loadingHead remote = (u, none)) :
    exec (.restoreLoadDone remote) s = .next (if u.chunksGood s.loadingHead then u.loadFinish s.loadingHead else u.restoreFail 0x7011) := by
  have hrow : exec (.restoreLoadDone remote) s = execRestoreLoadDone remote s := rfl
  simp only [hrow, execRestoreLoadDone, if_neg (not_not_intro hloading), hdata]

end

/-- The digests of the loaded table that a VERIFY compares: of the regions that name a replica, in their order. -/
def State.expectedDigests (s : State) : List (List Nat) :=
  (s.regions.zipIdx.filter (fun p => p.1.replicaPkg != 0xFFFF)).map (fun p => s.regionDigests p.2)

section
variable {replicas : List (List Nat)} (hverifying : s.get 0x8202 5 = 3)
include hverifying

theorem exec_restoreVerifyDone : exec (.restoreVerifyDone replicas) s =
    .next (if s.expectedDigests = replicas then (s.put 0x8202 5 4).count 0x8220 8 64 1 else s.restoreFail 0x7013) :=
  congrArg Host.Outcome.next (if_neg (not_not_intro hverifying))

theorem exec_restoreVerifyDone_agree (hagree : s.expectedDigests = replicas) :
    exec (.restoreVerifyDone replicas) s = .next ((s.put 0x8202 5 4).count 0x8220 8 64 1) := by
  rw [exec_restoreVerifyDone hverifying, if_pos hagree]

theorem exec_restoreVerifyDone_differ (hdiffer : s.expectedDigests ≠ replicas) :
    exec (.restoreVerifyDone replicas) s = .next (s.restoreFail 0x7013) := by
  rw [exec_restoreVerifyDone hverifying, if_neg hdiffer]

end

end

/-- Settles O50: a LOAD by what its data answers, a VERIFY by the comparison of the digests. -/
theorem restoresFinish : Obligations.RestoresFinish := by
  intro s
  refine ⟨fun remote hloading => ⟨fun code hfails => ?failed, fun hwritten => ⟨fun hgood => ?good, fun hbad => ?bad⟩⟩,
    fun hlocal => State.loadData_local hlocal,
    fun replicas hverifying => ⟨fun hagree => ?agree, exec_restoreVerifyDone_differ hverifying⟩⟩
  case failed => exact ⟨exec_restoreLoadDone_failed hloading (Prod.ext rfl hfails), State.restoreFail_state _ _⟩
  case good => exact ⟨by rw [exec_restoreLoadDone_written hloading (Prod.ext rfl hwritten), if_pos hgood], State.loadFinish_state _ _⟩
  case bad => rw [exec_restoreLoadDone_written hloading (Prod.ext rfl hwritten), if_neg (Bool.not_eq_true _ ▸ hbad)]
  case agree =>
    refine ⟨_, exec_restoreVerifyDone_agree hverifying hagree, ?verified, ?counted, rfl, rfl⟩
    case verified => rw [State.get_count_ne _ _ _ (by decide), State.get_put]
    case counted => rw [State.get_count, State.get_put_ne _ _ (by decide)]

end Sys2Proof.Machine

/-! The management port, the SPDM responder and boundary scan (R517 to R520, R527; O54, O55, O56). The formats of DOE and SPDM are the
standards' (log 15). -/

namespace Sys2Proof.Machine

/-! ## What a request of SPDM meets (R527) -/

section
variable {s : State} {path : SpdmPath}

/-- A request whose step the connection has reached is answered by what its row computes in that state. -/
theorem State.spdmStep_reached {ready : Bool} {f g : State → State} (hready : ready = true) (hanswer : f s = g s) :
    s.spdmStep path ready f = s.spdmStep path true g := by
  simp only [State.spdmStep, hready, hanswer]

/-- One that comes too early is answered with UnexpectedRequest. -/
theorem State.spdmStep_early {ready : Bool} (hearly : ready = false) (f : State → State) :
    s.spdmStep path ready f = s.spdmStep path true (fun s => s.spdmReject path 0x04 0) := by
  simp only [State.spdmStep, hearly, Bool.false_eq_true, if_false, if_true]

/-! ## The negotiation -/

theorem exec_spdmGetCapabilities (hversion : (s.spdmConn path).version = true) : exec (.spdmGetCapabilities path) s =
    .next (s.spdmStep path true (fun s => (s.setSpdm path { s.spdmConn path with capabilities := true }).spdmSend path
      ([0x13, 0x61, 0, 0, 0, 0, 0, 0] ++ leBytes 4 0x16))) :=
  congrArg Host.Outcome.next (State.spdmStep_reached hversion rfl)

theorem exec_spdmGetCapabilities_early (hearly : (s.spdmConn path).version = false) : exec (.spdmGetCapabilities path) s =
    .next (s.spdmStep path true (fun s => s.spdmReject path 0x04 0)) :=
  congrArg Host.Outcome.next (State.spdmStep_early hearly _)

/-- Both algorithms are offered. -/
theorem exec_spdmNegotiateAlgorithms (hcapabilities : (s.spdmConn path).capabilities = true) :
    exec (.spdmNegotiateAlgorithms path true true) s = .next (s.spdmStep path true (fun s =>
      (s.setSpdm path { s.spdmConn path with algorithms := true }).spdmSend path spdmAlgorithms)) :=
  congrArg Host.Outcome.next (State.spdmStep_reached hcapabilities rfl)

theorem exec_spdmNegotiateAlgorithms_unoffered (hcapabilities : (s.spdmConn path).capabilities = true) {p h : Bool}
    (hlacks : (p && h) = false) :
    exec (.spdmNegotiateAlgorithms path p h) s = .next (s.spdmStep path true (fun s => s.spdmReject path 0x01 0)) :=
  congrArg Host.Outcome.next (State.spdmStep_reached hcapabilities (if_neg (Bool.not_eq_true _ ▸ hlacks)))

theorem exec_spdmNegotiateAlgorithms_early (hearly : (s.spdmConn path).capabilities = false) (p h : Bool) :
    exec (.spdmNegotiateAlgorithms path p h) s = .next (s.spdmStep path true (fun s => s.spdmReject path 0x04 0)) :=
  congrArg Host.Outcome.next (State.spdmStep_early hearly _)

/-! ## The requests after it -/

/-- Digests, certificates, challenges and measurements wait for the whole negotiation. -/
theorem exec_spdm_unnegotiated (hearly : (s.spdmConn path).algorithms = false) {c : Instr}
    (hc : c = .spdmGetDigests path ∨ (∃ slot off n, c = .spdmGetCertificate path slot off n)
      ∨ (∃ slot nonce, c = .spdmChallenge path slot nonce) ∨ ∃ i signed nonce, c = .spdmGetMeasurements path i signed nonce) :
    exec c s = .next (s.spdmStep path true (fun s => s.spdmReject path 0x04 0)) := by
  rcases hc with rfl | ⟨_, _, _, rfl⟩ | ⟨_, _, rfl⟩ | ⟨_, _, _, rfl⟩ <;>
    exact congrArg Host.Outcome.next (State.spdmStep_early hearly _)

section
variable (halgorithms : (s.spdmConn path).algorithms = true)
include halgorithms

theorem exec_spdmGetDigests : exec (.spdmGetDigests path) s = .next (s.spdmStep path true (fun s =>
    s.spdmSend path ([0x13, 0x01, 0, 1] ++ sha384 s.certChain))) :=
  congrArg Host.Outcome.next (State.spdmStep_reached halgorithms rfl)

theorem exec_spdmGetCertificate (slot off n : Nat) : exec (.spdmGetCertificate path slot off n) s =
    .next (s.spdmStep path true (fun s =>
      if slot ≠ 0 ∨ s.certChain.length ≤ off then s.spdmReject path 0x01 0
      else s.spdmSend path ([0x13, 0x02, 0, 0] ++ leBytes 2 ((s.certChain.drop off).take n).length
        ++ leBytes 2 (s.certChain.length - off - ((s.certChain.drop off).take n).length) ++ (s.certChain.drop off).take n))) :=
  congrArg Host.Outcome.next (State.spdmStep_reached halgorithms rfl)

theorem exec_spdmChallenge (nonce : List Byte) : exec (.spdmChallenge path 0 nonce) s = .next (s.spdmStep path true (fun s =>
    let body := [0x13, 0x03, 0, 1] ++ sha384 s.certChain ++ leBytes 32 s.draw.1
    (s.draw.2.spdmSign (nonce ++ body)).2.spdmSend path (body ++ (s.draw.2.spdmSign (nonce ++ body)).1))) :=
  congrArg Host.Outcome.next (State.spdmStep_reached halgorithms (if_neg (not_not_intro rfl)))

theorem exec_spdmChallenge_otherSlot {slot : Nat} (nonce : List Byte) (hslot : slot ≠ 0) : exec (.spdmChallenge path slot nonce) s =
    .next (s.spdmStep path true (fun s => s.spdmReject path 0x01 0)) :=
  congrArg Host.Outcome.next (State.spdmStep_reached halgorithms (if_pos hslot))

/-- Index 0 asks how many blocks there are. -/
theorem exec_spdmGetMeasurements_count (signed : Bool) (nonce : List Byte) : exec (.spdmGetMeasurements path 0 signed nonce) s =
    .next (s.spdmStep path true (fun s => s.spdmSend path [0x13, 0x60, 6, 0])) :=
  congrArg Host.Outcome.next (State.spdmStep_reached halgorithms (if_pos rfl))

theorem exec_spdmGetMeasurements {i : Nat} (signed : Bool) (nonce : List Byte) (hi : i = 0xFF ∨ (1 ≤ i ∧ i ≤ 6)) :
    exec (.spdmGetMeasurements path i signed nonce) s = .next (s.spdmStep path true (fun s =>
      let is := if i = 0xFF then [1, 2, 3, 4, 5, 6] else [i]
      let body := [0x13, 0x60, 0, 0, BitVec.ofNat 8 is.length]
        ++ is.flatMap (fun i => [BitVec.ofNat 8 i, 1] ++ leBytes 2 48 ++ s.measurement i)
      if signed then (s.spdmSign (nonce ++ body)).2.spdmSend path (body ++ (s.spdmSign (nonce ++ body)).1)
      else s.spdmSend path body)) :=
  have hblocks : i ≠ 0 := by omega
  congrArg Host.Outcome.next (State.spdmStep_reached halgorithms ((if_neg hblocks).trans (if_pos hi)))

theorem exec_spdmGetMeasurements_unknown {i : Nat} (signed : Bool) (nonce : List Byte) (hbeyond : 6 < i) (hall : i ≠ 0xFF) :
    exec (.spdmGetMeasurements path i signed nonce) s = .next (s.spdmStep path true (fun s => s.spdmReject path 0x01 0)) :=
  have hblocks : i ≠ 0 := by omega
  have hnone : ¬(i = 0xFF ∨ (1 ≤ i ∧ i ≤ 6)) := by omega
  congrArg Host.Outcome.next (State.spdmStep_reached halgorithms ((if_neg hblocks).trans (if_neg hnone)))

end

/-! ## DOE (R517) -/

section
variable {port : HostPort} (hup : s.doeUp port.val = true)
include hup

theorem exec_doeDiscovery (i : Nat) : exec (.doeDiscovery port i) s =
    .next (s.emit (.doe port.val (if i < 3 then doeEntry i else [0xFF, 0xFF, 0, 0]))) :=
  congrArg Host.Outcome.next (if_pos hup)

theorem exec_doeTableAccess (i : Nat) : exec (.doeTableAccess port i) s = .next (s.emit (.doe port.val (cdat.getD i [0xFF, 0xFF]))) :=
  congrArg Host.Outcome.next (if_pos hup)

end

end

/-- Settles O54: each request by the step that its connection has reached. -/
theorem spdmAndDoeRequestsAreAnswered : Obligations.SpdmAndDoeRequestsAreAnswered := by
  intro s port path
  exact ⟨fun i hup => ⟨exec_doeDiscovery hup i, exec_doeTableAccess hup i⟩, rfl, exec_spdmGetCapabilities,
    fun hcap => ⟨exec_spdmNegotiateAlgorithms hcap, fun _ _ => exec_spdmNegotiateAlgorithms_unoffered hcap⟩,
    exec_spdmGetCapabilities_early, exec_spdmNegotiateAlgorithms_early, fun hearly _ => exec_spdm_unnegotiated hearly,
    fun halg => ⟨exec_spdmGetDigests halg, exec_spdmGetCertificate halg, exec_spdmChallenge halg,
      fun _ => exec_spdmChallenge_otherSlot halg, exec_spdmGetMeasurements_count halg, fun _ => exec_spdmGetMeasurements halg,
      fun _ => exec_spdmGetMeasurements_unknown halg⟩,
    fun _ => ⟨rfl, rfl⟩⟩

/-! ## The management port (R518, R519) -/

section
variable {s : State} (hruns : s.mgmt.running = true)
include hruns

theorem exec_dadComplete (duplicate : Bool) (htests : s.get 0x1400 7 = 0) :
    exec (.dadComplete duplicate) s = .next (s.put 0x1400 7 (if duplicate then 2 else 1)) :=
  congrArg Host.Outcome.next (if_pos ⟨hruns, htests⟩)

theorem exec_neighbourSolicitation (a : Nat) (htested : s.get 0x1400 7 ≠ 0) :
    exec (.neighbourSolicitation a s.ownAddr) s = .next (s.rx.tx (.neighbourAdv a s.ownAddr)) :=
  congrArg Host.Outcome.next (if_neg (by simp [hruns, htested]))

theorem exec_echoRequest (a : Nat) (data : List Byte) (hpreferred : s.get 0x1400 7 = 1) :
    exec (.echoRequest a data) s = .next (s.rx.tx (.echoReply a data)) :=
  congrArg Host.Outcome.next (if_neg (by simp [hruns, hpreferred]))

section
variable (hfollows : s.follower = true)
include hfollows

theorem exec_plcaBeaconTimeout :
    exec .plcaBeaconTimeout s = .next (({ s with mgmt := { s.mgmt with beacon := false } }).put 0x1400 6 2) :=
  congrArg Host.Outcome.next (if_pos ⟨hruns, hfollows⟩)

theorem exec_plcaBeacon : exec .plcaBeacon s = .next (({ s with mgmt := { s.mgmt with beacon := true } }).put 0x1400 6 1) :=
  congrArg Host.Outcome.next (if_pos ⟨hruns, hfollows⟩)

end

end

/-- Settles O55: each row of a port that runs. -/
theorem managementPortAnswers : Obligations.ManagementPortAnswers := by
  intro s hruns
  exact ⟨fun dup htests => ⟨_, exec_dadComplete hruns dup htests, State.get_put .., rfl, rfl⟩,
    exec_neighbourSolicitation hruns, exec_echoRequest hruns,
    fun hfollows => ⟨⟨_, exec_plcaBeaconTimeout hruns hfollows, rfl, State.get_put .., rfl⟩,
      ⟨_, exec_plcaBeacon hruns hfollows, rfl, State.get_put .., rfl⟩⟩⟩

/-! ## The test access port (R520) -/

section
variable {s : State}

theorem exec_extest (b : Nat) : exec (.extest b) s =
    .next { s with tap := ⟨.extest, if s.power.pst = .aux then b else s.tap.boundary⟩ } := rfl

/-- EXTEST, HIGHZ and CLAMP act in AUX only. -/
theorem State.tapActs_pins (hir : s.tap.ir = .extest ∨ s.tap.ir = .highz ∨ s.tap.ir = .clamp) :
    s.tapActs = if s.power.pst = .aux then s.tap.ir else .bypass := by
  rcases hir with hir | hir | hir <;> simp only [State.tapActs, hir]

/-- An opcode of the device's own acts while debug access is enabled (R529). -/
theorem State.tapActs_priv {op : Nat} (hir : s.tap.ir = .priv op) : s.tapActs = if s.dbg.on then .priv op else .bypass := by
  simp only [State.tapActs, hir]

theorem State.tapActs_always (hir : s.tap.ir = .idcode ∨ s.tap.ir = .bypass ∨ s.tap.ir = .sample) : s.tapActs = s.tap.ir := by
  rcases hir with hir | hir | hir <;> simp only [State.tapActs, hir]

end

/-- Settles O56: what each row loads, and what then acts by the instruction that is loaded. -/
theorem testAccessPortSelectsItsRegister : Obligations.TestAccessPortSelectsItsRegister := by
  refine ⟨fun s => ⟨rfl, rfl, rfl, rfl, rfl, fun _ => rfl, fun b => ⟨rfl, fun haux => ?inAux, fun hother => ?elsewhere⟩⟩,
    fun s => ⟨fun hother hir => ?bypassed, fun haux hir => ?acts, fun op hir => ⟨fun hon => ?on, fun hoff => ?off⟩,
      State.tapActs_always⟩⟩
  case inAux => rw [exec_extest, if_pos haux]
  case elsewhere => rw [exec_extest, if_neg hother]
  case bypassed => rw [State.tapActs_pins hir, if_neg hother]
  case acts => rw [State.tapActs_pins hir, if_pos haux]
  case on => rw [State.tapActs_priv hir, if_pos hon]
  case off => rw [State.tapActs_priv hir, hoff]; rfl

end Sys2Proof.Machine

/-! Die clocks and power states (R26, R455, R482 to R484, R487, R488, R490, R494, R502, R518; O19, O20). The oscillator of the lighthouse
is trimmed by the reference (R455). -/

namespace Sys2Proof.Machine

open Sys2Proof.Claims

/-! ## A falling input (R484) -/

/-- Die d at 0.9 GHz, with the droop among the causes of its cap. -/
def State.slowDie (d : Nat) (s : State) : State :=
  (s.put 0xB011 (d + 1) 900).put 0xB012 (d + 1) (setBit (s.get 0xB012 (d + 1)) 7 true)

/-- The input has fallen: the loop's points are dropped, and the first n dies stand at 0.9 GHz. -/
def State.drooped (s : State) (n : Nat) : State :=
  iter n State.slowDie { s with power := { s.power with droop := true, underPeriods := 0, goal := [] } }

theorem exec_inputDroop {s : State} (hoff : s.power.pst ≠ .off) (haux : s.power.pst ≠ .aux) (hsleep : s.power.pst ≠ .sleep)
    (hfirst : s.power.droop = false) : exec .inputDroop s = .next ((s.drooped 16).logEv (pkgEv 0x8005 note)) :=
  congrArg Host.Outcome.next (if_neg (by simp [hoff, haux, hsleep, hfirst]))

theorem State.drooped_power (s : State) (n : Nat) :
    (s.drooped n).power = { s.power with droop := true, underPeriods := 0, goal := [] } :=
  iter_field State.power State.slowDie (fun _ _ => rfl) n _

theorem State.drooped_mem (s : State) (n : Nat) : (s.drooped n).mem = s.mem := iter_field State.mem State.slowDie (fun _ _ => rfl) n _

theorem State.slowDie_clock (d : Nat) (s : State) : (s.slowDie d).get 0xB011 (d + 1) = 900 := by
  rw [State.slowDie, State.get_put_ne _ _ (by unfold key; omega), State.get_put]

theorem State.slowDie_clock_ne {d e : Nat} (hd : d < 16) (he : e < 16) (hother : e ≠ d) (s : State) :
    (s.slowDie d).get 0xB011 (e + 1) = s.get 0xB011 (e + 1) := by
  rw [State.slowDie, State.get_put_ne _ _ (by unfold key; omega), State.get_put_ne _ _ (by unfold key; omega)]

theorem State.drooped_clock (s : State) {n d : Nat} (hn : n ≤ 16) (hd : d < n) : (s.drooped n).get 0xB011 (d + 1) = 900 := by
  induction n with
  | zero => omega
  | succ n ih =>
    change (State.slowDie n (s.drooped n)).get 0xB011 (d + 1) = 900
    by_cases hlast : d = n
    · rw [hlast, State.slowDie_clock]
    · rw [State.slowDie_clock_ne (by omega) (by omega) hlast, ih (by omega) (by omega)]

theorem exec_droopRecovery {s : State} (hdroop : s.power.droop = true) :
    exec .droopRecovery s = .next { s with power := { s.power with droop := false, underPeriods := 0 } } :=
  congrArg Host.Outcome.next (if_pos hdroop)

/-! ## One step of a die's clock (R482) -/

/-- One step of 100 MHz from f towards g, and never past it. -/
def stepTowards (g f : Nat) : Nat := if f < g then min g (f + 100) else if g < f then max g (f - 100) else f

theorem stepTowards_up {g f : Nat} (h : f ≤ g) : stepTowards g f = min g (f + 100) := by
  unfold stepTowards; split_ifs <;> omega

theorem stepTowards_down {g f : Nat} (h : g ≤ f) : stepTowards g f = max g (f - 100) := by
  unfold stepTowards; split_ifs <;> omega

/-- The state after a step of die d. -/
def State.clockStepped (s : State) (d : Nat) : State :=
  let f := s.get 0xB011 (d + 1)
  let g := s.goalPoint d
  if f < g then s.put 0xB011 (d + 1) (min g (f + 100)) else if g < f then s.put 0xB011 (d + 1) (max g (f - 100)) else s

theorem exec_dvfsStepDone {s : State} {d : DieId} (hruns : s.power.hmRunning = true) :
    exec (.dvfsStepDone d) s = .next (s.clockStepped d.val) :=
  congrArg Host.Outcome.next (if_neg (by simp [hruns]))

section
variable (s : State) (d : Nat)

theorem State.clockStepped_clock : (s.clockStepped d).get 0xB011 (d + 1) = stepTowards (s.goalPoint d) (s.get 0xB011 (d + 1)) := by
  unfold State.clockStepped stepTowards
  dsimp only
  split
  · rw [State.get_put]
  · split
    · rw [State.get_put]
    · rfl

theorem State.clockStepped_clock_ne {d e : Nat} (hother : e ≠ d) :
    (s.clockStepped d).get 0xB011 (e + 1) = s.get 0xB011 (e + 1) := by
  have hkey : key 0xB011 (e + 1) ≠ key 0xB011 (d + 1) := by unfold key; omega
  unfold State.clockStepped
  dsimp only
  split
  · exact State.get_put_ne _ _ hkey
  · split
    · exact State.get_put_ne _ _ hkey
    · rfl

theorem State.clockStepped_frame : (s.clockStepped d).mem = s.mem ∧ (s.clockStepped d).power = s.power := by
  unfold State.clockStepped
  dsimp only
  split
  · exact ⟨rfl, rfl⟩
  · split <;> exact ⟨rfl, rfl⟩

end

/-- Settles O19: the droop by an induction over the dies, the step by its one new point. -/
theorem dieClocksFollowDroopAndSteps : Obligations.DieClocksFollowDroopAndSteps := by
  refine ⟨fun s => ⟨fun hoff haux hsleep hfirst => ?droop, exec_droopRecovery⟩, fun s d hruns => ?step⟩
  case droop =>
    refine ⟨_, exec_inputDroop hoff haux hsleep hfirst, ?_, fun d => ?_, State.newest_logEv _ _, ?_⟩
    · rw [State.logEv_power, State.drooped_power]
    · rw [State.get_logEv _ _ (by decide) (by decide) (by omega)]
      exact s.drooped_clock le_rfl d.isLt
    · rw [State.logEv_mem, State.drooped_mem]
  case step =>
    refine ⟨_, exec_dvfsStepDone hruns, fun hup => ?_, fun hdown => ?_, fun e hother => ?_, s.clockStepped_frame d.val⟩
    · rw [State.clockStepped_clock, stepTowards_up hup]
    · rw [State.clockStepped_clock, stepTowards_down hdown]
    · exact s.clockStepped_clock_ne (fun h => hother (Fin.ext h))

/-! ## A period of the power loop (R483, R502) -/

/-- What a period changes none of once the clamps are measured: memory, the power state, the history of power, and the measures. -/
structure State.LoopKeeps (s t : State) : Prop where
  mem : t.mem = s.mem
  pst : t.power.pst = s.power.pst
  hist : t.power.hist = s.power.hist
  measures : ∀ a, a ≤ 4 → t.get 0xB020 a = s.get 0xB020 a

theorem loopKeeps_refl (s : State) : s.LoopKeeps s := ⟨rfl, rfl, rfl, fun _ _ => rfl⟩
theorem loopKeeps_ite {s t u : State} {c : Prop} [Decidable c] (ht : s.LoopKeeps t) (hu : s.LoopKeeps u) :
    s.LoopKeeps (if c then t else u) := by split <;> assumption

section
variable {z s : State} (h : z.LoopKeeps s)
include h

theorem State.put_loopKeeps {idx sub : Nat} (v : Nat) (hother : ∀ a, a ≤ 4 → key 0xB020 a ≠ key idx sub) :
    z.LoopKeeps (s.put idx sub v) :=
  ⟨h.mem, h.pst, h.hist, fun a ha => (s.get_put_ne v (hother a ha)).trans (h.measures a ha)⟩

theorem State.logEvery_loopKeeps (period : Nat) (e : Ev) : z.LoopKeeps (s.logEvery period e) := by
  have hlogged : z.LoopKeeps { s.logEv e with log := { (s.logEv e).log with lastAt := mset s.log.lastAt e.code s.timer } } :=
    ⟨(s.logEv_mem e).trans h.mem, (congrArg Power.pst (s.logEv_power e)).trans h.pst,
      (congrArg Power.hist (s.logEv_power e)).trans h.hist,
      fun a ha => (s.get_logEv e (by decide) (by decide) (by omega)).trans (h.measures a ha)⟩
  unfold State.logEvery
  split
  · exact loopKeeps_ite h hlogged
  · exact hlogged

theorem State.loopDie_loopKeeps (past up : Bool) (pkgCause : Nat) {d : Nat} (hd : d < 16) :
    z.LoopKeeps (s.loopDie past up pkgCause d) := by
  unfold State.loopDie
  extract_lets
  refine State.put_loopKeeps ?point _ (fun _ _ => by unfold key; omega)
  case point => exact ⟨h.mem, h.pst, h.hist, h.measures⟩

theorem State.loopDies_loopKeeps (past up : Bool) (pkgCause : Nat) {n : Nat} (hn : n ≤ 16) :
    z.LoopKeeps (iter n (fun d s => s.loopDie past up pkgCause d) s) := by
  induction n with
  | zero => exact h
  | succ n ih => exact State.loopDie_loopKeeps (ih (by omega)) past up pkgCause (by omega)

theorem State.loopLog_loopKeeps (causes : List Nat) : z.LoopKeeps (s.loopLog causes) := by
  have hcurrent := loopKeeps_ite (c := causes.contains 1 ∨ causes.contains 2)
    (State.logEvery_loopKeeps h 1000000000 (pkgEv 0x8006 note)) h
  have hpower := loopKeeps_ite (c := causes.contains 0) (State.logEvery_loopKeeps hcurrent 1000000000 (pkgEv 0x8007 note)) hcurrent
  exact loopKeeps_ite (State.logEvery_loopKeeps hpower _ _) hpower

end

/-- The clamps as a period measures them (R480). -/
def State.clampsMeasured (s : State) (ne sw neDa swDa : Nat) : State :=
  let hist := ((ne * neDa + sw * swDa) :: s.power.hist).take 100
  (((({ s with power := { s.power with hist := hist } }).put 0xB020 1 (meanPower hist / 10000)).put 0xB020 2 (min ne sw)).put
    0xB020 3 neDa).put 0xB020 4 swDa

section
variable (s : State) (ne sw neDa swDa : Nat)

theorem State.clampsMeasured_get : (s.clampsMeasured ne sw neDa swDa).get 0xB020 2 = min ne sw
    ∧ (s.clampsMeasured ne sw neDa swDa).get 0xB020 3 = neDa ∧ (s.clampsMeasured ne sw neDa swDa).get 0xB020 4 = swDa
    ∧ (s.clampsMeasured ne sw neDa swDa).get 0xB020 1 = meanPower (s.clampsMeasured ne sw neDa swDa).power.hist / 10000 := by
  unfold State.clampsMeasured
  refine ⟨?_, ?_, State.get_put .., ?_⟩
  · rw [State.get_put_ne _ _ (by decide), State.get_put_ne _ _ (by decide), State.get_put]
  · rw [State.get_put_ne _ _ (by decide), State.get_put]
  · rw [State.get_put_ne _ _ (by decide), State.get_put_ne _ _ (by decide), State.get_put_ne _ _ (by decide), State.get_put]
    rfl

/-- The rest of the period works on the points, the gate, the causes, their times and the log. -/
theorem State.powerTick_loopKeeps : (s.clampsMeasured ne sw neDa swDa).LoopKeeps (s.powerTick ne sw neDa swDa) := by
  unfold State.powerTick
  extract_lets now hist mean power₀ filed measured limits causes past under periods low gate power₁ gated pkgCause dies held
    capped counted
  have hgated : measured.LoopKeeps gated := ⟨rfl, rfl, rfl, fun _ _ => rfl⟩
  have hdies : measured.LoopKeeps dies := State.loopDies_loopKeeps hgated _ _ _ le_rfl
  have hcapped : measured.LoopKeeps capped := loopKeeps_ite (State.put_loopKeeps hdies _ (fun _ _ => by unfold key; omega)) hdies
  have hcounted : measured.LoopKeeps counted :=
    loopKeeps_ite hcapped (State.put_loopKeeps hcapped _ (fun _ _ => by unfold key; omega))
  exact State.loopLog_loopKeeps hcounted causes

theorem exec_powerLoopTick (hruns : s.power.hmRunning = true) :
    exec (.powerLoopTick ne sw neDa swDa) s = .next (s.powerTick ne sw neDa swDa) :=
  congrArg Host.Outcome.next (if_pos hruns)

end

/-! ## Converters, NAP, IDLE and the orderly shutdown (R26, R487, R488, R490) -/

section
variable {s : State}

theorem exec_converterFailure {n : Fin 24} (hoff : s.power.pst ≠ .off) : exec (.converterFailure n) s =
    .next ((s.put 0xB020 5 (setBit (s.get 0xB020 5) n.val false)).logEv
      { code := 0x8004, severity := warning, kind := 8, id := n.val }) :=
  congrArg Host.Outcome.next (if_neg hoff)

theorem exec_napEntry (hready : s.napReady = true) : exec .napEntry s =
    .next (({ s with power := { s.power with napHeld := false, napFrom := s.power.pst } }).setPst .nap).sweepTransfers :=
  congrArg Host.Outcome.next (if_pos hready)

theorem exec_idleTimeout (hrun : s.power.pst = .run) (hrests : s.atWork = false) : exec .idleTimeout s = .next (s.setPst .idle) :=
  congrArg Host.Outcome.next (if_pos ⟨hrun, by simp [hrests]⟩)

/-- What an orderly shutdown saves before the fall (R162, R470, R490). -/
def State.shutSaved (s : State) : State :=
  { s.persistRing.saveAgeing with
    store := { s.persistRing.saveAgeing.store with orderly := !s.docks.any (fun e => e.2.pass.isSome) } }

theorem exec_shutdownDone (hbusy : s.power.shutdownBusy = true) (hready : s.power.pst = .ready) :
    exec .shutdownDone s = .next (s.shutSaved.fallTo .aux 0) :=
  congrArg Host.Outcome.next (if_neg (by simp [hbusy, hready]))

/-! ## The 25 MHz reference (R455, R494, R518) -/

/-- The reference is gone: the management port stops, and the oscillator runs free. -/
def State.unreferenced (s : State) : State :=
  { s with power := { s.power with mref := false }, mgmt := ⟨false, false⟩, lh := { s.lh with trimmed := false } }

theorem exec_managementReferenceLoss (hmref : s.power.mref = true) (hoff : s.power.pst ≠ .off) :
    exec .managementReferenceLoss s = .next (s.unreferenced.logEvery 0 (pkgEv 0x810A note)) :=
  congrArg Host.Outcome.next ((if_neg (by simp [hmref])).trans (if_neg hoff))

/-- The reference is back. -/
def State.referenced (s : State) : State := { s with power := { s.power with mref := true } }

theorem exec_managementReferenceReturn (hmref : s.power.mref = false) :
    exec .managementReferenceReturn s = .next s.referenced.mgmtStart :=
  congrArg Host.Outcome.next (if_neg (by simp [hmref]))

theorem exec_oscRecalibration (hmref : s.power.mref = true) (hoff : s.power.pst ≠ .off) :
    exec .oscRecalibration s = .next { s with lh := { s.lh with trimmed := true } } :=
  congrArg Host.Outcome.next (if_pos ⟨hmref, hoff⟩)

/-- An event of its own period changes what an event does, and no power, management port or lighthouse. -/
theorem State.logEvery_frame (s : State) (period : Nat) (e : Ev) : (s.logEvery period e).power = s.power
    ∧ (s.logEvery period e).mgmt = s.mgmt ∧ (s.logEvery period e).lh = s.lh := by
  have hlogged := And.intro (s.logEv_power e) (And.intro (s.logEv_mgmt e) (s.logEv_lh e))
  unfold State.logEvery
  split
  · split
    · exact ⟨rfl, rfl, rfl⟩
    · exact hlogged
  · exact hlogged

theorem State.logEvery_newest {period : Nat} {e : Ev} (hfirst : mget? s.log.lastAt e.code = none) :
    newest (s.logEvery period e) e.code e.severity := by
  have hlogged := State.newest_logEv s e
  unfold State.logEvery
  rw [hfirst]
  exact hlogged

theorem State.mgmtStart_mem (s : State) : s.mgmtStart.mem = s.mem := by
  unfold State.mgmtStart; split <;> rfl

end

/-- Settles O20: each row where its condition holds, by the operation that it is. -/
theorem powerStatesChangeOnTheirConditions : Obligations.PowerStatesChangeOnTheirConditions := by
  refine ⟨fun s => ⟨fun ne sw neDa swDa hruns => ?tick, fun n hoff => ?converter, fun hready => ?nap, fun hrun hrests => ?idle,
    fun hbusy hready => ?shutdown⟩, fun s => ⟨fun hmref hoff => ?loss, fun hmref => ?returns, exec_oscRecalibration⟩⟩
  case tick =>
    obtain ⟨hmem, hpst, hhist, hmeasures⟩ := s.powerTick_loopKeeps ne sw neDa swDa
    obtain ⟨hmv, hne, hsw, hmean⟩ := s.clampsMeasured_get ne sw neDa swDa
    refine ⟨_, exec_powerLoopTick s ne sw neDa swDa hruns, (hmeasures 2 (by decide)).trans hmv, (hmeasures 3 (by decide)).trans hne,
      (hmeasures 4 (by decide)).trans hsw, hhist, ?_, hpst, hmem⟩
    rw [hhist, hmeasures 1 (by decide), hmean]
  case converter =>
    refine ⟨_, exec_converterFailure hoff, ?_, State.newest_logEv _ _, State.logEv_mem _ _, State.logEv_power _ _⟩
    rw [State.get_logEv _ _ (by decide) (by decide) (by decide), State.get_put]
  case nap =>
    have hpower := State.setPst_power { s with power := { s.power with napHeld := false, napFrom := s.power.pst } } .nap
    exact ⟨_, exec_napEntry hready, congrArg Power.pst hpower, congrArg Power.napHeld hpower, congrArg Power.napFrom hpower,
      State.setPst_mem _ _, State.setPst_tiles _ _⟩
  case idle =>
    exact ⟨_, exec_idleTimeout hrun hrests, s.setPst_pst _, s.setPst_get_state _ (by simp [hrun]), s.setPst_mem _, s.setPst_tiles _⟩
  case shutdown =>
    exact ⟨_, exec_shutdownDone hbusy hready, State.fallTo_pst _ _ _, State.fallTo_cause _ _ _, State.fallTo_orderly _ _ _⟩
  case loss =>
    obtain ⟨hpower, hmgmt, hlh⟩ := s.unreferenced.logEvery_frame 0 (pkgEv 0x810A note)
    exact ⟨_, exec_managementReferenceLoss hmref hoff, congrArg Power.mref hpower, congrArg Mgmt.running hmgmt,
      congrArg Lighthouse.trimmed hlh, fun hfirst => State.logEvery_newest hfirst⟩
  case returns =>
    obtain ⟨hpower, -, -, -⟩ := s.referenced.mgmtStart_frame
    refine ⟨_, exec_managementReferenceReturn hmref, congrArg Power.mref hpower, by rw [hpower]; rfl, fun hoff => ?_,
      State.mgmtStart_mem _⟩
    exact (State.mgmtStart_running (s := s.referenced) hoff).trans (Bool.or_true _)

end Sys2Proof.Machine

/-! The lighthouse (R455, R459, R461, R468, R470, R471; O51): rounds, results, the estimate of the risk, ageing, and the read of a
converter's data register. A result's triggers of calibration (R166, R169) are the model's reading (logs 52, 55). -/

namespace Sys2Proof.Machine

/-! ## Rounds and results (R459, R461, R462) -/

section
variable {s : State} (hoff : s.power.pst ≠ .off)
include hoff

theorem exec_sequencerRound (h0 : s.lh.conv0.todo = []) (h1 : s.lh.conv1.todo = []) : exec .sequencerRound s = .next s.startRound :=
  congrArg Host.Outcome.next (if_neg (by simp [hoff, h0, h1]))

omit hoff in
/-- A round that runs is not cut off by the next. -/
theorem exec_sequencerRound_busy (hbusy : s.lh.conv0.todo ≠ [] ∨ s.lh.conv1.todo ≠ []) : exec .sequencerRound s = .next s :=
  congrArg Host.Outcome.next (if_pos (.inr hbusy))

theorem exec_adcConversionDone {conv : Fin 2} {ch : Nat} {rest : List Nat} (code : Int) {u : State}
    (htodo : (s.conv conv.val).todo = ch :: rest) (hu : s.conversion conv.val code = u) : exec (.adcConversionDone conv code) s =
      .next (if ch < 16 ∧ u.power.hmRunning then
          (if (u.noteSettle ch).operating then (u.noteSettle ch).tempTrigger ch else u.noteSettle ch)
        else u) := by
  have hrow : exec (.adcConversionDone conv code) s = execAdcConversionDone conv code s := rfl
  simp only [hrow, execAdcConversionDone, if_neg hoff, htodo, hu]

/-! ## The estimate of the risk (R471) -/

theorem exec_riskUpdate (haux : s.power.pst ≠ .aux) (hsleep : s.power.pst ≠ .sleep) :
    exec .riskUpdate s = .next s.riskCompute.riskRequest :=
  congrArg Host.Outcome.next (if_neg (by simp [hoff, haux, hsleep]))

/-! ## The end of a day (R470) -/

/-- The means of the day are kept. -/
def State.dayKept (s : State) : State :=
  { s with lh := { s.lh with ageing := s.lh.ageing.map (fun (e : Nat × AgeInd) => (e.1, e.2.dayEnd)) } }

theorem exec_ageingDayEnd : exec .ageingDayEnd s = .next s.dayKept.saveAgeing := congrArg Host.Outcome.next (if_neg hoff)

end

/-- RISK and its five terms. -/
def State.putRisk (s : State) (t e k a u : Nat) : State :=
  (((((s.put 0x9500 2 t).put 0x9500 3 e).put 0x9500 4 k).put 0x9500 5 a).put 0x9500 6 u).put 0x9500 1 (min 65535 (t + e + k + a + u))

theorem State.riskCompute_eq (s : State) : ∃ t e k a u, s.riskCompute = s.riskDecay.putRisk t e k a u := ⟨_, _, _, _, _, rfl⟩

theorem State.putRisk_sum (s : State) (t e k a u : Nat) : (s.putRisk t e k a u).get 0x9500 1 =
    min 65535 ((s.putRisk t e k a u).get 0x9500 2 + (s.putRisk t e k a u).get 0x9500 3 + (s.putRisk t e k a u).get 0x9500 4
      + (s.putRisk t e k a u).get 0x9500 5 + (s.putRisk t e k a u).get 0x9500 6) := by
  have hkey : ∀ {a b : Nat}, a < 256 → b < 256 → a ≠ b → key 0x9500 a ≠ key 0x9500 b := key_sub_ne
  simp [State.putRisk, State.get_put_ne, hkey]

/-- The sum of the terms is in RISK. -/
theorem State.riskCompute_sum (s : State) : s.riskCompute.get 0x9500 1 =
    min 65535 (s.riskCompute.get 0x9500 2 + s.riskCompute.get 0x9500 3 + s.riskCompute.get 0x9500 4 + s.riskCompute.get 0x9500 5
      + s.riskCompute.get 0x9500 6) := by
  obtain ⟨t, e, k, a, u, heq⟩ := s.riskCompute_eq
  rw [heq, State.putRisk_sum]

/-! ## The sample of a minute (R468) -/

/-- The margins of the links and the slowdown of the dies, as a minute measures them. -/
def State.minuteMeasured (s : State) (slow : List Int) : State :=
  iter 32 (fun i s => s.put 0x9301 (i + 1) (ofSigned 16 (clampInt (-32768) 32767 (slow.getD i 0)))) s.measureMargins

/-- The values of a minute join their indicators. -/
def State.minuteSampled (s : State) (slow : List Int) (drift : List (Nat × Nat)) (corrected : List Nat) : State :=
  let u := s.minuteMeasured slow
  { u with lh := { u.lh with ageing := (u.ageValues slow drift corrected).foldl addSample u.lh.ageing } }

theorem exec_ageingSample {s : State} (slow : List Int) (drift : List (Nat × Nat)) (corrected : List Nat)
    (hruns : s.power.hmRunning = true) :
    exec (.ageingSample slow drift corrected) s = .next (s.minuteSampled slow drift corrected).refreshEol :=
  congrArg Host.Outcome.next (if_neg (by simp [hruns]))

/-! ## The read of a data register (R459) -/

section
variable {s : State} {conv : Fin 2}

/-- The register without VALID and OVR, its bits 31:30. -/
def State.dataTaken (s : State) (conv : Nat) : State := s.put (0x9001 + conv) 0 (bits (s.get (0x9001 + conv) 0) 29 0)

theorem State.dataTaken_get (s : State) (conv : Nat) : (s.dataTaken conv).get (0x9001 + conv) 0 = s.get (0x9001 + conv) 0 % 2 ^ 30 :=
  State.get_put ..

section
variable {p : HostPort}

theorem exec_adcDataRead_win {o : Option ObjDef} (hready : s.windowReady p.val = true)
    (haccess : s.readAccess (.win p) (0x9001 + conv.val) 0 = .ok o) : exec (.adcDataRead (.win p) conv) s =
      .next ((s.dataTaken conv.val).emit (.winData p.val (leBytes 4 (s.get (0x9001 + conv.val) 0)))) := by
  have hrow : exec (.adcDataRead (.win p) conv) s = execAdcDataRead (.win p) conv s := rfl
  simp only [hrow, execAdcDataRead, hready, haccess, Bool.not_true, Bool.false_eq_true, if_false, State.dataTaken]

/-- A window that is not ready reads ones (R51). -/
theorem exec_adcDataRead_unready (hready : s.windowReady p.val = false) :
    exec (.adcDataRead (.win p) conv) s = .next (s.emit (.winData p.val [0xFF, 0xFF, 0xFF, 0xFF])) :=
  congrArg Host.Outcome.next (if_pos (by simp [hready]))

end

theorem exec_adcDataRead_odp {o : Option ObjDef} (hoff : s.power.pst ≠ .off)
    (haccess : s.readAccess .odp (0x9001 + conv.val) 0 = .ok o) : exec (.adcDataRead .odp conv) s =
      .next ((s.dataTaken conv.val).emit (.readData .odp (leBytes 4 (s.get (0x9001 + conv.val) 0)))) := by
  have hrow : exec (.adcDataRead .odp conv) s = execAdcDataRead .odp conv s := rfl
  simp only [hrow, execAdcDataRead, haccess, if_neg hoff, State.dataTaken]

end

/-- Settles O51: the rows of a round, of a minute and of a day, and the read of a data register on each path. -/
theorem lighthouseWorksItsRounds : Obligations.LighthouseWorksItsRounds := by
  refine ⟨fun s hoff => ⟨exec_sequencerRound hoff, exec_sequencerRound_busy,
      fun conv code ch rest htodo => exec_adcConversionDone hoff code htodo rfl,
      fun haux hsleep => ⟨exec_riskUpdate hoff haux hsleep, s.riskCompute_sum⟩, exec_ageingSample, ?day⟩,
    fun s conv o => ⟨fun p hready haccess => ?window, fun p => exec_adcDataRead_unready, fun hoff haccess => ?odp⟩⟩
  case day => exact ⟨_, exec_ageingDayEnd hoff, rfl, rfl, rfl, rfl⟩
  case window => exact ⟨_, exec_adcDataRead_win hready haccess, s.dataTaken_get _, rfl, rfl, rfl⟩
  case odp => exact ⟨_, exec_adcDataRead_odp hoff haccess, s.dataTaken_get _, rfl, rfl, rfl⟩

end Sys2Proof.Machine

/-! The CXL ports: reset, training and the link (R504, R507 to R509, R511; O52). -/

namespace Sys2Proof.Machine

/-! ## The state of a port -/

@[simp] theorem State.hl_setHl (s : State) (p : Nat) (h : HostSt) : (s.setHl p h).hl p = h := by
  unfold State.setHl State.hl; split <;> simp [*]

/-- A port's state is not the other's. -/
theorem State.hl_setHl_ne (s : State) {p q : HostPort} (h : HostSt) (hother : q ≠ p) : (s.setHl p.val h).hl q.val = s.hl q.val := by
  have hval : q.val ≠ p.val := Fin.val_ne_of_ne hother
  unfold State.setHl State.hl
  by_cases hp : p.val = 0
  · have hq : q.val ≠ 0 := by omega
    rw [if_pos hp, if_neg hq, if_neg hq]
  · have hq : q.val = 0 := by omega
    rw [if_neg hp, if_pos hq, if_pos hq]

@[simp] theorem State.hl_put (s : State) (idx sub v q : Nat) : (s.put idx sub v).hl q = s.hl q := rfl

/-! ## A port's link goes down (R511, R531) -/

/-- The snoops of port p's host that an access waits for are no longer waited for. -/
def HostSt.forgets (h : HostSt) (p : Nat) : HostSt :=
  { h with waiting := h.waiting.map (fun w => { w with lines := w.lines.filter (fun e => e.1 != p) }) }

theorem HostSt.forgets_of_none {h : HostSt} (hnone : h.waiting = []) (p : Nat) : h.forgets p = h := by
  unfold HostSt.forgets
  rw [hnone, List.map_nil, ← hnone]

theorem State.linkDown_other (s : State) {p q : HostPort} (hother : q ≠ p) :
    (s.linkDown p.val).hl q.val = (s.hl q.val).forgets p.val := by
  have hval : q.val ≠ p.val := Fin.val_ne_of_ne hother
  have hq : 1 - p.val = q.val := by omega
  unfold State.linkDown
  dsimp only
  rw [hq, State.hl_setHl, State.hl_setHl_ne _ _ hother, State.hl_put]
  split <;> rfl

theorem State.linkDown_frame (s : State) (p : Nat) : (s.linkDown p).mem = s.mem ∧ (s.linkDown p).tiles = s.tiles := by
  unfold State.linkDown
  dsimp only
  split <;> simp

/-! ## PERST (R507, R508) -/

/-- The end of a port's firmware download touches no memory, no tile and no port. -/
theorem State.fwCutPort_frame (s : State) (p : Nat) : (s.fwCutPort p).mem = s.mem ∧ (s.fwCutPort p).tiles = s.tiles
    ∧ (s.fwCutPort p).hl0 = s.hl0 ∧ (s.fwCutPort p).hl1 = s.hl1 := by
  have hcut : ∀ w, (s.fwCut w).mem = s.mem ∧ (s.fwCut w).tiles = s.tiles ∧ (s.fwCut w).hl0 = s.hl0 ∧ (s.fwCut w).hl1 = s.hl1 := by
    intro w; unfold State.fwCut; split <;> exact ⟨rfl, rfl, rfl, rfl⟩
  unfold State.fwCutPort
  split
  · split
    · exact hcut _
    · exact ⟨rfl, rfl, rfl, rfl⟩
  · exact ⟨rfl, rfl, rfl, rfl⟩

theorem State.fwCutPort_hl (s : State) (p q : Nat) : (s.fwCutPort p).hl q = s.hl q := by
  obtain ⟨-, -, h0, h1⟩ := s.fwCutPort_frame p
  unfold State.hl; rw [h0, h1]

/-- An object takes its default. -/
def State.toDefault (s : State) (idx sub : Nat) : State := { s with dict := merase s.dict (key idx sub) }

theorem State.toDefault_get (s : State) (idx sub : Nat) : (s.toDefault idx sub).get idx sub = objDefault (key idx sub) := by
  simp only [State.get, State.getK, State.toDefault, mget?_merase]

theorem State.toDefault_get_ne (s : State) {idx sub i a : Nat} (hother : key i a ≠ key idx sub) :
    (s.toDefault idx sub).get i a = s.get i a := by
  simp only [State.get, State.getK, State.toDefault, mget?_merase_ne _ hother]

/-- The objects of port p's window take their defaults. -/
def State.windowReset (s : State) (p : Nat) : State := iter 4 (fun i s => s.toDefault (0x1200 + p) (i + 1)) s

theorem State.windowReset_ready (s : State) (p : HostPort) : (s.windowReset p.val).get (0x1200 + p.val) 1 = 0 := by
  have hdefault : ∀ p : HostPort, objDefault (key (0x1200 + p.val) 1) = 0 := by decide
  have hkey : ∀ b, 1 < b → b < 256 → key (0x1200 + p.val) 1 ≠ key (0x1200 + p.val) b := fun b h1 hb =>
    key_sub_ne (by decide) hb (by omega)
  unfold State.windowReset
  simp only [iter]
  rw [State.toDefault_get_ne _ (hkey 4 (by decide) (by decide)), State.toDefault_get_ne _ (hkey 3 (by decide) (by decide)),
    State.toDefault_get_ne _ (hkey 2 (by decide) (by decide)), State.toDefault_get, hdefault]

/-- Port p as its reset finds it: the link down, its firmware download over, its window closed. -/
def State.portClosed (s : State) (p : Nat) : State := ((s.linkDown p).fwCutPort p).windowReset p

/-- Port p right after its reset. -/
def State.portReset (s : State) (p : Nat) : State :=
  (s.portClosed p).setHl p { HostSt.reset with perst := true, wakeN := ((s.portClosed p).hl p).wakeN }

theorem exec_hlPerstAssert (s : State) (p : HostPort) : exec (.hlPerstAssert p) s = .next (s.portReset p.val).hdmWakeAll := rfl

theorem State.portReset_own (s : State) (p : Nat) :
    (s.portReset p).hl p = { HostSt.reset with perst := true, wakeN := ((s.portClosed p).hl p).wakeN } := State.hl_setHl ..

theorem State.portReset_other (s : State) {p q : HostPort} (hother : q ≠ p) :
    (s.portReset p.val).hl q.val = (s.hl q.val).forgets p.val := by
  rw [State.portReset, State.hl_setHl_ne _ _ hother]
  exact (State.fwCutPort_hl _ _ _).trans (s.linkDown_other hother)

theorem State.portReset_ready (s : State) (p : HostPort) : (s.portReset p.val).get (0x1200 + p.val) 1 = 0 := by
  rw [State.portReset, State.setHl_get]
  exact State.windowReset_ready _ p

theorem State.portReset_frame (s : State) (p : Nat) : (s.portReset p).tiles = s.tiles ∧ (s.portReset p).mem = s.mem := by
  obtain ⟨hmem, htiles⟩ := s.linkDown_frame p
  obtain ⟨hmem', htiles', -, -⟩ := (s.linkDown p).fwCutPort_frame p
  rw [State.portReset, State.setHl_tiles, State.setHl_mem]
  exact ⟨htiles'.trans htiles, hmem'.trans hmem⟩

/-! ## The link (R504, R507 to R509) -/

/-- The link of port p in L0, at a rate and a width: its wake is over. -/
def State.linkedAt (s : State) (p rate width : Nat) : State :=
  let s := ((s.put (0x1300 + p) 1 2).put (0x1300 + p) 2 rate).put (0x1300 + p) 3 width
  s.setHl p { s.hl p with wakeN := false }

/-- Past start-up, or while state is restored, the window of port p opens. -/
def State.windowOpened (s : State) (p : Nat) : State :=
  if s.operating ∨ s.power.pst = .nap ∨ s.power.restoreOpen then s.put (0x1200 + p) 1 1 else s

section
variable {s : State} {p : HostPort}

theorem exec_cxlLinkUp {rate width : Nat} (hreleased : (s.hl p.val).perst = false) (hpower : s.power.pwrGood = true)
    (htrains : s.get (0x1300 + p.val) 1 = 1) (hsupported : linkSupported rate width = true) :
    exec (.cxlLinkUp p rate width) s = .next ((s.linkedAt p.val rate width).windowOpened p.val) :=
  congrArg Host.Outcome.next (if_neg (by simp [hreleased, hpower, htrains, hsupported]))

theorem exec_cxlLinkDown (hup : s.linkUp p.val = true) :
    exec (.cxlLinkDown p) s = .next ((s.linkDown p.val).portTrains p.val).hdmWakeAll :=
  congrArg Host.Outcome.next (if_pos hup)

theorem exec_wakeNTimeout : exec (.wakeNTimeout p) s = .next (s.setHl p.val { s.hl p.val with wakeN := false }) := rfl

theorem State.linkedAt_link (s : State) (p rate width : Nat) : (s.linkedAt p rate width).get (0x1300 + p) 1 = 2
    ∧ (s.linkedAt p rate width).get (0x1300 + p) 2 = rate ∧ (s.linkedAt p rate width).get (0x1300 + p) 3 = width := by
  have hkey : ∀ {a b : Nat}, a < 256 → b < 256 → a ≠ b → key (0x1300 + p) a ≠ key (0x1300 + p) b := key_sub_ne
  simp [State.linkedAt, State.get_put_ne, hkey]

theorem State.linkedAt_wakeN (s : State) (p rate width : Nat) : ((s.linkedAt p rate width).hl p).wakeN = false :=
  congrArg HostSt.wakeN (State.hl_setHl ..)

theorem State.linkedAt_frame (s : State) (p rate width : Nat) : (s.linkedAt p rate width).mem = s.mem
    ∧ (s.linkedAt p rate width).power = s.power := ⟨State.setHl_mem .., State.setHl_power ..⟩

theorem State.windowOpened_frame (s : State) (p : Nat) : (s.windowOpened p).mem = s.mem ∧ ∀ q, (s.windowOpened p).hl q = s.hl q := by
  unfold State.windowOpened; split <;> exact ⟨rfl, fun _ => rfl⟩

/-- An opening window is no object of a link. -/
theorem State.windowOpened_link (s : State) (p : HostPort) {a : Nat} (ha : a < 256) :
    (s.windowOpened p.val).get (0x1300 + p.val) a = s.get (0x1300 + p.val) a := by
  unfold State.windowOpened
  split
  · exact State.get_put_ne _ _ (by unfold key; omega)
  · rfl

theorem State.windowOpened_ready (hoperating : s.operating = true) (p : Nat) : (s.windowOpened p).windowReady p = true := by
  rw [State.windowOpened, if_pos (.inl hoperating), State.windowReady, State.get_put]; rfl

end

/-- Settles O52: each row of a port by the state it leaves the port in. -/
theorem cxlPortsResetTrainAndComeUp : Obligations.CxlPortsResetTrainAndComeUp := by
  intro s p
  refine ⟨⟨_, exec_hlPerstAssert s p, ?reset⟩, rfl, fun rate width hreleased hpower htrains hsupported => ?up, exec_cxlLinkDown,
    ⟨_, exec_wakeNTimeout, ?wake⟩⟩
  case reset =>
    rw [State.portReset_own]
    refine ⟨rfl, rfl, rfl, rfl, s.portReset_ready p, fun q hother => ?_, s.portReset_frame p.val⟩
    rw [s.portReset_other hother]
    exact ⟨rfl, fun hnone => HostSt.forgets_of_none hnone p.val⟩
  case up =>
    obtain ⟨hstate, hrate, hwidth⟩ := s.linkedAt_link p.val rate width
    obtain ⟨hmem, hpower'⟩ := s.linkedAt_frame p.val rate width
    obtain ⟨hmem', hhl⟩ := (s.linkedAt p.val rate width).windowOpened_frame p.val
    refine ⟨_, exec_cxlLinkUp hreleased hpower htrains hsupported, ?_, ?_, ?_, ?_, fun hoperating => ?_, hmem'.trans hmem⟩
    · rw [State.linkUp, State.windowOpened_link _ _ (by decide), hstate]; rfl
    · rw [State.windowOpened_link _ _ (by decide), hrate]
    · rw [State.windowOpened_link _ _ (by decide), hwidth]
    · rw [hhl, State.linkedAt_wakeN]
    · exact State.windowOpened_ready (by rw [State.operating, hpower']; exact hoperating) _
  case wake =>
    exact ⟨congrArg HostSt.wakeN (State.hl_setHl ..), State.setHl_dict .., State.setHl_mem .., State.setHl_out ..⟩

end Sys2Proof.Machine

/-! What hosts ask of their ports: configuration, accesses to memory and the answers to snoops (R507, R511), and completion notices (R516);
O53. -/

namespace Sys2Proof.Machine

/-! ## Configuration and host accesses (R507, R511) -/

section
variable {s : State} {p : HostPort}

section
variable {req : CfgReq} (hreleased : (s.hl p.val).perst = false) (hpower : s.power.pwrGood = true)
include hreleased hpower

theorem exec_cxlConfigRequest : exec (.cxlConfigRequest p req) s =
    .next (if s.windowReady p.val then s.cfgServe p.val req else s.emit (.rrs p.val)) :=
  congrArg Host.Outcome.next (if_neg (by simp [hreleased, hpower]))

theorem exec_cxlConfigRequest_ready (hready : s.windowReady p.val = true) :
    exec (.cxlConfigRequest p req) s = .next (s.cfgServe p.val req) := by
  rw [exec_cxlConfigRequest hreleased hpower, if_pos hready]

theorem exec_cxlConfigRequest_unready (hready : s.windowReady p.val = false) :
    exec (.cxlConfigRequest p req) s = .next (s.emit (.rrs p.val)) := by
  rw [exec_cxlConfigRequest hreleased hpower, hready]; rfl

end

/-- Whether an access to a line waits, on either port. -/
def State.lineAwaited (s : State) (line : Nat) : Bool := ((s.hl 0).waiting ++ (s.hl 1).waiting).any (fun w => w.pa == line)

section
variable {pa : Nat} {op : HdmOp} (hup : s.linkUp p.val = true) (hinside : pa / 64 * 64 + 64 ≤ min (s.hl p.val).decoder reservedBase)
  (hawake : s.operating = true ∨ s.power.pst = .nap)
include hup hinside hawake

theorem exec_hdmAccess : exec (.hdmAccess p pa op) s =
    .next (if s.lineAwaited (pa / 64 * 64) then s.hdmQueue p.val (pa / 64 * 64) op []
      else if s.hdmSnoops p.val (pa / 64 * 64) op = [] then s.hdmServe p.val (pa / 64 * 64) op
      else (s.sendSnoops (s.hdmSnoops p.val (pa / 64 * 64) op)).hdmQueue p.val (pa / 64 * 64) op
        (s.hdmSnoops p.val (pa / 64 * 64) op)) := by
  refine congrArg Host.Outcome.next (if_neg ?reached)
  case reached =>
    rintro (hdown | houtside | hasleep)
    · simp [hup] at hdown
    · exact Nat.not_lt.mpr hinside houtside
    · simp [hawake] at hasleep

theorem exec_hdmAccess_queued (hawaited : s.lineAwaited (pa / 64 * 64) = true) :
    exec (.hdmAccess p pa op) s = .next (s.hdmQueue p.val (pa / 64 * 64) op []) := by
  rw [exec_hdmAccess hup hinside hawake, if_pos hawaited]

section
variable (hfree : s.lineAwaited (pa / 64 * 64) = false)
include hfree

theorem exec_hdmAccess_served (hsnoops : s.hdmSnoops p.val (pa / 64 * 64) op = []) :
    exec (.hdmAccess p pa op) s = .next (s.hdmServe p.val (pa / 64 * 64) op) := by
  rw [exec_hdmAccess hup hinside hawake, if_neg (Bool.not_eq_true _ ▸ hfree), if_pos hsnoops]

theorem exec_hdmAccess_snoops (hsnoops : s.hdmSnoops p.val (pa / 64 * 64) op ≠ []) : exec (.hdmAccess p pa op) s =
    .next ((s.sendSnoops (s.hdmSnoops p.val (pa / 64 * 64) op)).hdmQueue p.val (pa / 64 * 64) op
      (s.hdmSnoops p.val (pa / 64 * 64) op)) := by
  rw [exec_hdmAccess hup hinside hawake, if_neg (Bool.not_eq_true _ ▸ hfree), if_neg hsnoops]

end

end

/-! ## Answers to snoops (R511) -/

/-- The answer of port p's host for a line is no longer waited for. -/
def HostSt.answered (h : HostSt) (p line : Nat) : HostSt :=
  { h with waiting := h.waiting.map (fun w => { w with lines := w.lines.filter (fun e => e != (p, line)) }) }

/-- A line leaves the filter of port p, and no access waits for its answer. -/
def State.lineReleased (s : State) (p line : Nat) : State :=
  let s := s.setHl p { s.hl p with filter := merase (s.hl p).filter line }
  { s with hl0 := s.hl0.answered p line, hl1 := s.hl1.answered p line }

theorem State.hdmWakeAll_of_none (hnone : ∀ q, (s.hl q).waiting = []) : s.hdmWakeAll = s := by
  simp only [State.hdmWakeAll, hnone, List.length_nil, Nat.add_zero, iter]

section
variable (s : State) (p line : Nat)

theorem State.lineReleased_hl (q : Nat) : (s.lineReleased p line).hl q =
    ((s.setHl p { s.hl p with filter := merase (s.hl p).filter line }).hl q).answered p line := by
  unfold State.lineReleased State.hl
  split <;> rfl

theorem State.lineReleased_filter : ((s.lineReleased p line).hl p).filter = merase (s.hl p).filter line := by
  rw [State.lineReleased_hl, State.hl_setHl]; rfl

theorem State.lineReleased_gone : mget? ((s.lineReleased p line).hl p).filter line = none := by
  rw [State.lineReleased_filter, mget?_merase]

theorem State.lineReleased_kept {l : Nat} (hother : l ≠ line) :
    mget? ((s.lineReleased p line).hl p).filter l = mget? (s.hl p).filter l := by
  rw [State.lineReleased_filter, mget?_merase_ne _ hother]

theorem State.lineReleased_frame : (s.lineReleased p line).mem = s.mem ∧ (s.lineReleased p line).dict = s.dict :=
  ⟨State.setHl_mem .., State.setHl_dict ..⟩

end

theorem State.setHl_filter_waiting (s : State) (p : Nat) (f : AMap Nat) (q : Nat) :
    ((s.setHl p { s.hl p with filter := f }).hl q).waiting = (s.hl q).waiting := by
  unfold State.setHl State.hl
  split_ifs <;> rfl

theorem State.lineReleased_waiting {q : Nat} (hnone : (s.hl q).waiting = []) (p line : Nat) :
    ((s.lineReleased p line).hl q).waiting = [] := by
  rw [State.lineReleased_hl, HostSt.answered, State.setHl_filter_waiting, hnone, List.map_nil]

section
variable (h0 : s.hl0.waiting = []) (h1 : s.hl1.waiting = [])
include h0 h1

/-- Where nothing waits, a released line is all that an answer leaves. -/
theorem State.lineReleased_wakes_none (p line : Nat) : (s.lineReleased p line).hdmWakeAll = s.lineReleased p line := by
  refine State.hdmWakeAll_of_none fun q => State.lineReleased_waiting ?_ p line
  unfold State.hl
  split
  · exact h0
  · exact h1

theorem exec_biSnoopResponse_clean (line : Nat) : exec (.biSnoopResponse p line none) s = .next (s.lineReleased p.val (line / 64 * 64)) :=
  congrArg Host.Outcome.next (State.lineReleased_wakes_none h0 h1 _ _)

theorem exec_biSnoopResponse_modified {line : Nat} (hheld : mget? (s.hl p.val).filter (line / 64 * 64) ≠ none) (d : List Byte) :
    exec (.biSnoopResponse p line (some d)) s =
      .next ((s.writeAt (line / 64 * 64) ((d ++ zeros 64).take 64)).lineReleased p.val (line / 64 * 64)) := by
  have hrow : exec (.biSnoopResponse p line (some d)) s = execBiSnoopResponse p line (some d) s := rfl
  obtain ⟨x, hx⟩ := Option.ne_none_iff_exists'.mp hheld
  simp only [hrow, execBiSnoopResponse, hx]
  let u := s.writeAt (line / 64 * 64) ((d ++ zeros 64).take 64)
  exact congrArg Host.Outcome.next (State.lineReleased_wakes_none (s := u) h0 h1 _ _)

end

/-! ## Completion notices (R516) -/

section
variable (hwritten : s.notice.unacked ≠ 0)
include hwritten

theorem exec_noticeWriteDone_unseen (hsent : s.notice.outstanding = true) :
    exec .noticeWriteDone s = .next { s with notice := { s.notice with unacked := s.notice.unacked - 1 } } :=
  congrArg Host.Outcome.next ((if_neg hwritten).trans (if_pos hsent))

theorem exec_noticeWriteDone_first (hseen : s.notice.outstanding = false) : exec .noticeWriteDone s =
    .next ({ s with notice := { s.notice with unacked := s.notice.unacked - 1, outstanding := true } }.msix (s.get 0x1310 3) 0) :=
  congrArg Host.Outcome.next ((if_neg hwritten).trans (if_neg (Bool.not_eq_true _ ▸ hseen)))

end

end

/-- Settles O53: requests by what their port and their line meet, an answer by the line it releases, a notice by whether the host has
looked. -/
theorem hostRequestsAreServedAndNoticesSignalled : Obligations.HostRequestsAreServedAndNoticesSignalled := by
  refine ⟨fun s p req hreleased hpower =>
      ⟨exec_cxlConfigRequest_ready hreleased hpower, exec_cxlConfigRequest_unready hreleased hpower⟩,
    fun s p => ⟨fun pa op hup hinside hawake =>
        ⟨fun hfree => ⟨exec_hdmAccess_served hup hinside hawake hfree, exec_hdmAccess_snoops hup hinside hawake hfree⟩,
          exec_hdmAccess_queued hup hinside hawake⟩,
      fun line data hheld h0 h1 => ?answer⟩,
    fun s hwritten => ⟨exec_noticeWriteDone_unseen hwritten, exec_noticeWriteDone_first hwritten⟩⟩
  case answer =>
    cases data with
    | none =>
      obtain ⟨hmem, hdict⟩ := s.lineReleased_frame p.val (line / 64 * 64)
      refine ⟨_, exec_biSnoopResponse_clean h0 h1 line, s.lineReleased_gone _ _, fun _ => s.lineReleased_kept _ _, hdict,
        fun _ => hmem, nofun⟩
    | some d =>
      let u := s.writeAt (line / 64 * 64) ((d ++ zeros 64).take 64)
      obtain ⟨hmem, hdict⟩ := u.lineReleased_frame p.val (line / 64 * 64)
      refine ⟨_, exec_biSnoopResponse_modified h0 h1 hheld d, u.lineReleased_gone _ _, fun _ => u.lineReleased_kept _ _, hdict,
        nofun, fun e he => ?_⟩
      rw [← Option.some.inj he]
      exact hmem

end Sys2Proof.Machine
